-- ==== Sys2Proof/Word.lean ====
section
/-! DEFINITION. The word and byte types of the module's registers and memories. -/

namespace Sys2Proof

/-- A 32-bit register word (03_registers_and_audit.md R85). -/
abbrev Word := BitVec 32

/-- A byte of memory or of a frame. -/
abbrev Byte := BitVec 8

/-- A string of bytes, first byte first. -/
abbrev Bytes := List Byte

end Sys2Proof
end

