-- ==== Sys2Proof/Syntax.lean ====
section
/-! DEFINITION. The commands of the module: one constructor per row of the command table, with its operands. -/

namespace Sys2Proof

/-- Privilege of an application core's access (R30, R92). -/
inductive Priv where
  | user | supervisor | machine
  deriving DecidableEq, Repr

/-- The master that makes an access: its origin (R30) and, for an application core, its privilege. The partition of a
core is the one SYS_PART_MAP gives it (R34). -/
structure Master where
  origin : Nat
  priv : Priv
  deriving DecidableEq, Repr

/-- The CAN formats of a frame on the line (R216). -/
inductive CanKind where
  | classic | fd | xl
  deriving DecidableEq, Repr

/-- A CAN frame on a channel (R216). -/
structure CanFrame where
  kind : CanKind
  ide : Bool
  rtr : Bool
  brs : Bool
  esi : Bool
  id : Nat
  dlc : Nat
  vcid : Nat
  sdt : Nat
  af : Nat
  sec : Bool
  data : Bytes
  deriving DecidableEq, Repr


/-- One constructor per row of the command table; the docstring is the row's name and the rule that governs it.
The operands are what the environment supplies: the master, the address or index, the value, the frame. -/
inductive Instr where
  /-- REGISTER_WRITE (R8). -/
  | registerWrite (m : Master) (a size v : Nat)
  /-- RC_READ (R8). -/
  | rcRead (m : Master) (a size : Nat)
  /-- BIT_ALIAS_WRITE (R81). -/
  | bitAliasWrite (m : Master) (a v : Nat)
  /-- UNMAPPED_ACCESS (R22). -/
  | unmappedAccess (m : Master) (a size : Nat) (write : Bool)
  /-- GATED_WINDOW_ACCESS (R23). -/
  | gatedWindowAccess (m : Master) (a size : Nat) (write : Bool) (v : Nat)
  /-- HELD_ACCESS_RELEASE (R23). -/
  | heldAccessRelease
  /-- ACCESS_SIZE_ERROR (R86). -/
  | accessSizeError (m : Master) (a : Nat) (write : Bool) (bytes : Bytes)
  /-- PARTITION_DRAM_DENY (R36). -/
  | partitionDramDeny (m : Master) (a : Nat)
  /-- BLK_LOCK_SET (R76). -/
  | blkLockSet (m : Master) (w v : Nat)
  /-- MAILBOX_REQUEST (R84). -/
  | mailboxRequest (m : Master) (w v : Nat)
  /-- MAILBOX_KEEP_PART (R84). -/
  | mailboxKeepPart (m : Master) (w v : Nat)
  /-- MAILBOX_SNAPSHOT_VALID (R84). -/
  | mailboxSnapshotValid (w : Nat)
  /-- IRQ_ROUTE_REWRITE (R43). -/
  | irqRouteRewrite (m : Master) (n v : Nat)
  /-- PACE_LOOP_TICK (R53). -/
  | paceLoopTick
  /-- PACE_LOST (R54). -/
  | paceLost (n : Nat)
  /-- SENTINEL_FAIL (R55). -/
  | sentinelFail (n : Nat)
  /-- FOX_VSET_WRITE (R57). -/
  | foxVsetWrite (m : Master) (n v : Nat)
  /-- FOX_MEAS_UPDATE (R58). -/
  | foxMeasUpdate (ix v : Nat)
  /-- FOX_RULE_TICK (R62). -/
  | foxRuleTick
  /-- FOX_RULE_WRITE (R61). -/
  | foxRuleWrite (m : Master) (n ix v : Nat)
  /-- FOX_FGRP_WRITE (R65). -/
  | foxFgrpWrite (m : Master) (n v : Nat)
  /-- BATTERY_RUN_ENTER (R66). -/
  | batteryRunEnter
  /-- BATT_SHED (R67). -/
  | battShed
  /-- BATTERY_RUN_EXIT (R68). -/
  | batteryRunExit
  /-- VSET_AUDIT (R70). -/
  | vsetAudit (n : Nat)
  /-- AUDIT_PENDING_ADMIT (R90). -/
  | auditPendingAdmit
  /-- AUDIT_DRAIN (R90). -/
  | auditDrain (ok : Bool)
  /-- AUDIT_EXPORT_PUSH (R96). -/
  | auditExportPush
  /-- AUD_EXP_ACK_WRITE (R96). -/
  | audExpAckWrite (m : Master) (v : Nat)
  /-- AUDIT_GAP_RECORD (R98). -/
  | auditGapRecord
  /-- AUD_CTRL_WRITE (R100). -/
  | audCtrlWrite (m : Master) (v : Nat)
  /-- QUEUE_WORD_WRITE (R109). -/
  | queueWordWrite (q prod v : Nat)
  /-- QUEUE_HOLD_RESUME (R106). -/
  | queueHoldResume (q : Nat)
  /-- QUEUE_ITEM_TIMEOUT (R110). -/
  | queueItemTimeout (q : Nat)
  /-- SPILL_STAGE_MOVE (R108). -/
  | spillStageMove (q : Nat) (bad : Bool)
  /-- QUEUE_THR_CLEAR (R118). -/
  | queueThrClear (m : Master) (q : Nat)
  /-- QUEUE_THRESH_WRITE (R123). -/
  | queueThreshWrite (m : Master) (q v : Nat)
  /-- QUEUE_STRANDED (R119). -/
  | queueStranded (q : Nat)
  /-- QUEUE_FLUSH (R121). -/
  | queueFlush (m : Master) (q v : Nat)
  /-- QUEUE_POP (R126). -/
  | queuePop (m : Master) (q : Nat)
  /-- QUEUE_POP_CANCEL (R126). -/
  | queuePopCancel (m : Master) (q : Nat)
  /-- QUEUE_POP_SERVED (R126). -/
  | queuePopServed (q : Nat)
  /-- QMG_SPILL_WRITE (R113). -/
  | qmgSpillWrite (m : Master) (slot : Nat) (region : Bool) (v : Nat)
  /-- INGRESS_HEADER_END (R170). -/
  | ingressHeaderEnd (p len : Nat) (hdr : Bytes)
  /-- FRAME_ADMIT (R138). -/
  | frameAdmit (p : Nat) (body : Bytes) (good : Bool)
  /-- CB_RESET_TIMEOUT (R161). -/
  | cbResetTimeout (n : Nat)
  /-- EGRESS_SELECT (R146). -/
  | egressSelect (p : Nat)
  /-- AGEING_SWEEP (R155). -/
  | ageingSweep
  /-- EGRESS_TX_COMPLETE (R135). -/
  | egressTxComplete (p : Nat)
  /-- TIMED_LAUNCH_DUE (R152). -/
  | timedLaunchDue (q : Nat)
  /-- SHAPER_IDLE_WRITE (R148). -/
  | shaperIdleWrite (m : Master) (q v : Nat)
  /-- GCL_ENTRY_ADVANCE (R149). -/
  | gclEntryAdvance (p : Nat)
  /-- GCL_CHANGE (R150). -/
  | gclChange (m : Master) (p v : Nat)
  /-- GCL_CANCEL (R150). -/
  | gclCancel (m : Master) (p v : Nat)
  /-- GCL_CHANGE_TAKE_EFFECT (R150). -/
  | gclChangeTakeEffect (p : Nat)
  /-- PORT_DISABLE (R160). -/
  | portDisable (m : Master) (p v : Nat)
  /-- PORT_PURGE (R160). -/
  | portPurge (m : Master) (p v : Nat)
  /-- PORT_ENABLE (R160). -/
  | portEnable (m : Master) (p v : Nat)
  /-- ETH_LINK_DOWN (R160). -/
  | ethLinkDown (p : Nat)
  /-- ETH_LINK_UP (R160). -/
  | ethLinkUp (p rate : Nat)
  /-- PEND_LEARN_EXPIRE (R188). -/
  | pendLearnExpire
  /-- TBL_SEARCH (R201). -/
  | tblSearch (ring : Bool)
  /-- TBL_INSERT (R177). -/
  | tblInsert (ring : Bool)
  /-- TBL_DELETE (R201). -/
  | tblDelete (ring : Bool)
  /-- TBL_NEXT (R180). -/
  | tblNext (ring : Bool)
  /-- TBL_FLUSH_BY_PORT (R191). -/
  | tblFlushByPort (ring : Bool)
  /-- TBL_AGE_SWEEP (R191). -/
  | tblAgeSweep (ring : Bool)
  /-- TBL_REHASH_MOVE (R179). -/
  | tblRehashMove (ring : Bool)
  /-- HCB_COMMIT (R179). -/
  | hcbCommit (m : Master) (a v : Nat)
  /-- HCB_SHADOW_EN_WRITE (R179). -/
  | hcbShadowEnWrite (m : Master) (a v : Nat)
  /-- TABLE_AGER_TICK (R191). -/
  | tableAgerTick
  /-- CAN_FRAME_RECEIVED (R221). -/
  | canFrameReceived (n sof : Nat) (f : CanFrame)
  /-- CAN_RX_ERROR (R213). -/
  | canRxError (n code : Nat) (dataPhase severe : Bool)
  /-- CAN_TX_SELECT (R218). -/
  | canTxSelect (n : Nat)
  /-- CAN_ARB_LOST (R219). -/
  | canArbLost (n : Nat)
  /-- CAN_TX_ERROR (R219). -/
  | canTxError (n code : Nat) (dataPhase exempt : Bool)
  /-- CAN_TX_COMPLETE (R219). -/
  | canTxComplete (n : Nat)
  /-- CAN_RECOVER (R213). -/
  | canRecover (m : Master) (n v : Nat)
  /-- CAN_BUSOFF_RECOVERED (R213). -/
  | canBusoffRecovered (n : Nat)
  /-- CAN_ENABLE (R213). -/
  | canEnable (m : Master) (n v : Nat)
  /-- CAN_DISABLE (R237). -/
  | canDisable (m : Master) (n v : Nat)
  /-- CAN_OFF_HEAD_CHECK (R213). -/
  | canOffHeadCheck (n : Nat)
  /-- TP_SESSION_OPEN (R223). -/
  | tpSessionOpen (n : Nat) (f : CanFrame)
  /-- TP_DT_RECEIVED (R223). -/
  | tpDtReceived (n : Nat) (f : CanFrame)
  /-- TP_ABORT_RECEIVED (R224). -/
  | tpAbortReceived (n : Nat) (f : CanFrame)
  /-- TP_TIMEOUT (R223). -/
  | tpTimeout (n sa da pgn : Nat)
  /-- TP_TX_SESSION_START (R226). -/
  | tpTxSessionStart (n tag : Nat)
  /-- TP_TX_SEGMENT_TIMEOUT (R226). -/
  | tpTxSegmentTimeout (n tag : Nat)
  /-- TP_TX_SESSION_END (R226). -/
  | tpTxSessionEnd (n tag : Nat) (ok : Bool)
  /-- TUNNEL_TERMINATE (R228). -/
  | tunnelTerminate
  /-- LIN_SLOT_START (R230). -/
  | linSlotStart (n : Nat)
  /-- LIN_SCHEDULE_SWITCH (R230). -/
  | linScheduleSwitch (m : Master) (n v : Nat)
  /-- LIN_BUFFER_TAKE (R231). -/
  | linBufferTake (n : Nat)
  /-- LIN_HEADER_RECEIVED (R232). -/
  | linHeaderReceived (n id : Nat)
  /-- LIN_RESPONSE_RECEIVED (R232). -/
  | linResponseReceived (n outcome : Nat) (data : Bytes)
  /-- LIN_FRAME_COMPLETE (R231). -/
  | linFrameComplete (n : Nat)
  /-- LIN_WAKE_SEND (R233). -/
  | linWakeSend (m : Master) (n v : Nat)
  /-- LIN_WAKE_RX (R233). -/
  | linWakeRx (n : Nat)
  /-- LIN_BUS_IDLE (R233). -/
  | linBusIdle (n : Nat)
  /-- ME_HANG (R243). -/
  | meHang (n : Nat)
  /-- CELL_WRITE (R258). -/
  | cellWrite (m : Master) (cell : Nat) (age : Bool) (ws : List Word)
  /-- STALE_SWEEP (R248). -/
  | staleSweep
  /-- PACK_PERIODIC_EMIT (R264). -/
  | packPeriodicEmit (n : Nat)
  /-- PACK_DEFERRED_EMIT (R265). -/
  | packDeferredEmit (n : Nat)
  /-- ROUTE_IMAGE_LOAD (R273). -/
  | routeImageLoad (src ring : Nat)
  /-- SIG_LOAD (R283). -/
  | sigLoad (m : Master) (v : Nat)
  /-- SIG_LOAD_CLEAR (R283). -/
  | sigLoadClear (m : Master) (v : Nat)
  /-- SIG_LOAD_DONE (R283). -/
  | sigLoadDone
  /-- RI_ARM (R275). -/
  | riArm (m : Master) (v : Nat)
  /-- EPOCH_SWITCH_REQUEST (R276). -/
  | epochSwitchRequest (m : Master) (v : Nat)
  /-- EPOCH_SWITCH_CANCEL (R276). -/
  | epochSwitchCancel (m : Master) (v : Nat)
  /-- ROUTE_EPOCH (R276). -/
  | routeEpoch
  /-- PDELAY_REQ_SEND (R296). -/
  | pdelayReqSend (p : Nat)
  /-- PDELAY_REQ_RECEIVED (R296). -/
  | pdelayReqReceived (p seq ago : Nat) (peer : Bytes)
  /-- PDELAY_SAMPLE (R297). -/
  | pdelaySample (p t1 t2 t3 t4 : Nat)
  /-- PDELAY_RESPONSE_TIMEOUT (R297). -/
  | pdelayResponseTimeout (p : Nat)
  /-- SYNC_RECEIVED (R299). -/
  | syncReceived (p domain seq ago : Nat) (twoStep : Bool) (origin : Nat) (corr csro : Int)
  /-- FOLLOW_UP_RECEIVED (R299). -/
  | followUpReceived (p domain seq origin : Nat) (corr csro : Int)
  /-- FOLLOW_UP_TIMEOUT (R299). -/
  | followUpTimeout (n : Nat)
  /-- OFS_IN_WRITE (R300). -/
  | ofsInWrite (m : Master) (n v : Nat)
  /-- TB_STEP (R302). -/
  | tbStep (m : Master) (n : Nat)
  /-- TB_HOLD (R304). -/
  | tbHold (m : Master) (n : Nat)
  /-- TB_RELEASE (R306). -/
  | tbRelease (m : Master) (n : Nat)
  /-- TB_CLR_UNRES (R306). -/
  | tbClrUnres (m : Master) (n : Nat)
  /-- SLAVE_PORT_WRITE (R298). -/
  | slavePortWrite (m : Master) (n v : Nat)
  /-- SERVO_HOLDOVER (R303). -/
  | servoHoldover (n : Nat)
  /-- HOLD_RELEASE (R305). -/
  | holdRelease (n : Nat)
  /-- PPS_EDGE (R307). -/
  | ppsEdge (rising : Bool) (ago : Nat)
  /-- ZDA_SENTENCE (R307). -/
  | zdaSentence (bs : Bytes)
  /-- PPS_LOST (R308). -/
  | ppsLost
  /-- PPS_OUT_PULSE (R309). -/
  | ppsOutPulse
  /-- TB3_SAVE (R312). -/
  | tb3Save (ok : Bool)
  /-- REF_FAIL (R317). -/
  | refFail (ratio : Int)
  /-- REF_RETURN (R311). -/
  | refReturn
  /-- PLE_UPDATE (R330). -/
  | pleUpdate
  /-- PLE_MW_GO (R331). -/
  | pleMwGo (m : Master) (v : Nat)
  /-- MODEL_POS_TIMEOUT (R332). -/
  | modelPosTimeout
  /-- PLE_ORDER_POINT (R339). -/
  | pleOrderPoint
  /-- PLE_ORDER_SPAN (R339). -/
  | pleOrderSpan
  /-- PLE_ORDER_LINE (R339). -/
  | pleOrderLine
  /-- PLE_ORDER_LINE_SPAN (R339). -/
  | pleOrderLineSpan
  /-- PLE_CANCEL (R341). -/
  | pleCancel
  /-- PLE_COMMIT (R345). -/
  | pleCommit
  /-- PLE_ORDER_EXPIRE (R342). -/
  | pleOrderExpire
  /-- PLE_CLOSE_RETRY (R348). -/
  | pleCloseRetry
  /-- CLOSE_FAIL (R348). -/
  | closeFail
  /-- PLE_ENABLE (R332). -/
  | pleEnable (m : Master) (v : Nat)
  /-- PLE_DISABLE (R352). -/
  | pleDisable (m : Master) (v : Nat)
  /-- PLE_LOAD (R357). -/
  | pleLoad (m : Master) (v : Nat)
  /-- PLE_LOAD_CLEAR (R357). -/
  | pleLoadClear (m : Master) (v : Nat)
  /-- PLE_LOAD_DONE (R357). -/
  | pleLoadDone
  /-- TX_DOORBELL (R364). -/
  | txDoorbell (m : Master) (n v : Nat)
  /-- RX_DOORBELL (R363). -/
  | rxDoorbell (m : Master) (n v : Nat)
  /-- CQ_DOORBELL (R380). -/
  | cqDoorbell (m : Master) (n v : Nat)
  /-- TC_DOORBELL (R363). -/
  | tcDoorbell (m : Master) (n v : Nat)
  /-- TX_DESC_FETCH (R367). -/
  | txDescFetch (n : Nat) (fail : Bool)
  /-- ORDER_FETCH (R372). -/
  | orderFetch (n : Nat) (fail : Bool)
  /-- TC_RING_FETCH (R373). -/
  | tcRingFetch (n : Nat) (fail : Bool)
  /-- RX_DELIVER (R370). -/
  | rxDeliver (q : Nat) (fail : Bool)
  /-- COMPLETION_WRITE (R377). -/
  | completionWrite (c : Nat) (fail : Bool)
  /-- CMPL_STALL (R379). -/
  | cmplStall (c : Nat)
  /-- CQ_MOD_TIMER (R380). -/
  | cqModTimer
  /-- RING_ENABLE (R362). -/
  | ringEnable (m : Master) (k n v : Nat)
  /-- RING_DISABLE (R390). -/
  | ringDisable (m : Master) (k n v : Nat)
  /-- PCIE_FUNCTION_STOP (R385). -/
  | pcieFunctionStop (f : Nat) (flr : Bool)
  /-- HMB_IN_POST (R386). -/
  | hmbInPost (m : Master) (f v : Nat)
  /-- HMB_OUT_POST (R386). -/
  | hmbOutPost (m : Master) (f v : Nat)
  /-- HMB_IN_TAKEN (R386). -/
  | hmbInTaken (m : Master) (f v : Nat)
  /-- HMB_OUT_TAKEN (R386). -/
  | hmbOutTaken (m : Master) (f v : Nat)
  /-- AQENE_OFFER (R604). -/
  | aqeneOffer (party : Nat) (msg : Bytes)
  /-- AQENE_CONFIRM (R604). -/
  | aqeneConfirm (party : Nat) (msg : Bytes)
  /-- AQENE_ANSWER (R604). -/
  | aqeneAnswer (party : Nat) (msg : Bytes)
  /-- AQENE_PEER_APPEAR (R606). -/
  | aqenePeerAppear (party : Nat)
  /-- AQENE_RETRY (R604). -/
  | aqeneRetry (party : Nat)
  /-- BAR4_ACCESS (R400). -/
  | bar4Access (write : Bool) (x n : Nat) (bs : Bytes)
  /-- VF_DOORBELL_WRITE (R402). -/
  | vfDoorbellWrite (v j val : Nat)
  /-- OUTBOUND_READ (R406). -/
  | outboundRead (m : Master) (a n : Nat)
  /-- OUTBOUND_WRITE (R404). -/
  | outboundWrite (m : Master) (a : Nat) (bs : Bytes)
  /-- OUTBOUND_COMPLETION (R407). -/
  | outboundCompletion (tag status : Nat) (bs : Bytes)
  /-- OUTBOUND_READ_TIMEOUT (R407). -/
  | outboundReadTimeout
  /-- PREFETCH_LINE_EXPIRE (R409). -/
  | prefetchLineExpire
  /-- HBR_ERR_ACK (R410). -/
  | hbrErrAck (m : Master) (v : Nat)
  /-- PCIE_LINK_RESET (R413). -/
  | pcieLinkReset
  /-- PCIE_LINK_UP (R413). -/
  | pcieLinkUp (speed width : Nat) (fns : List Nat)
  /-- ACT_WINDOW_RESET (R425). -/
  | actWindowReset
  /-- GRD_LOAD (R457). -/
  | grdLoad (m : Master) (v : Nat)
  /-- GRD_LOAD_CLEAR (R457). -/
  | grdLoadClear (m : Master) (v : Nat)
  /-- GRD_LOAD_DONE (R457). -/
  | grdLoadDone
  /-- GUARD_MANIFEST_APPLY (R430). -/
  | guardManifestApply (src : Nat)
  /-- GRD_APPLY (R431). -/
  | grdApply (m : Master) (v : Nat)
  /-- GRD_APPLY_FAIL (R433). -/
  | grdApplyFail (m : Master) (v : Nat)
  /-- SAFE_SET_REPEAT (R435). -/
  | safeSetRepeat
  /-- FAULT_FORCE (R444). -/
  | faultForce (m : Master) (w v : Nat)
  /-- FAULT_ACK (R443). -/
  | faultAck (m : Master) (w v : Nat)
  /-- FAULT_STATUS_CLEAR (R439). -/
  | faultStatusClear (m : Master) (w v : Nat)
  /-- ALIVE_KICK (R449). -/
  | aliveKick (m : Master) (v : Nat)
  /-- ALIVE_STOP (R450). -/
  | aliveStop
  /-- ALIVE_STOP_CMD (R450). -/
  | aliveStopCmd (m : Master) (v : Nat)
  /-- ALIVE_RESTART (R451). -/
  | aliveRestart (m : Master) (v : Nat)
  /-- KICK_WINDOW_EXPIRE (R450). -/
  | kickWindowExpire
  /-- FIRST_KICK_EXPIRE (R448). -/
  | firstKickExpire
  /-- KICK_HALF_TIMEOUT (R449). -/
  | kickHalfTimeout
  /-- SAFE_PWR_ON (R452). -/
  | safePwrOn
  /-- SAFE_PWR_OFF (R452). -/
  | safePwrOff (fast : Bool)
  /-- DETECTOR_MISMATCH (R463). -/
  | detectorMismatch (sensed : Bool)
  /-- SAFE_PWR_LIMIT (R574). -/
  | safePwrLimit
  /-- SAFE_PWR_TRIP (R574). -/
  | safePwrTrip
  /-- SAFE_PWR_RETRY (R574). -/
  | safePwrRetry
  /-- SAFE_PWR_THERMAL (R574). -/
  | safePwrThermal (hot : Bool)
  /-- KEEPER_HANG (R465). -/
  | keeperHang
  /-- SLOT_LOAD (R470). -/
  | slotLoad (m : Master) (n : Nat)
  /-- SLOT_REVOKE (R473). -/
  | slotRevoke (m : Master) (n : Nat)
  /-- SLOT_ZEROISE_DONE (R473). -/
  | slotZeroiseDone (n : Nat)
  /-- JOB_GCM_ENC (R487). -/
  | jobGcmEnc (m : Master) (slot dst len src out aux : Nat)
  /-- JOB_GCM_DEC (R487). -/
  | jobGcmDec (m : Master) (slot dst len src out aux : Nat)
  /-- JOB_CMAC (R487). -/
  | jobCmac (m : Master) (slot dst len src out aux : Nat)
  /-- JOB_CTR (R487). -/
  | jobCtr (m : Master) (slot dst len src out aux : Nat)
  /-- JOB_KDF_CHILD (R487). -/
  | jobKdfChild (m : Master) (slot dst len src out aux : Nat)
  /-- JOB_KDF_8021X (R487). -/
  | jobKdf8021x (m : Master) (slot dst len src out aux : Nat)
  /-- JOB_UNWRAP (R487). -/
  | jobUnwrap (m : Master) (slot dst len src out aux : Nat)
  /-- JOB_DERIVE_ROOT (R487). -/
  | jobDeriveRoot (m : Master) (slot dst len src out aux : Nat)
  /-- JOB_DONE (R488). -/
  | jobDone (busError : Bool) (core : Option Nat)
  /-- TAMPER_ASSERT (R475). -/
  | tamperAssert (on mains : Bool) (batt : Nat)
  /-- CIPHER_ALARM (R476). -/
  | cipherAlarm (cause : Nat) (on : Bool)
  /-- CIP_ALARM_ACK (R477). -/
  | cipAlarmAck (m : Master) (v : Nat)
  /-- SA_INSTALL (R481). -/
  | saInstall (m : Master) (n : Nat)
  /-- SA_RETIRE (R481). -/
  | saRetire (m : Master) (n : Nat)
  /-- SA_READ (R481). -/
  | saRead (m : Master) (n : Nat)
  /-- FV_SET (R486). -/
  | fvSet (m : Master) (n : Nat)
  /-- LC_REQUEST (R492). -/
  | lcRequest (m : Master) (v : Nat)
  /-- VAULT_STORE (R497). -/
  | vaultStore (m : Master) (slot id : Nat) (bad : Bool)
  /-- VAULT_LOAD (R497). -/
  | vaultLoad (m : Master) (slot id : Nat)
  /-- VAULT_DELETE (R497). -/
  | vaultDelete (m : Master) (id : Nat) (bad : Bool)
  /-- ATTEST_REQUEST (R499). -/
  | attestRequest (m : Master) (v : Nat)
  /-- ATTEST_DONE (R499). -/
  | attestDone
  /-- RNG_READ (R508). -/
  | rngRead (m : Master)
  /-- ORPHAN_SWEEP (R516). -/
  | orphanSweep
  /-- REPLAY_GO (R521). -/
  | replayGo (m : Master) (v : Nat)
  /-- DISCARD_SET (R529). -/
  | discardSet (m : Master) (v : Nat)
  /-- LEDGER_REPLAY_PUSH (R521). -/
  | ledgerReplayPush
  /-- REPLAY_FEED_TAKE (R521). -/
  | replayFeedTake
  /-- REPLAY_DEADLINE (R520). -/
  | replayDeadline
  /-- DOMAIN_GATE (R532). -/
  | domainGate (m : Master) (v : Nat)
  /-- DOMAIN_WAKE (R532). -/
  | domainWake (m : Master) (v : Nat)
  /-- POWER_GOOD_TIMEOUT (R531). -/
  | powerGoodTimeout (d : Nat)
  /-- STANDBY_REQUEST (R537). -/
  | standbyRequest (m : Master)
  /-- SLEEP_REQUEST (R537). -/
  | sleepRequest (m : Master)
  /-- AUTO_SLEEP (R535). -/
  | autoSleep
  /-- STANDBY_TIMEOUT (R535). -/
  | standbyTimeout
  /-- TC10_SLEEP_ACK (R537). -/
  | tc10SleepAck (n : Nat)
  /-- TC10_ACK_TIMEOUT (R537). -/
  | tc10AckTimeout
  /-- WAKE_SOURCE (R538). -/
  | wakeSource (k : Nat) (mains : Bool) (batt : Nat)
  /-- KEY_IN_CHANGE (R556). -/
  | keyInChange (high : Bool)
  /-- WAKE_FWD_CAN_FRAME (R541). -/
  | wakeFwdCanFrame
  /-- PWR_BLK_RST (R543). -/
  | pwrBlkRst (m : Master) (v : Nat)
  /-- BLOCK_RESET_DONE (R542). -/
  | blockResetDone (d : Nat)
  /-- PWR_CORE_RST (R543). -/
  | pwrCoreRst (m : Master) (v : Nat)
  /-- PWR_CHIP_RST (R546). -/
  | pwrChipRst (m : Master) (v : Nat)
  /-- RESET_N (R545). -/
  | resetN (low mains : Bool) (batt : Nat)
  /-- CHIP_RESET (R542). -/
  | chipReset
  /-- BOOT (R588). -/
  | boot (pins : Bool)
  /-- COLD_POWER_ON (R548). -/
  | coldPowerOn (v : Nat)
  /-- POWER_FAIL_WARNING (R550). -/
  | powerFailWarning (batt : Bool)
  /-- POWER_FAIL_RECOVERED (R552). -/
  | powerFailRecovered
  /-- OUTPUT_LOST (R535). -/
  | outputLost
  /-- RAIL_FAULT (R557). -/
  | railFault (d : Nat)
  /-- OVER_TEMP (R557). -/
  | overTemp
  /-- OSC_FAIL (R463). -/
  | oscFail
  /-- UPD_WRITE_BLOCK (R584). -/
  | updWriteBlock (m : Master) (v : Nat)
  /-- UPD_ERASE (R584). -/
  | updErase (m : Master) (v : Nat)
  /-- UPD_ACTIVATE (R589). -/
  | updActivate (m : Master) (v : Nat)
  /-- UPD_CONFIRM (R590). -/
  | updConfirm (m : Master) (v : Nat)
  /-- UPD_FAIL_TRIAL (R590). -/
  | updFailTrial (m : Master) (v : Nat)
  /-- UPD_ROUTE_TRY (R597). -/
  | updRouteTry (m : Master) (v : Nat)
  /-- UPD_ROUTE_COMMIT (R597). -/
  | updRouteCommit (m : Master) (v : Nat)
  /-- UPD_GUARD_COMMIT (R598). -/
  | updGuardCommit (m : Master) (v : Nat)
  /-- UPD_RECOVER (R595). -/
  | updRecover (m : Master) (v : Nat)
  /-- UPD_INPLACE (R593). -/
  | updInplace (m : Master) (v : Nat)
  /-- UPD_SET_BLEVEL (R608). -/
  | updSetBlevel (m : Master) (v : Nat)
  /-- UPD_CMD_DONE (R584). -/
  | updCmdDone (retries : Nat)
  /-- RESIDENT_LOADER (R594). -/
  | residentLoader
  /-- REC_INFO_REQ (R596). -/
  | recInfoReq (party : Nat) (msg : Bytes)
  /-- REC_WRITE (R596). -/
  | recWrite (party : Nat) (msg : Bytes)
  /-- REC_COMMIT (R596). -/
  | recCommit (party : Nat) (msg : Bytes)
  /-- REC_STAGE_DRAM (R596). -/
  | recStageDram (party : Nat) (msg : Bytes)
  /-- REC_REBOOT (R596). -/
  | recReboot (party : Nat) (msg : Bytes)
  /-- CONFIG_EXPORT (R601). -/
  | configExport (m : Master) (mA mB : Nat)
  /-- CONFIG_IMPORT (R602). -/
  | configImport (m : Master) (src len mA mB : Nat)
  /-- DRAM_ECC_ERROR (R465). -/
  | dramEccError (m : Master) (a : Nat) (corrected : Bool)
  /-- SLOT_ECC (R474). -/
  | slotEcc (n : Nat)
  /-- SRAM_ECC (R525). -/
  | sramEcc (off : Nat)
  deriving DecidableEq, Repr

end Sys2Proof
end

