-- ==== Sys2Proof/Decode.lean ====
section
/-! DEFINITION. Commands by words: the command table of this block gives no row any bits, so no word spells a command. -/

namespace Sys2Proof

/-- The command a word spells by the table's bits: none, as the table gives bits to no row.
[DESIGN CHOICE, assumption 1] -/
def decodeTableWord (_nbits _w : Nat) : Option Instr := none

end Sys2Proof
end

