-- ==== Sys2Proof/Config.lean ====
section
/-! DEFINITION. Free values: what the spec leaves open or leaves to an implementation, as constants without a body, so
that nothing can evaluate them and no statement can rest on one. Each is named in an assumption-log entry. -/

namespace Sys2Proof.Config

/-- The k-th fresh free word. [DESIGN CHOICE, assumption 8 and 9] -/
opaque freeWord : Nat → Word

/-- The source address of a tunnel frame that leaves Ethernet port p, which R227 does not state.
[DESIGN CHOICE, assumption 9 and 62] -/
opaque tunnelSource : Nat → BitVec 48

/-- A fused root: 0 ROOT_DEV, 1 ROOT_FIELD, 2 ROOT_RMA (R489). [DESIGN CHOICE, assumption 9] -/
opaque root : Nat → BitVec 256

/-- ECDSA P-384 verification of a signature over a digest under a public key in SEC1 form, all read big-endian (R492,
R587). [DESIGN CHOICE, assumption 9] -/
opaque ecdsaVerify : Nat → Nat → Nat → Bool

/-- The public key, in SEC1 form, that the boot ROM holds for a purpose: 0 life cycle, 1 firmware, 2 route image, 3 guard
manifest, 4 service (R492, R587). [DESIGN CHOICE, assumption 9] -/
opaque romKey : Nat → Nat

/-- The OEM's public key, whose hash is fused (R272, R493). [DESIGN CHOICE, assumption 9] -/
opaque oemKey : Nat

/-- The public identity key of an active root, 97 bytes in SEC1 form read big-endian (R495).
[DESIGN CHOICE, assumption 9] -/
opaque identityKey : Nat → Nat

/-- The k-th signature that the public-key unit makes with the identity key: 96 bytes, r then s (R498, R601).
[DESIGN CHOICE, assumption 9] -/
opaque signature : Nat → BitVec 768

/-- The identity certificate of an active root, X.509 DER, which the spec names and does not lay out (R495).
[DESIGN CHOICE, assumption 9] -/
opaque identityCert : Nat → List (BitVec 8)

/-- A certificate chains to Henyaty's device CA (R602). [DESIGN CHOICE, assumption 9 and 102] -/
opaque certTrusted : List (BitVec 8) → Bool

/-- The public key that a certificate certifies (R602). [DESIGN CHOICE, assumption 9 and 102] -/
opaque certKey : List (BitVec 8) → Nat

/-- What the engine's sine of an angle (2^-48 turn) differs by, in 2^-36, within the bound of R328.
[DESIGN CHOICE, assumption 9; DEDUCED, assumption 74] -/
opaque sineError : Nat → Int

/-- What the k-th crossing that the engine finds differs by from the model's root, in nanoseconds, within the bound of
R342. [DESIGN CHOICE, assumption 9; DEDUCED, assumption 75] -/
opaque crossingError : Nat → Int

end Sys2Proof.Config
end

