-- ==== Sys2Proof/Machine/Bits.lean ====
section
/-! DEFINITION. Bit fields, byte orders, signed views and saturating counts (00_scope.md, R14). -/

namespace Sys2Proof.Machine

/-- Field [hi:lo] of a word, as a number. -/
def fld (w : Word) (hi lo : Nat) : Nat := (w.toNat >>> lo) % 2 ^ (hi + 1 - lo)

/-- Bit b of a word. -/
def bitOf (w : Word) (b : Nat) : Bool := w.getLsbD b

/-- The word with ones in [hi:lo]. -/
def fieldMask (hi lo : Nat) : Word := BitVec.ofNat 32 ((2 ^ (hi + 1 - lo) - 1) <<< lo)

/-- A word with field [hi:lo] replaced by v. -/
def putFld (w : Word) (hi lo v : Nat) : Word :=
  (w &&& ~~~ fieldMask hi lo) ||| (BitVec.ofNat 32 (v <<< lo) &&& fieldMask hi lo)

/-- A word with bit b set to v. -/
def putBit (w : Word) (b : Nat) (v : Bool) : Word := putFld w b b v.toNat

/-- The word with only bit b set. -/
def bitWord (b : Nat) : Word := BitVec.ofNat 32 (2 ^ b)

/-- A number as a word, modulo 2^32. -/
def word (n : Nat) : Word := BitVec.ofNat 32 n

/-- A number as a word, saturating at 0xFFFF_FFFF. -/
def satWord (n : Nat) : Word := BitVec.ofNat 32 (min n 0xFFFFFFFF)

/-- One more, saturating at 0xFFFF_FFFF. -/
def satInc (w : Word) : Word := satWord (w.toNat + 1)

/-- A byte from a number. -/
def byte (n : Nat) : Byte := BitVec.ofNat 8 n

/-- The k low bytes of n, least significant first (R14). -/
def leBytes : Nat → Nat → Bytes
  | 0, _ => []
  | k + 1, n => byte n :: leBytes k (n / 256)

/-- The number whose bytes are given, least significant first. -/
def leVal : Bytes → Nat
  | [] => 0
  | b :: bs => b.toNat + 256 * leVal bs

/-- The k low bytes of n, most significant first. -/
def beBytes (k n : Nat) : Bytes := (leBytes k n).reverse

/-- The number whose bytes are given, most significant first. -/
def beVal (bs : Bytes) : Nat := leVal bs.reverse

/-- n bytes from offset o, padded with zero bytes past the end. -/
def slice (bs : Bytes) (o n : Nat) : Bytes :=
  let t := (bs.drop o).take n
  t ++ List.replicate (n - t.length) 0

/-- The byte at offset o, zero past the end. -/
def byteAt (bs : Bytes) (o : Nat) : Nat := ((bs[o]?).getD 0).toNat

/-- A little-endian field of k bytes at offset o. -/
def leAt (bs : Bytes) (o k : Nat) : Nat := leVal (slice bs o k)

/-- A big-endian field of k bytes at offset o. -/
def beAt (bs : Bytes) (o k : Nat) : Nat := beVal (slice bs o k)

/-- A word of a record at word index i, little-endian. -/
def wordAt (bs : Bytes) (i : Nat) : Word := word (leAt bs (4 * i) 4)

/-- bs with the bytes at offset o replaced by v, the length kept. -/
def putBytes (bs : Bytes) (o : Nat) (v : Bytes) : Bytes :=
  (bs.take o ++ v ++ bs.drop (o + v.length)).take bs.length

/-- The words of a byte string, little-endian. -/
def toWords (bs : Bytes) : List Word :=
  (List.range ((bs.length + 3) / 4)).map (wordAt bs)

/-- The bytes of a list of words, little-endian. -/
def ofWords (ws : List Word) : Bytes := ws.flatMap fun w => leBytes 4 w.toNat

/-- The two's complement value of the low k bits of n. -/
def signed (k n : Nat) : Int :=
  let m := n % 2 ^ k
  if m < 2 ^ (k - 1) then (m : Int) else (m : Int) - (2 ^ k : Nat)

/-- The k-bit two's complement encoding of an integer. -/
def unsigned (k : Nat) (z : Int) : Nat := (z % ((2 ^ k : Nat) : Int)).toNat

/-- An integer limited to [lo, hi]. -/
def clampI (lo hi z : Int) : Int := if z < lo then lo else if hi < z then hi else z

/-- Rounding division to nearest, halves away from zero, for a positive divisor. -/
def roundDiv (a : Int) (d : Nat) : Int :=
  if a < 0 then -(((-a).toNat * 2 + d) / (2 * d) : Nat) else ((a.toNat * 2 + d) / (2 * d) : Nat)

/-- n divided by d, rounded up. -/
def ceilDiv (n d : Nat) : Nat := if d = 0 then 0 else (n + d - 1) / d

end Sys2Proof.Machine
end

