-- ==== Sys2Proof/Machine/Hash.lean ====
section
/-! DEFINITION. The hash functions the spec names: CRC-32C in the form of R174, SHA-256 (R94) and SHA-384 (R272, R430),
the latter two as FIPS 180-4 defines them, with HMAC as RFC 2104 defines it. -/

namespace Sys2Proof.Machine

/-- One bit of the reflected CRC-32C (R174). -/
def crcBit (c : Word) : Word := if c.getLsbD 0 then (c >>> 1) ^^^ 0x82F63B78#32 else c >>> 1

/-- CRC-32C over bytes, without final inversion (R174). -/
def crc32c (init : Word) (key : Bytes) : Word :=
  key.foldl (fun c b => (List.range 8).foldl (fun c _ => crcBit c) (c ^^^ b.setWidth 32)) init

/-- Round constants of SHA-256. -/
def sha256K : List Word := ([
  0x428A2F98, 0x71374491, 0xB5C0FBCF, 0xE9B5DBA5, 0x3956C25B, 0x59F111F1, 0x923F82A4, 0xAB1C5ED5, 0xD807AA98,
  0x12835B01, 0x243185BE, 0x550C7DC3, 0x72BE5D74, 0x80DEB1FE, 0x9BDC06A7, 0xC19BF174, 0xE49B69C1, 0xEFBE4786,
  0x0FC19DC6, 0x240CA1CC, 0x2DE92C6F, 0x4A7484AA, 0x5CB0A9DC, 0x76F988DA, 0x983E5152, 0xA831C66D, 0xB00327C8,
  0xBF597FC7, 0xC6E00BF3, 0xD5A79147, 0x06CA6351, 0x14292967, 0x27B70A85, 0x2E1B2138, 0x4D2C6DFC, 0x53380D13,
  0x650A7354, 0x766A0ABB, 0x81C2C92E, 0x92722C85, 0xA2BFE8A1, 0xA81A664B, 0xC24B8B70, 0xC76C51A3, 0xD192E819,
  0xD6990624, 0xF40E3585, 0x106AA070, 0x19A4C116, 0x1E376C08, 0x2748774C, 0x34B0BCB5, 0x391C0CB3, 0x4ED8AA4A,
  0x5B9CCA4F, 0x682E6FF3, 0x748F82EE, 0x78A5636F, 0x84C87814, 0x8CC70208, 0x90BEFFFA, 0xA4506CEB, 0xBEF9A3F7,
  0xC67178F2] : List Nat).map (BitVec.ofNat 32)

/-- Initial hash value of SHA-256. -/
def sha256H0 : List Word := ([
  0x6A09E667, 0xBB67AE85, 0x3C6EF372, 0xA54FF53A, 0x510E527F, 0x9B05688C, 0x1F83D9AB, 0x5BE0CD19] : List Nat).map (BitVec.ofNat 32)

/-- Round constants of SHA-384. -/
def sha384K : List (BitVec 64) := ([
  0x428A2F98D728AE22, 0x7137449123EF65CD, 0xB5C0FBCFEC4D3B2F, 0xE9B5DBA58189DBBC, 0x3956C25BF348B538,
  0x59F111F1B605D019, 0x923F82A4AF194F9B, 0xAB1C5ED5DA6D8118, 0xD807AA98A3030242, 0x12835B0145706FBE,
  0x243185BE4EE4B28C, 0x550C7DC3D5FFB4E2, 0x72BE5D74F27B896F, 0x80DEB1FE3B1696B1, 0x9BDC06A725C71235,
  0xC19BF174CF692694, 0xE49B69C19EF14AD2, 0xEFBE4786384F25E3, 0x0FC19DC68B8CD5B5, 0x240CA1CC77AC9C65,
  0x2DE92C6F592B0275, 0x4A7484AA6EA6E483, 0x5CB0A9DCBD41FBD4, 0x76F988DA831153B5, 0x983E5152EE66DFAB,
  0xA831C66D2DB43210, 0xB00327C898FB213F, 0xBF597FC7BEEF0EE4, 0xC6E00BF33DA88FC2, 0xD5A79147930AA725,
  0x06CA6351E003826F, 0x142929670A0E6E70, 0x27B70A8546D22FFC, 0x2E1B21385C26C926, 0x4D2C6DFC5AC42AED,
  0x53380D139D95B3DF, 0x650A73548BAF63DE, 0x766A0ABB3C77B2A8, 0x81C2C92E47EDAEE6, 0x92722C851482353B,
  0xA2BFE8A14CF10364, 0xA81A664BBC423001, 0xC24B8B70D0F89791, 0xC76C51A30654BE30, 0xD192E819D6EF5218,
  0xD69906245565A910, 0xF40E35855771202A, 0x106AA07032BBD1B8, 0x19A4C116B8D2D0C8, 0x1E376C085141AB53,
  0x2748774CDF8EEB99, 0x34B0BCB5E19B48A8, 0x391C0CB3C5C95A63, 0x4ED8AA4AE3418ACB, 0x5B9CCA4F7763E373,
  0x682E6FF3D6B2B8A3, 0x748F82EE5DEFB2FC, 0x78A5636F43172F60, 0x84C87814A1F0AB72, 0x8CC702081A6439EC,
  0x90BEFFFA23631E28, 0xA4506CEBDE82BDE9, 0xBEF9A3F7B2C67915, 0xC67178F2E372532B, 0xCA273ECEEA26619C,
  0xD186B8C721C0C207, 0xEADA7DD6CDE0EB1E, 0xF57D4F7FEE6ED178, 0x06F067AA72176FBA, 0x0A637DC5A2C898A6,
  0x113F9804BEF90DAE, 0x1B710B35131C471B, 0x28DB77F523047D84, 0x32CAAB7B40C72493, 0x3C9EBE0A15C9BEBC,
  0x431D67C49C100D4C, 0x4CC5D4BECB3E42B6, 0x597F299CFC657E2A, 0x5FCB6FAB3AD6FAEC, 0x6C44198C4A475817] : List Nat).map (BitVec.ofNat 64)

/-- Initial hash value of SHA-384. -/
def sha384H0 : List (BitVec 64) := ([
  0xCBBB9D5DC1059ED8, 0x629A292A367CD507, 0x9159015A3070DD17, 0x152FECD8F70E5939, 0x67332667FFC00B31,
  0x8EB44A8768581511, 0xDB0C2E0D64F98FA7, 0x47B5481DBEFA4FA4] : List Nat).map (BitVec.ofNat 64)

/-- The rotation counts that tell the two functions apart: the two large sums, the two small ones. -/
structure ShaRot where
  a : Nat × Nat × Nat
  e : Nat × Nat × Nat
  s0 : Nat × Nat × Nat
  s1 : Nat × Nat × Nat

/-- Exclusive or of three rotations. -/
def rot3 {n : Nat} (r : Nat × Nat × Nat) (x : BitVec n) : BitVec n :=
  x.rotateRight r.1 ^^^ x.rotateRight r.2.1 ^^^ x.rotateRight r.2.2

/-- Exclusive or of two rotations and a shift. -/
def rotShift {n : Nat} (r : Nat × Nat × Nat) (x : BitVec n) : BitVec n :=
  x.rotateRight r.1 ^^^ x.rotateRight r.2.1 ^^^ (x >>> r.2.2)

/-- One round: the eight working words and the sliding window of the message schedule. -/
def shaRound {n : Nat} (r : ShaRot) (st : List (BitVec n) × List (BitVec n)) (k : BitVec n) :
    List (BitVec n) × List (BitVec n) :=
  match st with
  | ([a, b, c, d, e, f, g, h], w) =>
    let w0 := w.headD 0
    let t1 := h + rot3 r.e e + ((e &&& f) ^^^ (~~~ e &&& g)) + k + w0
    let t2 := rot3 r.a a + ((a &&& b) ^^^ (a &&& c) ^^^ (b &&& c))
    let wn := rotShift r.s1 (w.getD 14 0) + w.getD 9 0 + rotShift r.s0 (w.getD 1 0) + w0
    ([t1 + t2, a, b, c, d + t1, e, f, g], w.tail ++ [wn])
  | x => x

/-- One block. -/
def shaBlock {n : Nat} (r : ShaRot) (ks : List (BitVec n)) (h blk : List (BitVec n)) : List (BitVec n) :=
  List.zipWith (· + ·) h (ks.foldl (shaRound r) (h, blk)).1

/-- Big-endian words of nb bytes of a byte string. -/
def shaWords (n nb : Nat) : Nat → Bytes → List (BitVec n)
  | 0, _ => []
  | k + 1, bs => BitVec.ofNat n (beVal (bs.take nb)) :: shaWords n nb k (bs.drop nb)

/-- Blocks of 16 words each, folded into the hash value. -/
def shaFold {n : Nat} (r : ShaRot) (ks : List (BitVec n)) (nb : Nat) : Nat → Bytes → List (BitVec n) → List (BitVec n)
  | 0, _, h => h
  | k + 1, bs, h => shaFold r ks nb k (bs.drop (16 * nb)) (shaBlock r ks h (shaWords n nb 16 bs))

/-- The message padded to whole blocks of blk bytes, its length in the last len bytes. -/
def shaPad (blk len : Nat) (m : Bytes) : Bytes :=
  let used := (m.length + 1 + len) % blk
  m ++ [0x80#8] ++ List.replicate ((blk - used) % blk) 0 ++ beBytes len (8 * m.length)

/-- SHA-256 of a byte string, as 32 bytes. -/
def sha256 (m : Bytes) : Bytes :=
  let p := shaPad 64 8 m
  let h := shaFold ⟨(2, 13, 22), (6, 11, 25), (7, 18, 3), (17, 19, 10)⟩ sha256K 4 (p.length / 64) p sha256H0
  h.flatMap fun w => beBytes 4 w.toNat

/-- SHA-384 of a byte string, as 48 bytes. -/
def sha384 (m : Bytes) : Bytes :=
  let p := shaPad 128 16 m
  let h := shaFold ⟨(28, 34, 39), (14, 18, 41), (1, 8, 7), (19, 61, 6)⟩ sha384K 8 (p.length / 128) p sha384H0
  (h.flatMap fun w => beBytes 8 w.toNat).take 48

/-- HMAC over a hash of block size blk. -/
def hmac (hash : Bytes → Bytes) (blk : Nat) (key m : Bytes) : Bytes :=
  let k0 := if blk < key.length then hash key else key
  let k := k0 ++ List.replicate (blk - k0.length) 0
  hash ((k.map (· ^^^ 0x5C#8)) ++ hash ((k.map (· ^^^ 0x36#8)) ++ m))

end Sys2Proof.Machine
end

