-- ==== Sys2Proof/Machine/Maps.lean ====
section
/-! DEFINITION. Finite maps held as sorted lists of (key, value): plain data, so that states compare. -/

namespace Sys2Proof.Machine

/-- A finite map from numbers, keys strictly rising. -/
abbrev Kv (α : Type) := List (Nat × α)

/-- The value listed under a key. -/
def kvGet? {α : Type} : Kv α → Nat → Option α
  | [], _ => none
  | (k, v) :: l, a => if a = k then some v else kvGet? l a

/-- The value listed under a key, or a default. -/
def kvGet {α : Type} (l : Kv α) (a : Nat) (d : α) : α := (kvGet? l a).getD d

/-- List a value under a key, in key order. -/
def kvSet {α : Type} : Kv α → Nat → α → Kv α
  | [], a, v => [(a, v)]
  | (k, w) :: l, a, v =>
    if a = k then (a, v) :: l
    else if a < k then (a, v) :: (k, w) :: l
    else (k, w) :: kvSet l a v

/-- Drop a key. -/
def kvDel {α : Type} : Kv α → Nat → Kv α
  | [], _ => []
  | (k, w) :: l, a => if a = k then kvDel l a else (k, w) :: kvDel l a

/-- Keys strictly rising: the one form a map has. -/
def kvSorted {α : Type} : Kv α → Bool
  | [] => true
  | [_] => true
  | (a, _) :: (b, y) :: l => decide (a < b) && kvSorted ((b, y) :: l)

/-- Change the value under a key, from a default where none is listed. -/
def kvMod {α : Type} (l : Kv α) (a : Nat) (d : α) (f : α → α) : Kv α := kvSet l a (f (kvGet l a d))

/-- Keep the entries whose key passes. -/
def kvKeep {α : Type} (p : Nat → Bool) (l : Kv α) : Kv α := l.filter fun e => p e.1

end Sys2Proof.Machine
end

