-- ==== Sys2Proof/Machine/RegTable.lean ====
section
/-! DEFINITION. The register tables of the spec as data: one row per line of a table, each with the rule that gives
it (R38, R72, R74, R101, R104, R128, R167, R205-R207, R240-R242, R282, R320, R356, R393, R417, R437, R456, R460,
R462, R504, R507, R528, R555, R612), and a name for each register's fabric address. -/

namespace Sys2Proof.Machine

/-- Base access code of a register (R8). -/
inductive Acc where
  | rw | ro | wo | w1c | w1s | rc | wl | wlc
  deriving DecidableEq, Repr

/-- Survival class of a register (R11). -/
inductive Keeps where
  | b | c | w | s | p
  deriving DecidableEq, Repr

/-- Which indices of a row exist (R9, R28, R111, R167, R320, R456, R240). -/
inductive IdxSet where
  | all | queue | swcPort | ethPort | linePort | swk
  deriving DecidableEq, Repr

/-- One line of a register table: index i < n1 at stride s1, and within it j < n2 at stride s2. -/
structure Row where
  name : String
  off : Nat
  n1 : Nat
  s1 : Nat
  n2 : Nat
  s2 : Nat
  acc : Acc
  sec : Bool
  reset : Word
  keeps : Keeps
  log : Bool
  mask : Word
  wide : Bool
  idx : IdxSet
  deriving DecidableEq, Repr

/-- Register rows: header (R74). -/
def rowsHeader : List Row := [
  ⟨"BLK_ID", 0x0, 1, 0x4, 1, 4, .ro, false, 0x0#32, .p, false, 0xFFFFFFFF#32, false, .all⟩,
  ⟨"BLK_CAPS", 0x4, 1, 0x4, 1, 4, .ro, false, 0x0#32, .p, false, 0xFFFFFFFF#32, false, .all⟩,
  ⟨"BLK_PARAM", 0x8, 6, 0x4, 1, 4, .ro, false, 0x0#32, .p, false, 0xFFFFFFFF#32, false, .all⟩,
  ⟨"BLK_LOCK", 0x20, 1, 0x4, 1, 4, .w1s, true, 0x0#32, .c, true, 0x1#32, false, .all⟩,
  ⟨"MBX_REQ", 0x30, 1, 0x4, 1, 4, .wo, false, 0x0#32, .b, false, 0xFFFFFFFF#32, false, .all⟩,
  ⟨"MBX_VALID", 0x34, 1, 0x4, 1, 4, .ro, false, 0x0#32, .b, false, 0xFFFFFFFF#32, false, .all⟩,
  ⟨"MBX_DATA", 0x38, 4, 0x4, 1, 4, .ro, false, 0x0#32, .b, false, 0xFFFFFFFF#32, false, .all⟩]

/-- Register rows: faultPage (R437). -/
def rowsFaultPage : List Row := [
  ⟨"FLT_STATUS", 0x0, 1, 0x4, 1, 4, .w1c, true, 0x0#32, .c, false, 0xFFFFFFFF#32, false, .all⟩,
  ⟨"FLT_FORCE", 0x4, 1, 0x4, 1, 4, .wo, true, 0x0#32, .b, true, 0xFFFFFFFF#32, false, .all⟩,
  ⟨"FLT_REACT", 0x8, 4, 0x4, 1, 4, .wlc, true, 0x0#32, .c, true, 0xFFFFFFFF#32, false, .all⟩,
  ⟨"FLT_FIRST_SRC", 0x20, 1, 0x4, 1, 4, .ro, false, 0x0#32, .c, false, 0xFFFFFFFF#32, false, .all⟩,
  ⟨"FLT_FIRST_INFO", 0x24, 4, 0x4, 1, 4, .ro, false, 0x0#32, .c, false, 0xFFFFFFFF#32, false, .all⟩,
  ⟨"FLT_FIRST_TIME_LO", 0x34, 1, 0x4, 1, 4, .ro, false, 0x0#32, .c, false, 0xFFFFFFFF#32, false, .all⟩,
  ⟨"FLT_FIRST_TIME_HI", 0x38, 1, 0x4, 1, 4, .ro, false, 0x0#32, .c, false, 0xFFFFFFFF#32, false, .all⟩,
  ⟨"FLT_MERGED", 0x3C, 1, 0x4, 1, 4, .ro, false, 0x0#32, .c, false, 0xFFFFFFFF#32, false, .all⟩,
  ⟨"FLT_ACK", 0x40, 1, 0x4, 1, 4, .wo, true, 0x0#32, .b, true, 0xFFFFFFFF#32, false, .all⟩]

/-- Register rows: SYS (R104, R38, R462). -/
def rowsSYS : List Row := [
  ⟨"SYS_DEVICE", 0x80, 1, 0x4, 1, 4, .ro, false, 0x9600000#32, .p, false, 0xFFFFFFFF#32, false, .all⟩,
  ⟨"SYS_MODULE", 0x84, 1, 0x4, 1, 4, .ro, false, 0x0#32, .p, false, 0xFFFFFFFF#32, false, .all⟩,
  ⟨"SYS_SERIAL_LO", 0x88, 1, 0x4, 1, 4, .ro, false, 0x0#32, .p, false, 0xFFFFFFFF#32, false, .all⟩,
  ⟨"SYS_SERIAL_HI", 0x8C, 1, 0x4, 1, 4, .ro, false, 0x0#32, .p, false, 0xFFFFFFFF#32, false, .all⟩,
  ⟨"SYS_LC_STATE", 0x90, 1, 0x4, 1, 4, .ro, false, 0x0#32, .p, false, 0xFFFFFFFF#32, false, .all⟩,
  ⟨"SYS_REJ_CNT", 0xA0, 1, 0x4, 1, 4, .rc, false, 0x0#32, .c, false, 0xFFFFFFFF#32, false, .all⟩,
  ⟨"SYS_SIZE_ERR_CNT", 0xA4, 1, 0x4, 1, 4, .rc, false, 0x0#32, .c, false, 0xFFFFFFFF#32, false, .all⟩,
  ⟨"SYS_SIZE_ERR_ADDR", 0xA8, 1, 0x4, 1, 4, .ro, false, 0x0#32, .c, false, 0xFFFFFFFF#32, false, .all⟩,
  ⟨"SYS_SIZE_ERR_INFO", 0xAC, 1, 0x4, 1, 4, .ro, false, 0x0#32, .c, false, 0xFFFFFFFF#32, false, .all⟩,
  ⟨"SYS_FLT_SEQ", 0xC0, 1, 0x4, 1, 4, .ro, false, 0x0#32, .p, false, 0xFFFFFFFF#32, false, .all⟩,
  ⟨"SYS_FLT_HIST_BASE", 0xC4, 1, 0x4, 1, 4, .ro, false, 0x41400000#32, .p, false, 0xFFFFFFFF#32, false, .all⟩,
  ⟨"SYS_PF_GRANT", 0x100, 1, 0x4, 1, 4, .wl, true, 0x0#32, .c, true, 0x1#32, false, .all⟩,
  ⟨"SYS_PART_MAP", 0x104, 1, 0x4, 1, 4, .wlc, true, 0x0#32, .c, true, 0xFFFF#32, false, .all⟩,
  ⟨"SYS_PART_WIN", 0x110, 4, 0x10, 4, 4, .wlc, true, 0x0#32, .c, true, 0xFFFFFFFF#32, false, .all⟩,
  ⟨"SYS_PART_DRAM_BASE", 0x150, 4, 0x8, 1, 4, .wlc, true, 0x0#32, .c, true, 0x80000FFF#32, false, .all⟩,
  ⟨"SYS_PART_DRAM_LIMIT", 0x154, 4, 0x8, 1, 4, .wlc, true, 0x0#32, .c, true, 0xFFF#32, false, .all⟩,
  ⟨"SYS_DENY_CNT", 0x170, 1, 0x4, 1, 4, .rc, false, 0x0#32, .c, false, 0xFFFFFFFF#32, false, .all⟩,
  ⟨"SYS_DENY_ADDR_LO", 0x174, 1, 0x4, 1, 4, .ro, false, 0x0#32, .c, false, 0xFFFFFFFF#32, false, .all⟩,
  ⟨"SYS_DENY_ADDR_HI", 0x178, 1, 0x4, 1, 4, .ro, false, 0x0#32, .c, false, 0xFFFFFFFF#32, false, .all⟩,
  ⟨"SYS_IRQ_ROUTE", 0x1000, 512, 0x4, 1, 4, .rw, true, 0x0#32, .c, true, 0xFFFF000F#32, false, .all⟩,
  ⟨"SYS_IRQ_PEND", 0x1800, 16, 0x4, 1, 4, .ro, false, 0x0#32, .b, false, 0xFFFFFFFF#32, false, .all⟩]

/-- Register rows: FOX (R72). -/
def rowsFOX : List Row := [
  ⟨"FOX_CTRL", 0x100, 1, 0x4, 1, 4, .rw, true, 0x142000#32, .c, true, 0xFFFF01#32, false, .all⟩,
  ⟨"FOX_STATUS", 0x104, 1, 0x4, 1, 4, .ro, false, 0x0#32, .b, false, 0xFFFFFFFF#32, false, .all⟩,
  ⟨"FOX_ACT_CNT", 0x108, 1, 0x4, 1, 4, .ro, false, 0x0#32, .c, false, 0xFFFFFFFF#32, false, .all⟩,
  ⟨"FOX_REVERT_SKIP", 0x10C, 1, 0x4, 1, 4, .rc, false, 0x0#32, .c, false, 0xFFFFFFFF#32, false, .all⟩,
  ⟨"FOX_BATT_CTRL", 0x110, 1, 0x4, 1, 4, .rw, true, 0x3A98#32, .c, true, 0x1FFFF#32, false, .all⟩,
  ⟨"FOX_BATT_SHED_EXTRA", 0x114, 1, 0x4, 1, 4, .rw, true, 0x0#32, .c, true, 0xFFFFFFFF#32, false, .all⟩,
  ⟨"FOX_LOOP_EN", 0x118, 1, 0x4, 1, 4, .rw, true, 0xFFFE#32, .c, true, 0xFFFE#32, false, .all⟩,
  ⟨"FOX_MEAS_VALID_LO", 0x120, 1, 0x4, 1, 4, .ro, false, 0x0#32, .b, false, 0xFFFFFFFF#32, false, .all⟩,
  ⟨"FOX_MEAS_VALID_HI", 0x124, 1, 0x4, 1, 4, .ro, false, 0x0#32, .b, false, 0xFFFFFFFF#32, false, .all⟩,
  ⟨"PAC_PACE_PD", 0x140, 16, 0x4, 1, 4, .ro, false, 0x0#32, .b, false, 0xFFFFFFFF#32, false, .all⟩,
  ⟨"PAC_PACE_LOW_PD", 0x180, 16, 0x4, 1, 4, .rc, false, 0xFFFF#32, .b, false, 0xFFFFFFFF#32, false, .all⟩,
  ⟨"FOX_FLOOR_PD", 0x204, 15, 0x4, 1, 4, .rw, true, 0x100#32, .c, true, 0xFFFFFFFF#32, false, .all⟩,
  ⟨"FOX_VSET_PD", 0x244, 15, 0x4, 1, 4, .rw, true, 0x384#32, .c, true, 0xFFFFFFFF#32, false, .all⟩,
  ⟨"FOX_VLAST_PD", 0x284, 15, 0x4, 1, 4, .ro, false, 0x0#32, .p, false, 0xFFFFFFFF#32, false, .all⟩,
  ⟨"FOX_MON_QSEL", 0x300, 8, 0x4, 1, 4, .rw, true, 0x0#32, .c, true, 0x3FF#32, false, .all⟩,
  ⟨"FOX_MON_PSEL", 0x320, 8, 0x4, 1, 4, .rw, true, 0x0#32, .c, true, 0x7F#32, false, .all⟩,
  ⟨"FOX_SWMEAS", 0x340, 4, 0x4, 1, 4, .rw, false, 0x0#32, .b, false, 0xFFFFFFFF#32, false, .all⟩,
  ⟨"FOX_HIT", 0x360, 4, 0x4, 1, 4, .w1c, false, 0x0#32, .b, false, 0xFFFFFFFF#32, false, .all⟩,
  ⟨"FOX_EVT_STATUS", 0x370, 1, 0x4, 1, 4, .w1c, false, 0x0#32, .b, false, 0xFFFFFFFF#32, false, .all⟩,
  ⟨"FOX_EVT_EN", 0x374, 1, 0x4, 1, 4, .rw, false, 0x0#32, .c, true, 0xFFFFFFFF#32, false, .all⟩,
  ⟨"FOX_MEAS", 0x400, 64, 0x4, 1, 4, .ro, false, 0x0#32, .b, false, 0xFFFFFFFF#32, false, .all⟩,
  ⟨"FOX_FGRP", 0x600, 32, 0x4, 1, 4, .rw, true, 0x0#32, .c, true, 0xC0007F7F#32, false, .all⟩,
  ⟨"FOX_RULE", 0x1000, 128, 0x10, 4, 4, .rw, true, 0x0#32, .c, true, 0xFFFFFFFF#32, false, .all⟩]

/-- Register rows: AUD (R101). -/
def rowsAUD : List Row := [
  ⟨"AUD_CTRL", 0x100, 1, 0x4, 1, 4, .wlc, true, 0x10000000#32, .c, true, 0xFFFF0003#32, false, .all⟩,
  ⟨"AUD_STATUS", 0x104, 1, 0x4, 1, 4, .ro, false, 0x0#32, .b, false, 0xFFFFFFFF#32, false, .all⟩,
  ⟨"AUD_SEQ", 0x108, 1, 0x4, 1, 4, .ro, false, 0x0#32, .p, false, 0xFFFFFFFF#32, false, .all⟩,
  ⟨"AUD_EXP_SEQ", 0x10C, 1, 0x4, 1, 4, .ro, false, 0x0#32, .p, false, 0xFFFFFFFF#32, false, .all⟩,
  ⟨"AUD_EXP_ACK", 0x110, 1, 0x4, 1, 4, .wo, true, 0x0#32, .b, false, 0xFFFFFFFF#32, false, .all⟩,
  ⟨"AUD_HOLD_CNT", 0x114, 1, 0x4, 1, 4, .rc, false, 0x0#32, .c, false, 0xFFFFFFFF#32, false, .all⟩,
  ⟨"AUD_REJ_SUPPR", 0x118, 1, 0x4, 1, 4, .rc, false, 0x0#32, .c, false, 0xFFFFFFFF#32, false, .all⟩,
  ⟨"AUD_UNLOGGED_CNT", 0x11C, 1, 0x4, 1, 4, .ro, false, 0x0#32, .p, false, 0xFFFFFFFF#32, false, .all⟩,
  ⟨"AUD_RING_BASE", 0x120, 1, 0x4, 1, 4, .ro, false, 0x40200000#32, .p, false, 0xFFFFFFFF#32, false, .all⟩,
  ⟨"AUD_EVT_STATUS", 0x130, 1, 0x4, 1, 4, .w1c, false, 0x0#32, .b, false, 0x7#32, false, .all⟩,
  ⟨"AUD_EVT_EN", 0x134, 1, 0x4, 1, 4, .rw, false, 0x0#32, .c, true, 0x7#32, false, .all⟩]

/-- Register rows: QMG (R128, R393). -/
def rowsQMG_0 : List Row := [
  ⟨"QMG_SPILL_BIND", 0x180, 8, 0x8, 1, 4, .wlc, true, 0x0#32, .c, true, 0x8000007F#32, false, .all⟩,
  ⟨"QMG_SPILL_REGION", 0x184, 8, 0x8, 1, 4, .wlc, true, 0x0#32, .c, true, 0x1FF01FF#32, false, .all⟩,
  ⟨"QMG_SPILL_ECC_CNT", 0x1C0, 1, 0x4, 1, 4, .rc, false, 0x0#32, .c, false, 0xFFFFFFFF#32, false, .all⟩,
  ⟨"QP_INFO", 0x4000, 128, 0x40, 1, 4, .ro, false, 0x0#32, .c, false, 0xFFFFFFFF#32, false, .queue⟩,
  ⟨"QP_CFG", 0x4004, 128, 0x40, 1, 4, .rw, true, 0x70640000#32, .c, true, 0x78FFFFFF#32, false, .queue⟩,
  ⟨"QP_THRESH", 0x4008, 128, 0x40, 1, 4, .rw, true, 0x0#32, .c, true, 0xFFFFFFFF#32, false, .queue⟩,
  ⟨"QP_DEPTH", 0x400C, 128, 0x40, 1, 4, .ro, false, 0x0#32, .b, false, 0xFFFFFFFF#32, false, .queue⟩,
  ⟨"QP_PEAK", 0x4010, 128, 0x40, 1, 4, .rc, false, 0x0#32, .b, false, 0xFFFFFFFF#32, false, .queue⟩,
  ⟨"QP_STATUS", 0x4014, 128, 0x40, 1, 4, .w1c, false, 0x1#32, .b, false, 0xBC#32, false, .queue⟩,
  ⟨"QP_OVR_CNT", 0x4018, 128, 0x40, 1, 4, .rc, false, 0x0#32, .c, false, 0xFFFFFFFF#32, false, .queue⟩,
  ⟨"QP_TRUNC_CNT", 0x401C, 128, 0x40, 1, 4, .rc, false, 0x0#32, .c, false, 0xFFFFFFFF#32, false, .queue⟩,
  ⟨"QP_FLUSH", 0x4020, 128, 0x40, 1, 4, .wo, true, 0x0#32, .b, true, 0x1#32, false, .queue⟩,
  ⟨"QP_POP", 0x4024, 128, 0x40, 1, 4, .wo, false, 0x0#32, .b, false, 0x3#32, false, .queue⟩,
  ⟨"QP_POPSTAT", 0x4028, 128, 0x40, 1, 4, .ro, false, 0x0#32, .b, false, 0xFFFFFFFF#32, false, .queue⟩,
  ⟨"QP_CAP", 0x402C, 128, 0x40, 1, 4, .ro, false, 0x0#32, .c, false, 0xFFFFFFFF#32, false, .queue⟩,
  ⟨"QP_DATA", 0x6000, 128, 0x40, 16, 4, .ro, false, 0x0#32, .b, false, 0xFFFFFFFF#32, false, .queue⟩,
  ⟨"QMG_RING_EVT_STATUS", 0x200, 1, 0x4, 1, 4, .w1c, false, 0x0#32, .b, false, 0xF#32, false, .all⟩,
  ⟨"QMG_RING_EVT_EN", 0x204, 1, 0x4, 1, 4, .rw, false, 0x0#32, .c, true, 0xF#32, false, .all⟩,
  ⟨"QMG_DB_DENY_INFO", 0x208, 1, 0x4, 1, 4, .ro, false, 0x0#32, .c, false, 0xFFFFFFFF#32, false, .all⟩,
  ⟨"HMB_IN", 0x400, 8, 0x100, 16, 4, .rw, false, 0x0#32, .b, false, 0xFFFFFFFF#32, false, .all⟩,
  ⟨"HMB_OUT", 0x440, 8, 0x100, 16, 4, .rw, false, 0x0#32, .b, false, 0xFFFFFFFF#32, false, .all⟩,
  ⟨"HMB_DB", 0x480, 8, 0x100, 1, 4, .wo, false, 0x0#32, .b, false, 0xFFFFFFFF#32, false, .all⟩,
  ⟨"HMB_FWDB", 0x484, 8, 0x100, 1, 4, .wo, true, 0x0#32, .b, false, 0xFFFFFFFF#32, false, .all⟩,
  ⟨"HMB_STAT", 0x488, 8, 0x100, 1, 4, .ro, false, 0x0#32, .b, false, 0xFFFFFFFF#32, false, .all⟩,
  ⟨"HMB_VEC", 0x48C, 8, 0x100, 1, 4, .rw, true, 0x0#32, .c, true, 0x3FF#32, false, .all⟩,
  ⟨"TXRING_BASE_LO", 0x8000, 256, 0x20, 1, 4, .rw, true, 0x0#32, .c, true, 0xFFFFFFFF#32, false, .all⟩,
  ⟨"TXRING_BASE_HI", 0x8004, 256, 0x20, 1, 4, .rw, true, 0x0#32, .c, true, 0xFFFF#32, false, .all⟩,
  ⟨"TXRING_CFG", 0x8008, 256, 0x20, 1, 4, .rw, true, 0x0#32, .c, true, 0xFF1FFFFF#32, false, .all⟩,
  ⟨"TXRING_BIND", 0x800C, 256, 0x20, 1, 4, .rw, true, 0x0#32, .c, true, 0x7F7F#32, false, .all⟩,
  ⟨"TXRING_PROD", 0x8010, 256, 0x20, 1, 4, .ro, false, 0x0#32, .c, false, 0xFFFFFFFF#32, false, .all⟩,
  ⟨"TXRING_FETCH", 0x8014, 256, 0x20, 1, 4, .ro, false, 0x0#32, .c, false, 0xFFFFFFFF#32, false, .all⟩,
  ⟨"TXRING_DONE", 0x8018, 256, 0x20, 1, 4, .ro, false, 0x0#32, .c, false, 0xFFFFFFFF#32, false, .all⟩,
  ⟨"TXRING_STAT", 0x801C, 256, 0x20, 1, 4, .ro, false, 0x0#32, .b, false, 0xFFFFFFFF#32, false, .all⟩,
  ⟨"RXRING_BASE_LO", 0xA000, 256, 0x20, 1, 4, .rw, true, 0x0#32, .c, true, 0xFFFFFFFF#32, false, .all⟩,
  ⟨"RXRING_BASE_HI", 0xA004, 256, 0x20, 1, 4, .rw, true, 0x0#32, .c, true, 0xFFFF#32, false, .all⟩,
  ⟨"RXRING_CFG", 0xA008, 256, 0x20, 1, 4, .rw, true, 0x0#32, .c, true, 0xFFF7FFFF#32, false, .all⟩,
  ⟨"RXRING_BIND", 0xA00C, 256, 0x20, 1, 4, .rw, true, 0x0#32, .c, true, 0x7F#32, false, .all⟩,
  ⟨"RXRING_PROD", 0xA010, 256, 0x20, 1, 4, .ro, false, 0x0#32, .c, false, 0xFFFFFFFF#32, false, .all⟩,
  ⟨"RXRING_FETCH", 0xA014, 256, 0x20, 1, 4, .ro, false, 0x0#32, .c, false, 0xFFFFFFFF#32, false, .all⟩,
  ⟨"RXRING_DONE", 0xA018, 256, 0x20, 1, 4, .ro, false, 0x0#32, .c, false, 0xFFFFFFFF#32, false, .all⟩]

/-- Register rows: QMG (R393). -/
def rowsQMG_1 : List Row := [
  ⟨"RXRING_STAT", 0xA01C, 256, 0x20, 1, 4, .ro, false, 0x0#32, .b, false, 0xFFFFFFFF#32, false, .all⟩,
  ⟨"TCRING_BASE_LO", 0xD000, 16, 0x20, 1, 4, .rw, true, 0x0#32, .c, true, 0xFFFFFFFF#32, false, .all⟩,
  ⟨"TCRING_BASE_HI", 0xD004, 16, 0x20, 1, 4, .rw, true, 0x0#32, .c, true, 0xFFFF#32, false, .all⟩,
  ⟨"TCRING_CFG", 0xD008, 16, 0x20, 1, 4, .rw, true, 0x0#32, .c, true, 0xFF01FFFF#32, false, .all⟩,
  ⟨"TCRING_BIND", 0xD00C, 16, 0x20, 1, 4, .rw, true, 0x0#32, .c, true, 0x7F#32, false, .all⟩,
  ⟨"TCRING_PROD", 0xD010, 16, 0x20, 1, 4, .ro, false, 0x0#32, .c, false, 0xFFFFFFFF#32, false, .all⟩,
  ⟨"TCRING_FETCH", 0xD014, 16, 0x20, 1, 4, .ro, false, 0x0#32, .c, false, 0xFFFFFFFF#32, false, .all⟩,
  ⟨"TCRING_DONE", 0xD018, 16, 0x20, 1, 4, .ro, false, 0x0#32, .c, false, 0xFFFFFFFF#32, false, .all⟩,
  ⟨"TCRING_STAT", 0xD01C, 16, 0x20, 1, 4, .ro, false, 0x0#32, .b, false, 0xFFFFFFFF#32, false, .all⟩,
  ⟨"CQ_BASE_LO", 0xC000, 128, 0x20, 1, 4, .rw, true, 0x0#32, .c, true, 0xFFFFFFFF#32, false, .all⟩,
  ⟨"CQ_BASE_HI", 0xC004, 128, 0x20, 1, 4, .rw, true, 0x0#32, .c, true, 0xFFFF#32, false, .all⟩,
  ⟨"CQ_CFG", 0xC008, 128, 0x20, 1, 4, .rw, true, 0x0#32, .c, true, 0xFF03FFFF#32, false, .all⟩,
  ⟨"CQ_IRQ", 0xC00C, 128, 0x20, 1, 4, .rw, true, 0x0#32, .c, true, 0xFFF3FF#32, false, .all⟩,
  ⟨"CQ_MOD", 0xC010, 128, 0x20, 1, 4, .rw, true, 0x0#32, .c, true, 0xFFFF#32, false, .all⟩,
  ⟨"CQ_PROD", 0xC014, 128, 0x20, 1, 4, .ro, false, 0x0#32, .c, false, 0xFFFFFFFF#32, false, .all⟩,
  ⟨"CQ_CONS", 0xC018, 128, 0x20, 1, 4, .ro, false, 0x0#32, .c, false, 0xFFFFFFFF#32, false, .all⟩,
  ⟨"CQ_STAT", 0xC01C, 128, 0x20, 1, 4, .ro, false, 0x0#32, .b, false, 0xFFFFFFFF#32, false, .all⟩,
  ⟨"QMG_RXMAP", 0xD800, 192, 0x4, 1, 4, .rw, true, 0x0#32, .c, true, 0x800000FF#32, false, .all⟩,
  ⟨"QMG_OWN_AQ", 0xE000, 13, 0x10, 1, 4, .rw, true, 0x0#32, .c, true, 0x8000FFFF#32, false, .all⟩,
  ⟨"QMG_OWN_FEAT_LO", 0xE004, 13, 0x10, 1, 4, .rw, true, 0x0#32, .c, true, 0xFFFFFFFF#32, false, .all⟩,
  ⟨"QMG_OWN_FEAT_HI", 0xE008, 13, 0x10, 1, 4, .rw, true, 0x0#32, .c, true, 0xFFFFFFFF#32, false, .all⟩,
  ⟨"QMG_OWN_STRM", 0xE00C, 13, 0x10, 1, 4, .rw, true, 0xFFFF0000#32, .c, true, 0xFFFFFFFF#32, false, .all⟩]

/-- All register rows: QMG. -/
def rowsQMG : List Row := rowsQMG_0 ++ rowsQMG_1

/-- Register rows: SWC (R167). -/
def rowsSWC : List Row := [
  ⟨"SWC_CTRL", 0x80, 1, 0x4, 1, 4, .rw, true, 0x1#32, .c, true, 0x1#32, false, .all⟩,
  ⟨"SWC_STATUS", 0x84, 1, 0x4, 1, 4, .ro, false, 0x0#32, .b, false, 0xFFFFFFFF#32, false, .all⟩,
  ⟨"SWC_POOL_SIZE", 0x88, 1, 0x4, 1, 4, .rw, true, 0xC000#32, .c, true, 0xFFFF#32, false, .all⟩,
  ⟨"SWC_POOL_USE", 0x8C, 1, 0x4, 1, 4, .ro, false, 0x0#32, .b, false, 0xFFFFFFFF#32, false, .all⟩,
  ⟨"SWC_CELLS_FREE", 0x90, 1, 0x4, 1, 4, .ro, false, 0xC000#32, .b, false, 0xFFFFFFFF#32, false, .all⟩,
  ⟨"SWC_DESC_FREE", 0x94, 1, 0x4, 1, 4, .ro, false, 0x10000#32, .b, false, 0xFFFFFFFF#32, false, .all⟩,
  ⟨"SWC_EVT_STATUS", 0x98, 1, 0x4, 1, 4, .w1c, false, 0x0#32, .b, false, 0x1F#32, false, .all⟩,
  ⟨"SWC_EVT_EN", 0x9C, 1, 0x4, 1, 4, .rw, false, 0x0#32, .c, true, 0x1F#32, false, .all⟩,
  ⟨"SWC_DBG_DESC", 0xA0, 1, 0x4, 1, 4, .rw, true, 0x0#32, .b, false, 0xFFFF#32, false, .all⟩,
  ⟨"SWC_DESC_LOW", 0xA4, 1, 0x4, 1, 4, .rw, true, 0x800#32, .c, true, 0x1FFFF#32, false, .all⟩,
  ⟨"SWC_PCTL", 0x2000, 128, 0x40, 1, 4, .rw, true, 0x1#32, .c, true, 0x5#32, false, .swcPort⟩,
  ⟨"SWC_PSTAT", 0x2004, 128, 0x40, 1, 4, .ro, false, 0x0#32, .b, false, 0xFFFFFFFF#32, false, .swcPort⟩,
  ⟨"SWC_PRSV", 0x2008, 128, 0x40, 1, 4, .rw, true, 0x0#32, .c, true, 0xFFFF#32, false, .swcPort⟩,
  ⟨"SWC_PUSE", 0x200C, 128, 0x40, 1, 4, .ro, false, 0x0#32, .b, false, 0xFFFFFFFF#32, false, .swcPort⟩,
  ⟨"SWC_PSCHED", 0x2010, 128, 0x40, 1, 4, .rw, true, 0x5F20006#32, .c, true, 0x3FFF0007#32, false, .swcPort⟩,
  ⟨"SWC_PQUANT0", 0x2014, 128, 0x40, 1, 4, .rw, true, 0x18181818#32, .c, true, 0xFFFFFFFF#32, false, .swcPort⟩,
  ⟨"SWC_PQUANT1", 0x2018, 128, 0x40, 1, 4, .rw, true, 0x18181818#32, .c, true, 0xFFFFFFFF#32, false, .swcPort⟩,
  ⟨"SWC_PLT", 0x201C, 128, 0x40, 1, 4, .rw, true, 0xA#32, .c, true, 0xFFFF#32, false, .swcPort⟩,
  ⟨"SWC_GCL_CTRL", 0x2020, 128, 0x40, 1, 4, .rw, true, 0x0#32, .c, true, 0x3007F01#32, false, .ethPort⟩,
  ⟨"SWC_GCL_CYCLE", 0x2024, 128, 0x40, 1, 4, .rw, true, 0x0#32, .c, true, 0xFFFFFFFF#32, false, .ethPort⟩,
  ⟨"SWC_GCL_EXT", 0x2028, 128, 0x40, 1, 4, .rw, true, 0x0#32, .c, true, 0xFFFFFFFF#32, false, .ethPort⟩,
  ⟨"SWC_GCL_BASE_NS", 0x202C, 128, 0x40, 1, 4, .rw, true, 0x0#32, .c, true, 0x3FFFFFFF#32, false, .ethPort⟩,
  ⟨"SWC_GCL_BASE_SLO", 0x2030, 128, 0x40, 1, 4, .rw, true, 0x0#32, .c, true, 0xFFFFFFFF#32, false, .ethPort⟩,
  ⟨"SWC_GCL_BASE_SHI", 0x2034, 128, 0x40, 1, 4, .rw, true, 0x0#32, .c, true, 0xFFFF#32, false, .ethPort⟩,
  ⟨"SWC_GCL_STAT", 0x2038, 128, 0x40, 1, 4, .ro, false, 0x0#32, .b, false, 0xFFFFFFFF#32, false, .ethPort⟩,
  ⟨"SWC_QLIM", 0x4000, 1024, 0x10, 1, 4, .rw, true, 0x100#32, .c, true, 0xFFFF#32, false, .all⟩,
  ⟨"SWC_QAGE", 0x4004, 1024, 0x10, 1, 4, .rw, true, 0x0#32, .c, true, 0xFFFFFF#32, false, .all⟩,
  ⟨"SWC_QCBS", 0x4008, 1024, 0x10, 1, 4, .rw, true, 0x0#32, .c, true, 0x803FFFFF#32, false, .all⟩,
  ⟨"SWC_QSTAT", 0x400C, 1024, 0x10, 1, 4, .ro, false, 0x0#32, .b, false, 0xFFFFFFFF#32, false, .all⟩,
  ⟨"SWC_GCL_ADM", 0x8000, 29, 0x200, 64, 4, .rw, true, 0x0#32, .c, true, 0xFFFFFFFF#32, false, .all⟩,
  ⟨"SWC_GCL_OPR", 0x8100, 29, 0x200, 64, 4, .ro, false, 0x0#32, .b, false, 0xFFFFFFFF#32, false, .all⟩,
  ⟨"SWC_CB_CFG", 0xC000, 256, 0x10, 1, 4, .rw, true, 0x0#32, .c, true, 0xE07FFFFF#32, false, .all⟩,
  ⟨"SWC_CB_STREAM", 0xC004, 256, 0x10, 1, 4, .rw, true, 0x0#32, .c, true, 0xFFFF#32, false, .all⟩,
  ⟨"SWC_CB_STAT", 0xC008, 256, 0x10, 1, 4, .ro, false, 0x0#32, .b, false, 0xFFFFFFFF#32, false, .all⟩]

/-- Register rows: TBL (R205, R206). -/
def rowsTBL : List Row := [
  ⟨"TBL_CTRL", 0x80, 1, 0x4, 1, 4, .rw, true, 0x1#32, .c, true, 0x3#32, false, .all⟩,
  ⟨"TBL_STATUS", 0x84, 1, 0x4, 1, 4, .ro, false, 0x0#32, .b, false, 0xFFFFFFFF#32, false, .all⟩,
  ⟨"TBL_EVT_STATUS", 0x88, 1, 0x4, 1, 4, .w1c, false, 0x0#32, .b, false, 0xF#32, false, .all⟩,
  ⟨"TBL_EVT_EN", 0x8C, 1, 0x4, 1, 4, .rw, false, 0x0#32, .c, true, 0xF#32, false, .all⟩,
  ⟨"TBL_LEARN_CFG", 0x90, 1, 0x4, 1, 4, .rw, true, 0xA#32, .c, true, 0xFF#32, false, .all⟩,
  ⟨"TBL_PEND_USE", 0x94, 1, 0x4, 1, 4, .ro, false, 0x0#32, .b, false, 0xFFFFFFFF#32, false, .all⟩,
  ⟨"TBL_AGER", 0x98, 1, 0x4, 1, 4, .rw, true, 0x0#32, .c, true, 0xFFFF#32, false, .all⟩,
  ⟨"TBL_ROUTE_CTRL", 0x9C, 1, 0x4, 1, 4, .rw, true, 0x30#32, .c, true, 0x7F#32, false, .all⟩,
  ⟨"TBL_TRACK_CTRL", 0xA0, 1, 0x4, 1, 4, .rw, true, 0x0#32, .c, true, 0xF#32, false, .all⟩,
  ⟨"TBL_CMD_LAST", 0xA4, 1, 0x4, 1, 4, .ro, false, 0xFFFFFFFF#32, .p, false, 0xFFFFFFFF#32, false, .all⟩,
  ⟨"TBL_CMD_OPEN", 0xA8, 1, 0x4, 1, 4, .ro, false, 0xFFFFFFFF#32, .p, false, 0xFFFFFFFF#32, false, .all⟩,
  ⟨"TBL_RELOC_JRNL", 0xAC, 1, 0x4, 1, 4, .ro, false, 0xFFFFFFFF#32, .c, false, 0xFFFFFFFF#32, false, .all⟩,
  ⟨"TBL_RMAC_LO", 0xB0, 1, 0x4, 1, 4, .rw, true, 0x0#32, .c, true, 0xFFFFFFFF#32, false, .all⟩,
  ⟨"TBL_RMAC_HI", 0xB4, 1, 0x4, 1, 4, .rw, true, 0x0#32, .c, true, 0xFFFF#32, false, .all⟩,
  ⟨"HCB_MAC_SEED0", 0x100, 1, 0x4, 1, 4, .rw, true, 0xFFFFFFFF#32, .c, true, 0xFFFFFFFF#32, false, .all⟩,
  ⟨"HCB_MAC_SEED1", 0x104, 1, 0x4, 1, 4, .rw, true, 0x5A5A5A5A#32, .c, true, 0xFFFFFFFF#32, false, .all⟩,
  ⟨"HCB_MAC_HCTRL", 0x108, 1, 0x4, 1, 4, .rw, true, 0x0#32, .c, true, 0x6#32, false, .all⟩,
  ⟨"HCB_MAC_HCNT", 0x10C, 1, 0x4, 1, 4, .ro, false, 0x0#32, .c, false, 0xFFFFFFFF#32, false, .all⟩,
  ⟨"HCB_EXT_SEED0", 0x110, 1, 0x4, 1, 4, .rw, true, 0xFFFFFFFF#32, .c, true, 0xFFFFFFFF#32, false, .all⟩,
  ⟨"HCB_EXT_SEED1", 0x114, 1, 0x4, 1, 4, .rw, true, 0x5A5A5A5A#32, .c, true, 0xFFFFFFFF#32, false, .all⟩,
  ⟨"HCB_EXT_HCTRL", 0x118, 1, 0x4, 1, 4, .rw, true, 0x0#32, .c, true, 0x6#32, false, .all⟩,
  ⟨"HCB_EXT_HCNT", 0x11C, 1, 0x4, 1, 4, .ro, false, 0x0#32, .c, false, 0xFFFFFFFF#32, false, .all⟩,
  ⟨"HCB_V4_SEED0", 0x1000, 33, 0x10, 1, 4, .rw, true, 0xFFFFFFFF#32, .c, true, 0xFFFFFFFF#32, false, .all⟩,
  ⟨"HCB_V4_SEED1", 0x1004, 33, 0x10, 1, 4, .rw, true, 0x5A5A5A5A#32, .c, true, 0xFFFFFFFF#32, false, .all⟩,
  ⟨"HCB_V4_HCTRL", 0x1008, 33, 0x10, 1, 4, .rw, true, 0x0#32, .c, true, 0x6#32, false, .all⟩,
  ⟨"HCB_V4_HCNT", 0x100C, 33, 0x10, 1, 4, .ro, false, 0x0#32, .c, false, 0xFFFFFFFF#32, false, .all⟩,
  ⟨"HCB_V6_SEED0", 0x1400, 129, 0x10, 1, 4, .rw, true, 0xFFFFFFFF#32, .c, true, 0xFFFFFFFF#32, false, .all⟩,
  ⟨"HCB_V6_SEED1", 0x1404, 129, 0x10, 1, 4, .rw, true, 0x5A5A5A5A#32, .c, true, 0xFFFFFFFF#32, false, .all⟩,
  ⟨"HCB_V6_HCTRL", 0x1408, 129, 0x10, 1, 4, .rw, true, 0x0#32, .c, true, 0x6#32, false, .all⟩,
  ⟨"HCB_V6_HCNT", 0x140C, 129, 0x10, 1, 4, .ro, false, 0x0#32, .c, false, 0xFFFFFFFF#32, false, .all⟩,
  ⟨"TBL_BUSDEF", 0x200, 32, 0x4, 1, 4, .rw, true, 0x0#32, .c, true, 0x8000FFFF#32, false, .all⟩,
  ⟨"TBL_EXTMASK", 0x280, 24, 0x4, 1, 4, .rw, true, 0x1FFFFFFF#32, .c, true, 0x1FFFFFFF#32, false, .all⟩,
  ⟨"TBL_MCMD", 0x400, 8, 0x4, 1, 4, .rw, true, 0x0#32, .b, false, 0xFFFFFFFF#32, false, .all⟩,
  ⟨"TBL_MGO", 0x420, 1, 0x4, 1, 4, .wo, true, 0x0#32, .b, false, 0x1#32, false, .all⟩,
  ⟨"TBL_MSTAT", 0x424, 1, 0x4, 1, 4, .ro, false, 0x0#32, .b, false, 0xFFFFFFFF#32, false, .all⟩,
  ⟨"TBL_MCURSOR", 0x428, 1, 0x4, 1, 4, .ro, false, 0x0#32, .b, false, 0xFFFFFFFF#32, false, .all⟩,
  ⟨"TBL_MDATA", 0x480, 36, 0x4, 1, 4, .rw, true, 0x0#32, .b, false, 0xFFFFFFFF#32, false, .all⟩]

/-- Register rows: CLS (R207). -/
def rowsCLS : List Row := [
  ⟨"CLS_CTRL", 0x80, 1, 0x4, 1, 4, .rw, true, 0x1#32, .c, true, 0x1#32, false, .all⟩,
  ⟨"CLS_EVT_STATUS", 0x88, 1, 0x4, 1, 4, .w1c, false, 0x0#32, .b, false, 0x1#32, false, .all⟩,
  ⟨"CLS_EVT_EN", 0x8C, 1, 0x4, 1, 4, .rw, false, 0x0#32, .c, true, 0x1#32, false, .all⟩,
  ⟨"CLS_PCFG", 0x1000, 29, 0x10, 1, 4, .rw, true, 0x10001#32, .c, true, 0x37FFF#32, false, .all⟩,
  ⟨"CLS_PDEF", 0x1004, 29, 0x10, 1, 4, .rw, true, 0x0#32, .c, true, 0x8000FFFF#32, false, .all⟩,
  ⟨"CLS_PCPMAP", 0x1008, 29, 0x10, 1, 4, .rw, true, 0xFAC688#32, .c, true, 0xFFFFFF#32, false, .all⟩]

/-- Register rows: CAN (R240). -/
def rowsCAN : List Row := [
  ⟨"CAN_CFG", 0x80, 1, 0x4, 1, 4, .rw, true, 0xFF2000#32, .c, true, 0xFF3FFF#32, false, .all⟩,
  ⟨"CAN_NBT", 0x84, 1, 0x4, 1, 4, .rw, true, 0x2040FC04#32, .c, true, 0xFFFFFFFF#32, false, .all⟩,
  ⟨"CAN_DBT", 0x88, 1, 0x4, 1, 4, .rw, true, 0x8081F01#32, .c, true, 0x7F7FFFFF#32, false, .all⟩,
  ⟨"CAN_XBT", 0x8C, 1, 0x4, 1, 4, .rw, true, 0x2020501#32, .c, true, 0x7F7FFFFF#32, false, .all⟩,
  ⟨"CAN_XPWM", 0x90, 1, 0x4, 1, 4, .rw, true, 0x602#32, .c, true, 0x3F3F3F#32, false, .all⟩,
  ⟨"CAN_TDC", 0x94, 1, 0x4, 1, 4, .rw, true, 0x10020#32, .c, true, 0x1FFFF#32, false, .all⟩,
  ⟨"CAN_STATUS", 0x98, 1, 0x4, 1, 4, .ro, false, 0x3#32, .b, false, 0xFFFFFFFF#32, false, .all⟩,
  ⟨"CAN_ERRCNT", 0x9C, 1, 0x4, 1, 4, .ro, false, 0x0#32, .b, false, 0xFFFFFFFF#32, false, .all⟩,
  ⟨"CAN_CMD", 0xA0, 1, 0x4, 1, 4, .wo, true, 0x0#32, .b, true, 0xFFFFFFFF#32, false, .all⟩,
  ⟨"CAN_EVT_STATUS", 0xA4, 1, 0x4, 1, 4, .w1c, false, 0x0#32, .b, false, 0x3F#32, false, .all⟩,
  ⟨"CAN_EVT_EN", 0xA8, 1, 0x4, 1, 4, .rw, false, 0x0#32, .c, true, 0x3F#32, false, .all⟩,
  ⟨"CAN_LAST_ERR", 0xAC, 1, 0x4, 1, 4, .rc, false, 0x0#32, .b, false, 0xFFFFFFFF#32, false, .all⟩,
  ⟨"CAN_SWK_CFG", 0xC0, 1, 0x4, 1, 4, .rw, true, 0x0#32, .c, true, 0x3F7#32, false, .swk⟩,
  ⟨"CAN_SWK_ID", 0xC4, 1, 0x4, 1, 4, .rw, true, 0x0#32, .c, true, 0xFFFFFFFF#32, false, .swk⟩,
  ⟨"CAN_SWK_IDMASK", 0xC8, 1, 0x4, 1, 4, .rw, true, 0x1FFFFFFF#32, .c, true, 0xFFFFFFFF#32, false, .swk⟩,
  ⟨"CAN_SWK_DMASK_LO", 0xCC, 1, 0x4, 1, 4, .rw, true, 0x0#32, .c, true, 0xFFFFFFFF#32, false, .swk⟩,
  ⟨"CAN_SWK_DMASK_HI", 0xD0, 1, 0x4, 1, 4, .rw, true, 0x0#32, .c, true, 0xFFFFFFFF#32, false, .swk⟩]

/-- Register rows: LIN (R241). -/
def rowsLIN : List Row := [
  ⟨"LIN_CFG", 0x80, 1, 0x4, 1, 4, .rw, true, 0x4B0000B6#32, .c, true, 0xFFFF01FF#32, false, .all⟩,
  ⟨"LIN_STATUS", 0x84, 1, 0x4, 1, 4, .ro, false, 0x0#32, .b, false, 0xFFFFFFFF#32, false, .all⟩,
  ⟨"LIN_SCHED_CTRL", 0x88, 1, 0x4, 1, 4, .rw, true, 0x0#32, .c, true, 0x7#32, false, .all⟩,
  ⟨"LIN_CMD", 0x8C, 1, 0x4, 1, 4, .wo, true, 0x0#32, .b, true, 0xFFFFFFFF#32, false, .all⟩,
  ⟨"LIN_EVT_STATUS", 0x90, 1, 0x4, 1, 4, .w1c, false, 0x0#32, .b, false, 0x3F#32, false, .all⟩,
  ⟨"LIN_EVT_EN", 0x94, 1, 0x4, 1, 4, .rw, false, 0x0#32, .c, true, 0x3F#32, false, .all⟩,
  ⟨"LIN_SCHED_LEN", 0xA0, 4, 0x4, 1, 4, .rw, true, 0x0#32, .c, true, 0x7F#32, false, .all⟩,
  ⟨"LIN_ID", 0x100, 64, 0x4, 1, 4, .rw, true, 0x0#32, .c, true, 0x1FFFFF#32, false, .all⟩,
  ⟨"LIN_SCH", 0x200, 4, 0x100, 64, 4, .rw, true, 0x0#32, .c, true, 0xFFF373F#32, false, .all⟩,
  ⟨"LIN_RBUF", 0x600, 64, 0x8, 2, 4, .ro, false, 0x0#32, .b, false, 0xFFFFFFFF#32, false, .all⟩]

/-- Register rows: MEC (R242). -/
def rowsMEC : List Row := [
  ⟨"MEC_CTRL", 0x80, 1, 0x4, 1, 4, .rw, true, 0x0#32, .c, true, 0xFFFF#32, false, .all⟩,
  ⟨"MEC_STATUS", 0x84, 1, 0x4, 1, 4, .ro, false, 0x0#32, .b, false, 0xFFFFFFFF#32, false, .all⟩,
  ⟨"MEC_UCODE_VER", 0x88, 1, 0x4, 1, 4, .ro, false, 0x0#32, .c, false, 0xFFFFFFFF#32, false, .all⟩,
  ⟨"MEC_EVT_STATUS", 0x8C, 1, 0x4, 1, 4, .w1c, false, 0x0#32, .b, false, 0x3#32, false, .all⟩,
  ⟨"MEC_EVT_EN", 0x90, 1, 0x4, 1, 4, .rw, false, 0x0#32, .c, true, 0x3#32, false, .all⟩,
  ⟨"MEC_TP_BASE", 0x94, 1, 0x4, 1, 4, .wlc, true, 0x0#32, .c, true, 0xFFFFF#32, false, .all⟩,
  ⟨"MEC_TP_CFG", 0x98, 1, 0x4, 1, 4, .rw, true, 0x32#32, .c, true, 0xFF#32, false, .all⟩,
  ⟨"MEC_TPPGN", 0x100, 64, 0x10, 3, 4, .rw, true, 0x0#32, .c, true, 0xFFFFFFFF#32, false, .all⟩,
  ⟨"MEC_RXSEAL", 0x1000, 512, 0x8, 2, 4, .rw, true, 0x0#32, .c, true, 0xFFFFFFFF#32, false, .all⟩,
  ⟨"MEC_TXTUN", 0x2000, 256, 0x20, 6, 4, .rw, true, 0x0#32, .c, true, 0xFFFFFFFF#32, false, .all⟩,
  ⟨"MEC_RXTUN", 0x4000, 64, 0x8, 2, 4, .rw, true, 0x0#32, .c, true, 0xFFFFFFFF#32, false, .all⟩]

/-- Register rows: SIG (R282). -/
def rowsSIG : List Row := [
  ⟨"SIG_CTRL", 0x80, 1, 0x4, 1, 4, .rw, true, 0x7#32, .c, true, 0x7#32, false, .all⟩,
  ⟨"SIG_STATUS", 0x84, 1, 0x4, 1, 4, .ro, false, 0x0#32, .b, false, 0xFFFFFFFF#32, false, .all⟩,
  ⟨"SIG_EVT_STATUS", 0x88, 1, 0x4, 1, 4, .w1c, false, 0x0#32, .b, false, 0x3F#32, false, .all⟩,
  ⟨"SIG_EVT_EN", 0x8C, 1, 0x4, 1, 4, .rw, false, 0x0#32, .c, true, 0x3F#32, false, .all⟩,
  ⟨"SIG_EPOCH_CTRL", 0x90, 1, 0x4, 1, 4, .w1s, true, 0x0#32, .b, true, 0xFFFFFFFF#32, false, .all⟩,
  ⟨"SIG_EPOCH_AT", 0x98, 2, 0x4, 1, 4, .rw, true, 0x0#32, .c, true, 0xFFFFFFFF#32, true, .all⟩,
  ⟨"SIG_EPOCH_STAT", 0xA0, 1, 0x4, 1, 4, .ro, false, 0x0#32, .c, false, 0xFFFFFFFF#32, false, .all⟩,
  ⟨"SIG_DRAIN", 0xA4, 1, 0x4, 1, 4, .ro, false, 0x0#32, .b, false, 0xFFFFFFFF#32, false, .all⟩,
  ⟨"SIG_RI_ACT_VER", 0xA8, 1, 0x4, 1, 4, .ro, false, 0x0#32, .c, false, 0xFFFFFFFF#32, false, .all⟩,
  ⟨"SIG_RI_ACT_DIG", 0xAC, 1, 0x4, 1, 4, .ro, false, 0x0#32, .c, false, 0xFFFFFFFF#32, false, .all⟩,
  ⟨"SIG_RI_SHD_VER", 0xB0, 1, 0x4, 1, 4, .rw, true, 0x0#32, .c, true, 0xFFFFFFFF#32, false, .all⟩,
  ⟨"SIG_RI_SHD_DIG", 0xB4, 1, 0x4, 1, 4, .rw, true, 0x0#32, .c, true, 0xFFFFFFFF#32, false, .all⟩,
  ⟨"SIG_RI_ARM", 0xB8, 1, 0x4, 1, 4, .w1s, true, 0x0#32, .b, true, 0xFFFFFFFF#32, false, .all⟩,
  ⟨"SIG_ARM_ERR", 0xBC, 1, 0x4, 1, 4, .ro, false, 0x0#32, .b, false, 0xFFFFFFFF#32, false, .all⟩,
  ⟨"SIG_LD_CTRL", 0xC0, 1, 0x4, 1, 4, .wo, true, 0x0#32, .b, true, 0xFFFFFFFF#32, false, .all⟩,
  ⟨"SIG_LD_SRC", 0xC8, 2, 0x4, 1, 4, .rw, true, 0x0#32, .b, true, 0xFFFFFFFF#32, true, .all⟩,
  ⟨"SIG_LD_DST", 0xD0, 1, 0x4, 1, 4, .rw, true, 0x0#32, .b, true, 0xFFFFFFFF#32, false, .all⟩,
  ⟨"SIG_LD_LEN", 0xD4, 1, 0x4, 1, 4, .rw, true, 0x0#32, .b, true, 0xFFFFFFFF#32, false, .all⟩,
  ⟨"SIG_LD_STAT", 0xD8, 1, 0x4, 1, 4, .ro, false, 0x0#32, .b, false, 0xFFFFFFFF#32, false, .all⟩,
  ⟨"SIG_WDENY_CNT", 0xE0, 1, 0x4, 1, 4, .rc, false, 0x0#32, .c, false, 0xFFFFFFFF#32, false, .all⟩,
  ⟨"SIG_WDENY_ADDR", 0xE4, 1, 0x4, 1, 4, .ro, false, 0x0#32, .c, false, 0xFFFFFFFF#32, false, .all⟩,
  ⟨"SIG_WDENY_INFO", 0xE8, 1, 0x4, 1, 4, .ro, false, 0x0#32, .c, false, 0xFFFFFFFF#32, false, .all⟩,
  ⟨"SIG_DBG_SEL", 0xF0, 1, 0x4, 1, 4, .rw, true, 0x0#32, .b, false, 0xF000FFFF#32, false, .all⟩]

/-- Register rows: TIM (R320). -/
def rowsTIM : List Row := [
  ⟨"TIM_CTRL", 0x80, 1, 0x4, 1, 4, .rw, true, 0x0#32, .c, true, 0x3#32, false, .all⟩,
  ⟨"TIM_STATUS", 0x84, 1, 0x4, 1, 4, .ro, false, 0x0#32, .b, false, 0xFFFFFFFF#32, false, .all⟩,
  ⟨"TIM_EVT_STATUS", 0x88, 1, 0x4, 1, 4, .w1c, false, 0x0#32, .b, false, 0xFF#32, false, .all⟩,
  ⟨"TIM_EVT_EN", 0x8C, 1, 0x4, 1, 4, .rw, false, 0x0#32, .c, true, 0xFF#32, false, .all⟩,
  ⟨"TIM_PPS_CFG", 0x90, 1, 0x4, 1, 4, .rw, true, 0x0#32, .c, true, 0xFFFF0007#32, false, .all⟩,
  ⟨"TIM_PPS_STATUS", 0x94, 1, 0x4, 1, 4, .ro, false, 0x0#32, .b, false, 0xFFFFFFFF#32, false, .all⟩,
  ⟨"TIM_PPSOUT_CFG", 0x98, 1, 0x4, 1, 4, .rw, true, 0x640000#32, .c, true, 0x1FF000F#32, false, .all⟩,
  ⟨"TIM_UART_CFG", 0x9C, 1, 0x4, 1, 4, .rw, true, 0x1#32, .c, true, 0xF#32, false, .all⟩,
  ⟨"TIM_UTC_OFS", 0xA0, 1, 0x4, 1, 4, .rw, true, 0x25#32, .c, true, 0xFF#32, false, .all⟩,
  ⟨"TIM_TB3_CFG", 0xA4, 1, 0x4, 1, 4, .rw, true, 0x0#32, .c, true, 0x1#32, false, .all⟩,
  ⟨"TIM_TB3_RATE", 0xA8, 1, 0x4, 1, 4, .rw, true, 0x0#32, .c, true, 0xFFFFFFFF#32, false, .all⟩,
  ⟨"TIM_TB3_STATUS", 0xAC, 1, 0x4, 1, 4, .w1c, false, 0x1#32, .s, false, 0x1#32, false, .all⟩,
  ⟨"TIM_CLKID", 0xB0, 2, 0x4, 1, 4, .rw, true, 0x0#32, .c, true, 0xFFFFFFFF#32, true, .all⟩,
  ⟨"TIM_PD_MAC_LO", 0xB8, 1, 0x4, 1, 4, .rw, true, 0x0#32, .c, true, 0xFFFFFFFF#32, false, .all⟩,
  ⟨"TIM_PD_MAC_HI", 0xBC, 1, 0x4, 1, 4, .rw, true, 0x0#32, .c, true, 0xFFFF#32, false, .all⟩,
  ⟨"TIM_TB_CFG", 0x100, 3, 0x40, 1, 4, .rw, true, 0x1000007#32, .c, true, 0x1FF07F7#32, false, .all⟩,
  ⟨"TIM_TB_STATUS", 0x104, 3, 0x40, 1, 4, .ro, false, 0x0#32, .b, false, 0xFFFFFFFF#32, false, .all⟩,
  ⟨"TIM_TB_KP", 0x108, 3, 0x40, 1, 4, .rw, true, 0x40000#32, .c, true, 0xFFFFFFFF#32, false, .all⟩,
  ⟨"TIM_TB_KI", 0x10C, 3, 0x40, 1, 4, .rw, true, 0x8000#32, .c, true, 0xFFFFFFFF#32, false, .all⟩,
  ⟨"TIM_TB_RLIM", 0x110, 3, 0x40, 1, 4, .rw, true, 0xC8#32, .c, true, 0x3FF#32, false, .all⟩,
  ⟨"TIM_TB_STEP", 0x114, 3, 0x40, 1, 4, .rw, true, 0x2710#32, .c, true, 0xFFFFFF#32, false, .all⟩,
  ⟨"TIM_TB_LOCK", 0x118, 3, 0x40, 1, 4, .rw, true, 0x80064#32, .c, true, 0xFFFFFF#32, false, .all⟩,
  ⟨"TIM_TB_HOLD", 0x11C, 3, 0x40, 1, 4, .rw, true, 0x5DC07D0#32, .c, true, 0xFFFFFFFF#32, false, .all⟩,
  ⟨"TIM_TB_ASYM_LIM", 0x120, 3, 0x40, 1, 4, .rw, true, 0x1F4#32, .c, true, 0xFFFF#32, false, .all⟩,
  ⟨"TIM_TB_RATE", 0x124, 3, 0x40, 1, 4, .rw, true, 0x0#32, .c, true, 0xFFFFFFFF#32, false, .all⟩,
  ⟨"TIM_TB_OFS_IN", 0x128, 3, 0x40, 1, 4, .wo, true, 0x0#32, .b, false, 0xFFFFFFFF#32, false, .all⟩,
  ⟨"TIM_TB_ADJ_NS", 0x138, 3, 0x40, 1, 4, .rw, true, 0x0#32, .b, true, 0xFFFFFFFF#32, false, .all⟩,
  ⟨"TIM_TB_CMD", 0x13C, 3, 0x40, 1, 4, .wo, true, 0x0#32, .b, true, 0xFFFFFFFF#32, false, .all⟩,
  ⟨"TIM_TB_ADJ_S", 0x130, 3, 0x40, 2, 4, .rw, true, 0x0#32, .b, true, 0xFFFFFFFF#32, true, .all⟩,
  ⟨"TIM_PORT_CFG", 0x1000, 104, 0x20, 1, 4, .rw, true, 0x30005#32, .c, true, 0x7FF0F#32, false, .linePort⟩,
  ⟨"TIM_PORT_LAT", 0x1004, 104, 0x20, 1, 4, .rw, true, 0x0#32, .c, true, 0xFFFFFFFF#32, false, .linePort⟩,
  ⟨"TIM_PORT_ASYM", 0x1008, 104, 0x20, 1, 4, .rw, true, 0x0#32, .c, true, 0xFFFFFFFF#32, false, .linePort⟩,
  ⟨"TIM_PORT_STEP_THR", 0x100C, 104, 0x20, 1, 4, .rw, true, 0x32#32, .c, true, 0xFFFF#32, false, .linePort⟩,
  ⟨"TIM_PORT_STATUS", 0x1010, 104, 0x20, 1, 4, .ro, false, 0x0#32, .b, false, 0xFFFFFFFF#32, false, .linePort⟩]

/-- Register rows: PLE (R356). -/
def rowsPLE : List Row := [
  ⟨"PLE_CTRL", 0x80, 1, 0x4, 1, 4, .rw, true, 0x0#32, .c, true, 0x3#32, false, .all⟩,
  ⟨"PLE_STATUS", 0x84, 1, 0x4, 1, 4, .ro, false, 0x0#32, .b, false, 0xFFFFFFFF#32, false, .all⟩,
  ⟨"PLE_EVT_STATUS", 0x88, 1, 0x4, 1, 4, .w1c, false, 0x0#32, .b, false, 0xFF#32, false, .all⟩,
  ⟨"PLE_EVT_EN", 0x8C, 1, 0x4, 1, 4, .rw, false, 0x0#32, .c, true, 0xFF#32, false, .all⟩,
  ⟨"PLE_CFG", 0x90, 1, 0x4, 1, 4, .rw, true, 0x2#32, .c, true, 0x3#32, false, .all⟩,
  ⟨"PLE_HORIZON", 0x94, 1, 0x4, 1, 4, .rw, true, 0x7D0#32, .c, true, 0xFFFF#32, false, .all⟩,
  ⟨"PLE_MIN_LEAD", 0x98, 1, 0x4, 1, 4, .rw, true, 0xC8#32, .c, true, 0xFFFF#32, false, .all⟩,
  ⟨"PLE_MAX_AHEAD", 0x9C, 1, 0x4, 1, 4, .rw, true, 0x2710#32, .c, true, 0xFFFF#32, false, .all⟩,
  ⟨"PLE_MOT_CFG", 0xA0, 1, 0x4, 1, 4, .rw, true, 0x1F40A28#32, .c, true, 0xFFFFFFFF#32, false, .all⟩,
  ⟨"PLE_ANT_F", 0xA4, 1, 0x4, 1, 4, .rw, true, 0x0#32, .c, true, 0xFFFFFFFF#32, false, .all⟩,
  ⟨"PLE_ANT_L", 0xA8, 1, 0x4, 1, 4, .rw, true, 0x0#32, .c, true, 0xFFFFFFFF#32, false, .all⟩,
  ⟨"PLE_OUT_CELL", 0xAC, 1, 0x4, 1, 4, .rw, true, 0x0#32, .c, true, 0xFFFF#32, false, .all⟩,
  ⟨"PLE_PENDING", 0xB0, 1, 0x4, 1, 4, .ro, false, 0x0#32, .b, false, 0xFFFFFFFF#32, false, .all⟩,
  ⟨"PLE_DRAIN", 0xB4, 1, 0x4, 1, 4, .ro, false, 0x0#32, .b, false, 0xFFFFFFFF#32, false, .all⟩,
  ⟨"PLE_IN", 0xC0, 7, 0x4, 1, 4, .rw, true, 0x0#32, .c, true, 0x8FFFFFFF#32, false, .all⟩,
  ⟨"PLE_BODY_CFG", 0x100, 4, 0x20, 1, 4, .rw, true, 0x0#32, .c, true, 0xFFFFFF37#32, false, .all⟩,
  ⟨"PLE_BODY_HF", 0x104, 4, 0x20, 1, 4, .rw, true, 0x0#32, .c, true, 0xFFFFFFFF#32, false, .all⟩,
  ⟨"PLE_BODY_HL", 0x108, 4, 0x20, 1, 4, .rw, true, 0x0#32, .c, true, 0xFFFFFFFF#32, false, .all⟩,
  ⟨"PLE_BODY_ANGLE", 0x10C, 4, 0x20, 1, 4, .rw, true, 0x0#32, .c, true, 0xFFFFFFFF#32, false, .all⟩,
  ⟨"PLE_BODY_DRAW", 0x110, 4, 0x20, 1, 4, .rw, true, 0x0#32, .c, true, 0xFFFFFFFF#32, false, .all⟩,
  ⟨"PLE_BODY_STATE", 0x114, 4, 0x20, 1, 4, .ro, false, 0x0#32, .b, false, 0xFFFFFFFF#32, false, .all⟩,
  ⟨"PLE_MW_MASK", 0x200, 1, 0x4, 1, 4, .rw, true, 0x0#32, .b, false, 0xFF#32, false, .all⟩,
  ⟨"PLE_MW", 0x204, 9, 0x4, 1, 4, .rw, true, 0x0#32, .b, false, 0xFFFFFFFF#32, false, .all⟩,
  ⟨"PLE_MW_TIME", 0x228, 2, 0x4, 1, 4, .rw, true, 0x0#32, .b, false, 0xFFFFFFFF#32, true, .all⟩,
  ⟨"PLE_MW_GO", 0x230, 1, 0x4, 1, 4, .wo, true, 0x0#32, .b, false, 0xFFFFFFFF#32, false, .all⟩,
  ⟨"PLE_LD_CTRL", 0x240, 1, 0x4, 1, 4, .wo, true, 0x0#32, .b, true, 0xFFFFFFFF#32, false, .all⟩,
  ⟨"PLE_LD_SRC", 0x248, 2, 0x4, 1, 4, .rw, true, 0x0#32, .b, true, 0xFFFFFFFF#32, true, .all⟩,
  ⟨"PLE_LD_DST", 0x250, 1, 0x4, 1, 4, .rw, true, 0x0#32, .b, true, 0xFFFFFFFF#32, false, .all⟩,
  ⟨"PLE_LD_LEN", 0x254, 1, 0x4, 1, 4, .rw, true, 0x0#32, .b, true, 0xFFFFFFFF#32, false, .all⟩,
  ⟨"PLE_LD_STAT", 0x258, 1, 0x4, 1, 4, .ro, false, 0x0#32, .b, false, 0xFFFFFFFF#32, false, .all⟩,
  ⟨"PLE_DBG_SEL", 0x260, 1, 0x4, 1, 4, .rw, true, 0x0#32, .b, false, 0x9000FFFF#32, false, .all⟩]

/-- Register rows: HBR (R417). -/
def rowsHBR : List Row := [
  ⟨"HBR_CTRL", 0x80, 1, 0x4, 1, 4, .rw, true, 0x1#32, .c, true, 0x1#32, false, .all⟩,
  ⟨"HBR_LINK", 0x84, 1, 0x4, 1, 4, .ro, false, 0x0#32, .b, false, 0xFFFFFFFF#32, false, .all⟩,
  ⟨"HBR_EVT_STATUS", 0x88, 1, 0x4, 1, 4, .w1c, false, 0x0#32, .b, false, 0xF#32, false, .all⟩,
  ⟨"HBR_EVT_EN", 0x8C, 1, 0x4, 1, 4, .rw, false, 0x0#32, .c, true, 0xF#32, false, .all⟩,
  ⟨"HBR_ID", 0x90, 1, 0x4, 1, 4, .ro, false, 0x0#32, .p, false, 0xFFFFFFFF#32, false, .all⟩,
  ⟨"HBR_BAR4_BASE", 0xA0, 1, 0x4, 1, 4, .rw, true, 0x0#32, .c, true, 0xFFF#32, false, .all⟩,
  ⟨"HBR_BAR4_LIM", 0xA4, 1, 0x4, 1, 4, .wlc, true, 0x0#32, .c, true, 0x8FFF0FFF#32, false, .all⟩,
  ⟨"HBR_ERR_STATUS", 0xB0, 1, 0x4, 1, 4, .ro, false, 0x0#32, .c, false, 0xFFFFFFFF#32, false, .all⟩,
  ⟨"HBR_ERR_ADDR_LO", 0xB4, 1, 0x4, 1, 4, .ro, false, 0x0#32, .c, false, 0xFFFFFFFF#32, false, .all⟩,
  ⟨"HBR_ERR_ADDR_HI", 0xB8, 1, 0x4, 1, 4, .ro, false, 0x0#32, .c, false, 0xFFFFFFFF#32, false, .all⟩,
  ⟨"HBR_ERR_INFO", 0xBC, 1, 0x4, 1, 4, .ro, false, 0x0#32, .c, false, 0xFFFFFFFF#32, false, .all⟩,
  ⟨"HBR_ERR_ACK", 0xC0, 1, 0x4, 1, 4, .wo, true, 0x0#32, .b, false, 0xFFFFFFFF#32, false, .all⟩,
  ⟨"HBR_ERR_MERGED", 0xC4, 1, 0x4, 1, 4, .rc, false, 0x0#32, .c, false, 0xFFFFFFFF#32, false, .all⟩,
  ⟨"HBR_PF_CFG", 0xD0, 1, 0x4, 1, 4, .rw, true, 0x2000002#32, .c, true, 0x3FF00FF#32, false, .all⟩,
  ⟨"HBR_OWIN_CTRL", 0x100, 16, 0x10, 1, 4, .rw, true, 0x0#32, .c, true, 0x3#32, false, .all⟩,
  ⟨"HBR_OWIN_BASE", 0x104, 16, 0x10, 1, 4, .rw, true, 0x0#32, .c, true, 0x7FFFFFFF#32, false, .all⟩,
  ⟨"HBR_OWIN_LIMIT", 0x108, 16, 0x10, 1, 4, .rw, true, 0x0#32, .c, true, 0x7FFFFFFF#32, false, .all⟩,
  ⟨"HBR_VF_DBMAP", 0x280, 7, 0x80, 32, 4, .rw, true, 0x0#32, .c, true, 0x800003FF#32, false, .all⟩]

/-- Register rows: GRD (R456). -/
def rowsGRD : List Row := [
  ⟨"GRD_STATUS", 0x80, 1, 0x4, 1, 4, .ro, false, 0x0#32, .c, false, 0xFFFFFFFF#32, false, .all⟩,
  ⟨"GRD_EVT_STATUS", 0x88, 1, 0x4, 1, 4, .w1c, false, 0x0#32, .b, false, 0x1F#32, false, .all⟩,
  ⟨"GRD_EVT_EN", 0x8C, 1, 0x4, 1, 4, .rw, false, 0x0#32, .c, true, 0x1F#32, false, .all⟩,
  ⟨"GRD_MAN_VER", 0x90, 1, 0x4, 1, 4, .wlc, true, 0x0#32, .c, true, 0xFFFFFFFF#32, false, .all⟩,
  ⟨"GRD_MAN_DIG", 0x94, 1, 0x4, 1, 4, .wlc, true, 0x0#32, .c, true, 0xFFFFFFFF#32, false, .all⟩,
  ⟨"GRD_MAN_FAILS", 0x98, 1, 0x4, 1, 4, .ro, false, 0x0#32, .p, false, 0xFFFFFFFF#32, false, .all⟩,
  ⟨"GRD_LD_CTRL", 0xA0, 1, 0x4, 1, 4, .wo, true, 0x0#32, .b, true, 0xFFFFFFFF#32, false, .all⟩,
  ⟨"GRD_LD_SRC", 0xA8, 2, 0x4, 1, 4, .wlc, true, 0x0#32, .b, true, 0xFFFFFFFF#32, true, .all⟩,
  ⟨"GRD_LD_DST", 0xB0, 1, 0x4, 1, 4, .wlc, true, 0x0#32, .b, true, 0xFFFFFFFF#32, false, .all⟩,
  ⟨"GRD_LD_LEN", 0xB4, 1, 0x4, 1, 4, .wlc, true, 0x0#32, .b, true, 0xFFFFFFFF#32, false, .all⟩,
  ⟨"GRD_LD_STAT", 0xB8, 1, 0x4, 1, 4, .ro, false, 0x0#32, .b, false, 0xFFFFFFFF#32, false, .all⟩,
  ⟨"GRD_APPLY", 0xC0, 1, 0x4, 1, 4, .wo, true, 0x0#32, .b, true, 0xFFFFFFFF#32, false, .all⟩,
  ⟨"GRD_APPLY_ERR", 0xC4, 1, 0x4, 1, 4, .ro, false, 0x0#32, .c, false, 0xFFFFFFFF#32, false, .all⟩,
  ⟨"GRD_DBG_SEL", 0xC8, 1, 0x4, 1, 4, .rw, true, 0x0#32, .b, false, 0x7000FFFF#32, false, .all⟩,
  ⟨"GRD_PCFG", 0x1000, 104, 0x20, 1, 4, .wlc, true, 0x0#32, .c, true, 0xFF03FF07#32, false, .linePort⟩,
  ⟨"GRD_FRATE", 0x1004, 104, 0x20, 1, 4, .wlc, true, 0x0#32, .c, true, 0xFFFFFFFF#32, false, .linePort⟩,
  ⟨"GRD_BRATE", 0x1008, 104, 0x20, 1, 4, .wlc, true, 0x0#32, .c, true, 0x3FFFFF#32, false, .linePort⟩,
  ⟨"GRD_BBURST", 0x100C, 104, 0x20, 1, 4, .wlc, true, 0x0#32, .c, true, 0xFFFFFF#32, false, .linePort⟩,
  ⟨"GRD_ACT", 0x1010, 104, 0x20, 1, 4, .wlc, true, 0x0#32, .c, true, 0xFFFF#32, false, .linePort⟩,
  ⟨"GRD_SA", 0x1014, 104, 0x20, 1, 4, .wlc, true, 0xFFFFFFFF#32, .c, true, 0xFFFFFFFF#32, false, .linePort⟩,
  ⟨"GRD_PSTAT", 0x1018, 104, 0x20, 1, 4, .ro, false, 0x0#32, .b, false, 0xFFFFFFFF#32, false, .linePort⟩]

/-- Register rows: ALV (R460). -/
def rowsALV : List Row := [
  ⟨"ALV_CFG", 0x80, 1, 0x4, 1, 4, .wlc, true, 0xA0640A#32, .c, true, 0x1FFFFFFF#32, false, .all⟩,
  ⟨"ALV_CTRL", 0x84, 1, 0x4, 1, 4, .rw, true, 0x1#32, .c, true, 0x1#32, false, .all⟩,
  ⟨"ALV_KICK", 0x88, 1, 0x4, 1, 4, .wo, true, 0x0#32, .b, false, 0xFFFFFFFF#32, false, .all⟩,
  ⟨"ALV_RESTART", 0x8C, 1, 0x4, 1, 4, .wo, true, 0x0#32, .b, true, 0xFFFFFFFF#32, false, .all⟩,
  ⟨"ALV_CMD", 0x90, 1, 0x4, 1, 4, .wo, true, 0x0#32, .b, true, 0xFFFFFFFF#32, false, .all⟩,
  ⟨"ALV_STATUS", 0x94, 1, 0x4, 1, 4, .ro, false, 0x0#32, .c, false, 0xFFFFFFFF#32, false, .all⟩,
  ⟨"ALV_SINCE_KICK", 0x98, 1, 0x4, 1, 4, .ro, false, 0x0#32, .b, false, 0xFFFFFFFF#32, false, .all⟩,
  ⟨"ALV_EVT_STATUS", 0x9C, 1, 0x4, 1, 4, .w1c, false, 0x0#32, .b, false, 0x7#32, false, .all⟩,
  ⟨"ALV_EVT_EN", 0xA0, 1, 0x4, 1, 4, .rw, false, 0x0#32, .c, true, 0x7#32, false, .all⟩,
  ⟨"ALV_STOP_CNT", 0xA4, 1, 0x4, 1, 4, .ro, false, 0x0#32, .c, false, 0xFFFFFFFF#32, false, .all⟩]

/-- Register rows: CIP (R504). -/
def rowsCIP : List Row := [
  ⟨"CIP_CTRL", 0x80, 1, 0x4, 1, 4, .rw, true, 0x7#32, .c, true, 0x7#32, false, .all⟩,
  ⟨"CIP_STATUS", 0x84, 1, 0x4, 1, 4, .ro, false, 0x0#32, .b, false, 0xFFFFFFFF#32, false, .all⟩,
  ⟨"CIP_EVT_STATUS", 0x88, 1, 0x4, 1, 4, .w1c, false, 0x0#32, .b, false, 0x1F#32, false, .all⟩,
  ⟨"CIP_EVT_EN", 0x8C, 1, 0x4, 1, 4, .rw, false, 0x0#32, .c, true, 0x1F#32, false, .all⟩,
  ⟨"CIP_ALARM_ACK", 0x90, 1, 0x4, 1, 4, .wo, true, 0x0#32, .b, true, 0xFFFFFFFF#32, false, .all⟩,
  ⟨"CIP_SLOT_SEL", 0xA0, 1, 0x4, 1, 4, .rw, true, 0x0#32, .b, false, 0x1FF#32, false, .all⟩,
  ⟨"CIP_SLOT_ATTR", 0xA4, 1, 0x4, 1, 4, .rw, true, 0x0#32, .b, false, 0x3FFFFF#32, false, .all⟩,
  ⟨"CIP_SLOT_AUX", 0xA8, 1, 0x4, 1, 4, .rw, true, 0x0#32, .b, false, 0xFFF#32, false, .all⟩,
  ⟨"CIP_SLOT_KEY", 0xC0, 8, 0x4, 1, 4, .wo, true, 0x0#32, .b, false, 0xFFFFFFFF#32, false, .all⟩,
  ⟨"CIP_SLOT_CMD", 0xE0, 1, 0x4, 1, 4, .wo, true, 0x0#32, .b, false, 0xFFFFFFFF#32, false, .all⟩,
  ⟨"CIP_SLOT_STAT", 0xE4, 1, 0x4, 1, 4, .ro, false, 0x0#32, .b, false, 0xFFFFFFFF#32, false, .all⟩,
  ⟨"CIP_JOB", 0x100, 8, 0x4, 1, 4, .rw, true, 0x0#32, .b, false, 0xFFFFFFFF#32, false, .all⟩,
  ⟨"CIP_JOB_GO", 0x120, 1, 0x4, 1, 4, .wo, true, 0x0#32, .b, false, 0xFFFFFFFF#32, false, .all⟩,
  ⟨"CIP_JOB_STAT", 0x124, 1, 0x4, 1, 4, .ro, false, 0x0#32, .b, false, 0xFFFFFFFF#32, false, .all⟩,
  ⟨"CIP_FV_CFG", 0x130, 1, 0x4, 1, 4, .rw, true, 0x100000#32, .c, true, 0xFFFFFF#32, false, .all⟩,
  ⟨"CIP_FV_SEL", 0x134, 1, 0x4, 1, 4, .rw, true, 0x0#32, .b, false, 0xFFF#32, false, .all⟩,
  ⟨"CIP_FV_SET_LO", 0x138, 1, 0x4, 1, 4, .rw, true, 0x0#32, .b, false, 0xFFFFFFFF#32, false, .all⟩,
  ⟨"CIP_FV_SET_HI", 0x13C, 1, 0x4, 1, 4, .rw, true, 0x0#32, .b, false, 0xFFFFFFFF#32, false, .all⟩,
  ⟨"CIP_FV_CMD", 0x140, 1, 0x4, 1, 4, .wo, true, 0x0#32, .b, false, 0xFFFFFFFF#32, false, .all⟩,
  ⟨"CIP_SA_SEL", 0x150, 1, 0x4, 1, 4, .rw, true, 0x0#32, .b, false, 0x7F7F#32, false, .all⟩,
  ⟨"CIP_SA_W", 0x160, 8, 0x4, 1, 4, .rw, true, 0x0#32, .b, false, 0xFFFFFFFF#32, false, .all⟩,
  ⟨"CIP_SA_CMD", 0x180, 1, 0x4, 1, 4, .wo, true, 0x0#32, .b, false, 0xFFFFFFFF#32, false, .all⟩,
  ⟨"CIP_SA_STAT", 0x184, 1, 0x4, 1, 4, .ro, false, 0x0#32, .b, false, 0xFFFFFFFF#32, false, .all⟩,
  ⟨"CIP_SECY_CFG", 0x1000, 29, 0x20, 1, 4, .rw, true, 0x24#32, .c, true, 0x303FD#32, false, .all⟩,
  ⟨"CIP_SECY_WINDOW", 0x1004, 29, 0x20, 1, 4, .rw, true, 0x0#32, .c, true, 0xFFFFFFFF#32, false, .all⟩,
  ⟨"CIP_SECY_SCI_LO", 0x1008, 29, 0x20, 1, 4, .rw, true, 0x0#32, .c, true, 0xFFFFFFFF#32, false, .all⟩,
  ⟨"CIP_SECY_SCI_HI", 0x100C, 29, 0x20, 1, 4, .rw, true, 0x0#32, .c, true, 0xFFFFFFFF#32, false, .all⟩,
  ⟨"CIP_SECY_PN_THR", 0x1010, 29, 0x20, 2, 4, .rw, true, 0xC0000000#32, .c, true, 0xFFFFFFFF#32, true, .all⟩]

/-- Register rows: KEY (R507). -/
def rowsKEY : List Row := [
  ⟨"KEY_STATUS", 0x80, 1, 0x4, 1, 4, .ro, false, 0x0#32, .c, false, 0xFFFFFFFF#32, false, .all⟩,
  ⟨"KEY_EVT_STATUS", 0x84, 1, 0x4, 1, 4, .w1c, false, 0x0#32, .b, false, 0x7#32, false, .all⟩,
  ⟨"KEY_EVT_EN", 0x88, 1, 0x4, 1, 4, .rw, false, 0x0#32, .c, true, 0x7#32, false, .all⟩,
  ⟨"KEY_RNG", 0x90, 1, 0x4, 1, 4, .ro, false, 0x0#32, .b, false, 0xFFFFFFFF#32, false, .all⟩,
  ⟨"KEY_LC_NONCE_LO", 0xA0, 1, 0x4, 1, 4, .ro, false, 0x0#32, .b, false, 0xFFFFFFFF#32, false, .all⟩,
  ⟨"KEY_LC_NONCE_HI", 0xA4, 1, 0x4, 1, 4, .ro, false, 0x0#32, .b, false, 0xFFFFFFFF#32, false, .all⟩,
  ⟨"KEY_LC_REQ", 0xA8, 1, 0x4, 1, 4, .wo, true, 0x0#32, .b, false, 0xFFFFFFFF#32, false, .all⟩,
  ⟨"KEY_LC_AUTH", 0xB0, 2, 0x4, 1, 4, .rw, true, 0x0#32, .b, true, 0xFFFFFFFF#32, true, .all⟩,
  ⟨"KEY_LC_STAT", 0xB8, 1, 0x4, 1, 4, .ro, false, 0x0#32, .b, false, 0xFFFFFFFF#32, false, .all⟩,
  ⟨"KEY_OEM_HASH", 0xC0, 12, 0x4, 1, 4, .wl, true, 0x0#32, .p, true, 0xFFFFFFFF#32, false, .all⟩,
  ⟨"KEY_VLT_CMD", 0x100, 1, 0x4, 1, 4, .wo, true, 0x0#32, .b, false, 0xFFFFFFFF#32, false, .all⟩,
  ⟨"KEY_VLT_STAT", 0x104, 1, 0x4, 1, 4, .ro, false, 0x0#32, .b, false, 0xFFFFFFFF#32, false, .all⟩,
  ⟨"KEY_ATT_CTRL", 0x110, 1, 0x4, 1, 4, .wo, true, 0x0#32, .b, false, 0xFFFFFFFF#32, false, .all⟩,
  ⟨"KEY_ATT_DST", 0x118, 2, 0x4, 1, 4, .rw, true, 0x0#32, .b, false, 0xFFFFFFFF#32, true, .all⟩,
  ⟨"KEY_ATT_STAT", 0x120, 1, 0x4, 1, 4, .ro, false, 0x0#32, .b, false, 0xFFFFFFFF#32, false, .all⟩,
  ⟨"KEY_ATT_NONCE", 0x140, 16, 0x4, 1, 4, .rw, true, 0x0#32, .b, false, 0xFFFFFFFF#32, false, .all⟩,
  ⟨"KEY_ALARM_CNT", 0x180, 1, 0x4, 1, 4, .ro, false, 0x0#32, .p, false, 0xFFFFFFFF#32, false, .all⟩]

/-- Register rows: LDG (R528). -/
def rowsLDG : List Row := [
  ⟨"LDG_CTRL", 0x80, 1, 0x4, 1, 4, .rw, true, 0xFA0001#32, .c, true, 0xFFFF0001#32, false, .all⟩,
  ⟨"LDG_STATUS", 0x84, 1, 0x4, 1, 4, .ro, false, 0x0#32, .b, false, 0xFFFFFFFF#32, false, .all⟩,
  ⟨"LDG_EVT_STATUS", 0x88, 1, 0x4, 1, 4, .w1c, false, 0x0#32, .b, false, 0xF#32, false, .all⟩,
  ⟨"LDG_EVT_EN", 0x8C, 1, 0x4, 1, 4, .rw, false, 0x0#32, .c, true, 0xF#32, false, .all⟩,
  ⟨"LDG_CMD", 0x90, 1, 0x4, 1, 4, .wo, true, 0x0#32, .b, true, 0xFFFFFFFF#32, false, .all⟩,
  ⟨"LDG_USE", 0x94, 1, 0x4, 1, 4, .ro, false, 0x0#32, .w, false, 0xFFFFFFFF#32, false, .all⟩,
  ⟨"LDG_RECORDS", 0x98, 1, 0x4, 1, 4, .ro, false, 0x0#32, .w, false, 0xFFFFFFFF#32, false, .all⟩,
  ⟨"LDG_HEAD", 0x9C, 1, 0x4, 1, 4, .ro, false, 0x0#32, .w, false, 0xFFFFFFFF#32, false, .all⟩,
  ⟨"LDG_TAIL", 0xA0, 1, 0x4, 1, 4, .ro, false, 0x0#32, .w, false, 0xFFFFFFFF#32, false, .all⟩,
  ⟨"LDG_HIGH_THR", 0xA4, 1, 0x4, 1, 4, .rw, true, 0x0#32, .c, true, 0xFFFFF#32, false, .all⟩,
  ⟨"LDG_FLUSH_BASE", 0xA8, 1, 0x4, 1, 4, .ro, false, 0x40000000#32, .p, false, 0xFFFFFFFF#32, false, .all⟩,
  ⟨"LDG_REC_SEL", 0xB0, 1, 0x4, 1, 4, .rw, true, 0x0#32, .b, false, 0x7FFF#32, false, .all⟩,
  ⟨"LDG_WCLASS", 0xC0, 16, 0x4, 1, 4, .rw, true, 0x10032#32, .c, true, 0x1FFFF#32, false, .all⟩,
  ⟨"LDG_WMAP", 0x4000, 8192, 0x4, 1, 4, .rw, true, 0x0#32, .c, true, 0xFFFFFFFF#32, false, .all⟩]

/-- Register rows: PWR (R555). -/
def rowsPWR : List Row := [
  ⟨"PWR_STATUS", 0x80, 1, 0x4, 1, 4, .ro, false, 0x1#32, .s, false, 0xFFFFFFFF#32, false, .all⟩,
  ⟨"PWR_EVT_STATUS", 0x84, 1, 0x4, 1, 4, .w1c, false, 0x0#32, .s, false, 0x3F#32, false, .all⟩,
  ⟨"PWR_EVT_EN", 0x88, 1, 0x4, 1, 4, .rw, false, 0x0#32, .s, true, 0x3F#32, false, .all⟩,
  ⟨"PWR_STATE_REQ", 0x8C, 1, 0x4, 1, 4, .wo, true, 0x0#32, .b, true, 0xFFFFFFFF#32, false, .all⟩,
  ⟨"PWR_PD_STATUS", 0x90, 1, 0x4, 1, 4, .ro, false, 0xFFFF#32, .s, false, 0xFFFFFFFF#32, false, .all⟩,
  ⟨"PWR_PD_REQ", 0x94, 1, 0x4, 1, 4, .rw, true, 0x0#32, .c, true, 0xFFFF#32, false, .all⟩,
  ⟨"PWR_BLK_RST", 0x98, 1, 0x4, 1, 4, .wo, true, 0x0#32, .b, true, 0xFFFFFFFF#32, false, .all⟩,
  ⟨"PWR_CORE_RST", 0x9C, 1, 0x4, 1, 4, .wo, true, 0x0#32, .b, true, 0xFFFFFFFF#32, false, .all⟩,
  ⟨"PWR_CHIP_RST", 0xA0, 1, 0x4, 1, 4, .wo, true, 0x0#32, .b, true, 0xFFFFFFFF#32, false, .all⟩,
  ⟨"PWR_RST_CAUSE", 0xA4, 1, 0x4, 1, 4, .ro, false, 0x61#32, .s, false, 0xFFFFFFFF#32, false, .all⟩,
  ⟨"PWR_CFG", 0xA8, 1, 0x4, 1, 4, .rw, true, 0x1E00014#32, .s, true, 0xFFFFFFFF#32, false, .all⟩,
  ⟨"PWR_WAKE_EN", 0xAC, 1, 0x4, 1, 4, .rw, true, 0x21#32, .s, true, 0x3FF001F#32, false, .all⟩,
  ⟨"PWR_WAKE_SRC", 0xB0, 1, 0x4, 1, 4, .w1c, false, 0x0#32, .s, false, 0x1FFFF#32, false, .all⟩,
  ⟨"PWR_TC10_EN", 0xB4, 1, 0x4, 1, 4, .rw, true, 0x0#32, .s, true, 0xFFFFF#32, false, .all⟩,
  ⟨"PWR_WAKE_TIMER", 0xB8, 1, 0x4, 1, 4, .rw, true, 0x0#32, .s, true, 0xFFFFFFFF#32, false, .all⟩,
  ⟨"PWR_BATT_THR", 0xBC, 1, 0x4, 1, 4, .rw, true, 0x23281D4C#32, .s, true, 0xFFFFFFFF#32, false, .all⟩,
  ⟨"PWR_WAKE_ID", 0xC0, 1, 0x4, 1, 4, .rw, true, 0x0#32, .s, true, 0x3FFFFFFF#32, false, .all⟩,
  ⟨"PWR_WFWD_ETH", 0x100, 16, 0x8, 1, 4, .rw, true, 0x0#32, .s, true, 0xFFFFF#32, false, .all⟩,
  ⟨"PWR_WFWD_BUS", 0x104, 16, 0x8, 1, 4, .rw, true, 0x0#32, .s, true, 0xFFFFFFFF#32, false, .all⟩]

/-- Register rows: UPD (R612). -/
def rowsUPD : List Row := [
  ⟨"UPD_STATUS", 0x80, 1, 0x4, 1, 4, .ro, false, 0x0#32, .b, false, 0xFFFFFFFF#32, false, .all⟩,
  ⟨"UPD_EVT_STATUS", 0x84, 1, 0x4, 1, 4, .w1c, false, 0x0#32, .b, false, 0xF#32, false, .all⟩,
  ⟨"UPD_EVT_EN", 0x88, 1, 0x4, 1, 4, .rw, false, 0x0#32, .c, true, 0xF#32, false, .all⟩,
  ⟨"UPD_SRC", 0x90, 2, 0x4, 1, 4, .rw, true, 0x0#32, .b, false, 0xFFFFFFFF#32, true, .all⟩,
  ⟨"UPD_CMD", 0x98, 1, 0x4, 1, 4, .wo, true, 0x0#32, .b, false, 0xFFFFFFFF#32, false, .all⟩,
  ⟨"UPD_CMD_STAT", 0x9C, 1, 0x4, 1, 4, .ro, false, 0x0#32, .b, false, 0xFFFFFFFF#32, false, .all⟩,
  ⟨"UPD_SEL", 0xA0, 1, 0x4, 1, 4, .ro, false, 0x0#32, .p, false, 0xFFFFFFFF#32, false, .all⟩,
  ⟨"UPD_SEL_SEQ", 0xA4, 1, 0x4, 1, 4, .ro, false, 0x0#32, .p, false, 0xFFFFFFFF#32, false, .all⟩,
  ⟨"UPD_FW_SVN", 0xA8, 1, 0x4, 1, 4, .ro, false, 0x0#32, .p, false, 0xFFFFFFFF#32, false, .all⟩,
  ⟨"UPD_RUN", 0xAC, 1, 0x4, 1, 4, .ro, false, 0x0#32, .c, false, 0xFFFFFFFF#32, false, .all⟩,
  ⟨"UPD_RUN_VER", 0xB0, 1, 0x4, 1, 4, .ro, false, 0x0#32, .c, false, 0xFFFFFFFF#32, false, .all⟩,
  ⟨"UPD_BLEVEL", 0xB4, 1, 0x4, 1, 4, .wl, true, 0x3#32, .c, true, 0x3#32, false, .all⟩,
  ⟨"UPD_HOURS", 0xB8, 1, 0x4, 1, 4, .ro, false, 0x0#32, .p, false, 0xFFFFFFFF#32, false, .all⟩]

end Sys2Proof.Machine

namespace Sys2Proof.Machine.R

/-- Fabric address of SYS_DEVICE (R104). -/
def SYS_DEVICE : Nat := 0x10000080
/-- Fabric address of SYS_MODULE (R104). -/
def SYS_MODULE : Nat := 0x10000084
/-- Fabric address of SYS_SERIAL_LO (R104). -/
def SYS_SERIAL_LO : Nat := 0x10000088
/-- Fabric address of SYS_SERIAL_HI (R104). -/
def SYS_SERIAL_HI : Nat := 0x1000008C
/-- Fabric address of SYS_LC_STATE (R104). -/
def SYS_LC_STATE : Nat := 0x10000090
/-- Fabric address of SYS_REJ_CNT (R104). -/
def SYS_REJ_CNT : Nat := 0x100000A0
/-- Fabric address of SYS_SIZE_ERR_CNT (R104). -/
def SYS_SIZE_ERR_CNT : Nat := 0x100000A4
/-- Fabric address of SYS_SIZE_ERR_ADDR (R104). -/
def SYS_SIZE_ERR_ADDR : Nat := 0x100000A8
/-- Fabric address of SYS_SIZE_ERR_INFO (R104). -/
def SYS_SIZE_ERR_INFO : Nat := 0x100000AC
/-- Fabric address of SYS_FLT_SEQ (R462). -/
def SYS_FLT_SEQ : Nat := 0x100000C0
/-- Fabric address of SYS_FLT_HIST_BASE (R462). -/
def SYS_FLT_HIST_BASE : Nat := 0x100000C4
/-- Fabric address of SYS_PF_GRANT (R38). -/
def SYS_PF_GRANT : Nat := 0x10000100
/-- Fabric address of SYS_PART_MAP (R38). -/
def SYS_PART_MAP : Nat := 0x10000104
/-- Fabric address of SYS_PART_WIN (R38). -/
def SYS_PART_WIN (n i : Nat) : Nat := 0x10000110 + n * 0x10 + i * 0x4
/-- Fabric address of SYS_PART_DRAM_BASE (R38). -/
def SYS_PART_DRAM_BASE (n : Nat) : Nat := 0x10000150 + n * 0x8
/-- Fabric address of SYS_PART_DRAM_LIMIT (R38). -/
def SYS_PART_DRAM_LIMIT (n : Nat) : Nat := 0x10000154 + n * 0x8
/-- Fabric address of SYS_DENY_CNT (R38). -/
def SYS_DENY_CNT : Nat := 0x10000170
/-- Fabric address of SYS_DENY_ADDR_LO (R38). -/
def SYS_DENY_ADDR_LO : Nat := 0x10000174
/-- Fabric address of SYS_DENY_ADDR_HI (R38). -/
def SYS_DENY_ADDR_HI : Nat := 0x10000178
/-- Fabric address of SYS_IRQ_ROUTE (R38). -/
def SYS_IRQ_ROUTE (n : Nat) : Nat := 0x10001000 + n * 0x4
/-- Fabric address of SYS_IRQ_PEND (R38). -/
def SYS_IRQ_PEND (n : Nat) : Nat := 0x10001800 + n * 0x4
/-- Fabric address of FOX_CTRL (R72). -/
def FOX_CTRL : Nat := 0x10020100
/-- Fabric address of FOX_STATUS (R72). -/
def FOX_STATUS : Nat := 0x10020104
/-- Fabric address of FOX_ACT_CNT (R72). -/
def FOX_ACT_CNT : Nat := 0x10020108
/-- Fabric address of FOX_REVERT_SKIP (R72). -/
def FOX_REVERT_SKIP : Nat := 0x1002010C
/-- Fabric address of FOX_BATT_CTRL (R72). -/
def FOX_BATT_CTRL : Nat := 0x10020110
/-- Fabric address of FOX_BATT_SHED_EXTRA (R72). -/
def FOX_BATT_SHED_EXTRA : Nat := 0x10020114
/-- Fabric address of FOX_LOOP_EN (R72). -/
def FOX_LOOP_EN : Nat := 0x10020118
/-- Fabric address of FOX_MEAS_VALID_LO (R72). -/
def FOX_MEAS_VALID_LO : Nat := 0x10020120
/-- Fabric address of FOX_MEAS_VALID_HI (R72). -/
def FOX_MEAS_VALID_HI : Nat := 0x10020124
/-- Fabric address of PAC_PACE_PD (R72). -/
def PAC_PACE_PD (n : Nat) : Nat := 0x10020140 + n * 0x4
/-- Fabric address of PAC_PACE_LOW_PD (R72). -/
def PAC_PACE_LOW_PD (n : Nat) : Nat := 0x10020180 + n * 0x4
/-- Fabric address of FOX_FLOOR_PD (R72). -/
def FOX_FLOOR_PD (n : Nat) : Nat := 0x10020200 + n * 0x4
/-- Fabric address of FOX_VSET_PD (R72). -/
def FOX_VSET_PD (n : Nat) : Nat := 0x10020240 + n * 0x4
/-- Fabric address of FOX_VLAST_PD (R72). -/
def FOX_VLAST_PD (n : Nat) : Nat := 0x10020280 + n * 0x4
/-- Fabric address of FOX_MON_QSEL (R72). -/
def FOX_MON_QSEL (n : Nat) : Nat := 0x10020300 + n * 0x4
/-- Fabric address of FOX_MON_PSEL (R72). -/
def FOX_MON_PSEL (n : Nat) : Nat := 0x10020320 + n * 0x4
/-- Fabric address of FOX_SWMEAS (R72). -/
def FOX_SWMEAS (n : Nat) : Nat := 0x10020340 + n * 0x4
/-- Fabric address of FOX_HIT (R72). -/
def FOX_HIT (n : Nat) : Nat := 0x10020360 + n * 0x4
/-- Fabric address of FOX_EVT_STATUS (R72). -/
def FOX_EVT_STATUS : Nat := 0x10020370
/-- Fabric address of FOX_EVT_EN (R72). -/
def FOX_EVT_EN : Nat := 0x10020374
/-- Fabric address of FOX_MEAS (R72). -/
def FOX_MEAS (n : Nat) : Nat := 0x10020400 + n * 0x4
/-- Fabric address of FOX_FGRP (R72). -/
def FOX_FGRP (n : Nat) : Nat := 0x10020600 + n * 0x4
/-- Fabric address of FOX_RULE (R72). -/
def FOX_RULE (n i : Nat) : Nat := 0x10021000 + n * 0x10 + i * 0x4
/-- Fabric address of AUD_CTRL (R101). -/
def AUD_CTRL : Nat := 0x10030100
/-- Fabric address of AUD_STATUS (R101). -/
def AUD_STATUS : Nat := 0x10030104
/-- Fabric address of AUD_SEQ (R101). -/
def AUD_SEQ : Nat := 0x10030108
/-- Fabric address of AUD_EXP_SEQ (R101). -/
def AUD_EXP_SEQ : Nat := 0x1003010C
/-- Fabric address of AUD_EXP_ACK (R101). -/
def AUD_EXP_ACK : Nat := 0x10030110
/-- Fabric address of AUD_HOLD_CNT (R101). -/
def AUD_HOLD_CNT : Nat := 0x10030114
/-- Fabric address of AUD_REJ_SUPPR (R101). -/
def AUD_REJ_SUPPR : Nat := 0x10030118
/-- Fabric address of AUD_UNLOGGED_CNT (R101). -/
def AUD_UNLOGGED_CNT : Nat := 0x1003011C
/-- Fabric address of AUD_RING_BASE (R101). -/
def AUD_RING_BASE : Nat := 0x10030120
/-- Fabric address of AUD_EVT_STATUS (R101). -/
def AUD_EVT_STATUS : Nat := 0x10030130
/-- Fabric address of AUD_EVT_EN (R101). -/
def AUD_EVT_EN : Nat := 0x10030134
/-- Fabric address of QMG_SPILL_BIND (R128). -/
def QMG_SPILL_BIND (n : Nat) : Nat := 0x10090180 + n * 0x8
/-- Fabric address of QMG_SPILL_REGION (R128). -/
def QMG_SPILL_REGION (n : Nat) : Nat := 0x10090184 + n * 0x8
/-- Fabric address of QMG_SPILL_ECC_CNT (R128). -/
def QMG_SPILL_ECC_CNT : Nat := 0x100901C0
/-- Fabric address of QP_INFO (R128). -/
def QP_INFO (n : Nat) : Nat := 0x10094000 + n * 0x40
/-- Fabric address of QP_CFG (R128). -/
def QP_CFG (n : Nat) : Nat := 0x10094004 + n * 0x40
/-- Fabric address of QP_THRESH (R128). -/
def QP_THRESH (n : Nat) : Nat := 0x10094008 + n * 0x40
/-- Fabric address of QP_DEPTH (R128). -/
def QP_DEPTH (n : Nat) : Nat := 0x1009400C + n * 0x40
/-- Fabric address of QP_PEAK (R128). -/
def QP_PEAK (n : Nat) : Nat := 0x10094010 + n * 0x40
/-- Fabric address of QP_STATUS (R128). -/
def QP_STATUS (n : Nat) : Nat := 0x10094014 + n * 0x40
/-- Fabric address of QP_OVR_CNT (R128). -/
def QP_OVR_CNT (n : Nat) : Nat := 0x10094018 + n * 0x40
/-- Fabric address of QP_TRUNC_CNT (R128). -/
def QP_TRUNC_CNT (n : Nat) : Nat := 0x1009401C + n * 0x40
/-- Fabric address of QP_FLUSH (R128). -/
def QP_FLUSH (n : Nat) : Nat := 0x10094020 + n * 0x40
/-- Fabric address of QP_POP (R128). -/
def QP_POP (n : Nat) : Nat := 0x10094024 + n * 0x40
/-- Fabric address of QP_POPSTAT (R128). -/
def QP_POPSTAT (n : Nat) : Nat := 0x10094028 + n * 0x40
/-- Fabric address of QP_CAP (R128). -/
def QP_CAP (n : Nat) : Nat := 0x1009402C + n * 0x40
/-- Fabric address of QP_DATA (R128). -/
def QP_DATA (n i : Nat) : Nat := 0x10096000 + n * 0x40 + i * 0x4
/-- Fabric address of QMG_RING_EVT_STATUS (R393). -/
def QMG_RING_EVT_STATUS : Nat := 0x10090200
/-- Fabric address of QMG_RING_EVT_EN (R393). -/
def QMG_RING_EVT_EN : Nat := 0x10090204
/-- Fabric address of QMG_DB_DENY_INFO (R393). -/
def QMG_DB_DENY_INFO : Nat := 0x10090208
/-- Fabric address of HMB_IN (R393). -/
def HMB_IN (n i : Nat) : Nat := 0x10090400 + n * 0x100 + i * 0x4
/-- Fabric address of HMB_OUT (R393). -/
def HMB_OUT (n i : Nat) : Nat := 0x10090440 + n * 0x100 + i * 0x4
/-- Fabric address of HMB_DB (R393). -/
def HMB_DB (n : Nat) : Nat := 0x10090480 + n * 0x100
/-- Fabric address of HMB_FWDB (R393). -/
def HMB_FWDB (n : Nat) : Nat := 0x10090484 + n * 0x100
/-- Fabric address of HMB_STAT (R393). -/
def HMB_STAT (n : Nat) : Nat := 0x10090488 + n * 0x100
/-- Fabric address of HMB_VEC (R393). -/
def HMB_VEC (n : Nat) : Nat := 0x1009048C + n * 0x100
/-- Fabric address of TXRING_BASE_LO (R393). -/
def TXRING_BASE_LO (n : Nat) : Nat := 0x10098000 + n * 0x20
/-- Fabric address of TXRING_BASE_HI (R393). -/
def TXRING_BASE_HI (n : Nat) : Nat := 0x10098004 + n * 0x20
/-- Fabric address of TXRING_CFG (R393). -/
def TXRING_CFG (n : Nat) : Nat := 0x10098008 + n * 0x20
/-- Fabric address of TXRING_BIND (R393). -/
def TXRING_BIND (n : Nat) : Nat := 0x1009800C + n * 0x20
/-- Fabric address of TXRING_PROD (R393). -/
def TXRING_PROD (n : Nat) : Nat := 0x10098010 + n * 0x20
/-- Fabric address of TXRING_FETCH (R393). -/
def TXRING_FETCH (n : Nat) : Nat := 0x10098014 + n * 0x20
/-- Fabric address of TXRING_DONE (R393). -/
def TXRING_DONE (n : Nat) : Nat := 0x10098018 + n * 0x20
/-- Fabric address of TXRING_STAT (R393). -/
def TXRING_STAT (n : Nat) : Nat := 0x1009801C + n * 0x20
/-- Fabric address of RXRING_BASE_LO (R393). -/
def RXRING_BASE_LO (n : Nat) : Nat := 0x1009A000 + n * 0x20
/-- Fabric address of RXRING_BASE_HI (R393). -/
def RXRING_BASE_HI (n : Nat) : Nat := 0x1009A004 + n * 0x20
/-- Fabric address of RXRING_CFG (R393). -/
def RXRING_CFG (n : Nat) : Nat := 0x1009A008 + n * 0x20
/-- Fabric address of RXRING_BIND (R393). -/
def RXRING_BIND (n : Nat) : Nat := 0x1009A00C + n * 0x20
/-- Fabric address of RXRING_PROD (R393). -/
def RXRING_PROD (n : Nat) : Nat := 0x1009A010 + n * 0x20
/-- Fabric address of RXRING_FETCH (R393). -/
def RXRING_FETCH (n : Nat) : Nat := 0x1009A014 + n * 0x20
/-- Fabric address of RXRING_DONE (R393). -/
def RXRING_DONE (n : Nat) : Nat := 0x1009A018 + n * 0x20
/-- Fabric address of RXRING_STAT (R393). -/
def RXRING_STAT (n : Nat) : Nat := 0x1009A01C + n * 0x20
/-- Fabric address of TCRING_BASE_LO (R393). -/
def TCRING_BASE_LO (n : Nat) : Nat := 0x1009D000 + n * 0x20
/-- Fabric address of TCRING_BASE_HI (R393). -/
def TCRING_BASE_HI (n : Nat) : Nat := 0x1009D004 + n * 0x20
/-- Fabric address of TCRING_CFG (R393). -/
def TCRING_CFG (n : Nat) : Nat := 0x1009D008 + n * 0x20
/-- Fabric address of TCRING_BIND (R393). -/
def TCRING_BIND (n : Nat) : Nat := 0x1009D00C + n * 0x20
/-- Fabric address of TCRING_PROD (R393). -/
def TCRING_PROD (n : Nat) : Nat := 0x1009D010 + n * 0x20
/-- Fabric address of TCRING_FETCH (R393). -/
def TCRING_FETCH (n : Nat) : Nat := 0x1009D014 + n * 0x20
/-- Fabric address of TCRING_DONE (R393). -/
def TCRING_DONE (n : Nat) : Nat := 0x1009D018 + n * 0x20
/-- Fabric address of TCRING_STAT (R393). -/
def TCRING_STAT (n : Nat) : Nat := 0x1009D01C + n * 0x20
/-- Fabric address of CQ_BASE_LO (R393). -/
def CQ_BASE_LO (n : Nat) : Nat := 0x1009C000 + n * 0x20
/-- Fabric address of CQ_BASE_HI (R393). -/
def CQ_BASE_HI (n : Nat) : Nat := 0x1009C004 + n * 0x20
/-- Fabric address of CQ_CFG (R393). -/
def CQ_CFG (n : Nat) : Nat := 0x1009C008 + n * 0x20
/-- Fabric address of CQ_IRQ (R393). -/
def CQ_IRQ (n : Nat) : Nat := 0x1009C00C + n * 0x20
/-- Fabric address of CQ_MOD (R393). -/
def CQ_MOD (n : Nat) : Nat := 0x1009C010 + n * 0x20
/-- Fabric address of CQ_PROD (R393). -/
def CQ_PROD (n : Nat) : Nat := 0x1009C014 + n * 0x20
/-- Fabric address of CQ_CONS (R393). -/
def CQ_CONS (n : Nat) : Nat := 0x1009C018 + n * 0x20
/-- Fabric address of CQ_STAT (R393). -/
def CQ_STAT (n : Nat) : Nat := 0x1009C01C + n * 0x20
/-- Fabric address of QMG_RXMAP (R393). -/
def QMG_RXMAP (n : Nat) : Nat := 0x1009D800 + n * 0x4
/-- Fabric address of QMG_OWN_AQ (R393). -/
def QMG_OWN_AQ (n : Nat) : Nat := 0x1009E000 + n * 0x10
/-- Fabric address of QMG_OWN_FEAT_LO (R393). -/
def QMG_OWN_FEAT_LO (n : Nat) : Nat := 0x1009E004 + n * 0x10
/-- Fabric address of QMG_OWN_FEAT_HI (R393). -/
def QMG_OWN_FEAT_HI (n : Nat) : Nat := 0x1009E008 + n * 0x10
/-- Fabric address of QMG_OWN_STRM (R393). -/
def QMG_OWN_STRM (n : Nat) : Nat := 0x1009E00C + n * 0x10
/-- Fabric address of SWC_CTRL (R167). -/
def SWC_CTRL : Nat := 0x10080080
/-- Fabric address of SWC_STATUS (R167). -/
def SWC_STATUS : Nat := 0x10080084
/-- Fabric address of SWC_POOL_SIZE (R167). -/
def SWC_POOL_SIZE : Nat := 0x10080088
/-- Fabric address of SWC_POOL_USE (R167). -/
def SWC_POOL_USE : Nat := 0x1008008C
/-- Fabric address of SWC_CELLS_FREE (R167). -/
def SWC_CELLS_FREE : Nat := 0x10080090
/-- Fabric address of SWC_DESC_FREE (R167). -/
def SWC_DESC_FREE : Nat := 0x10080094
/-- Fabric address of SWC_EVT_STATUS (R167). -/
def SWC_EVT_STATUS : Nat := 0x10080098
/-- Fabric address of SWC_EVT_EN (R167). -/
def SWC_EVT_EN : Nat := 0x1008009C
/-- Fabric address of SWC_DBG_DESC (R167). -/
def SWC_DBG_DESC : Nat := 0x100800A0
/-- Fabric address of SWC_DESC_LOW (R167). -/
def SWC_DESC_LOW : Nat := 0x100800A4
/-- Fabric address of SWC_PCTL (R167). -/
def SWC_PCTL (n : Nat) : Nat := 0x10082000 + n * 0x40
/-- Fabric address of SWC_PSTAT (R167). -/
def SWC_PSTAT (n : Nat) : Nat := 0x10082004 + n * 0x40
/-- Fabric address of SWC_PRSV (R167). -/
def SWC_PRSV (n : Nat) : Nat := 0x10082008 + n * 0x40
/-- Fabric address of SWC_PUSE (R167). -/
def SWC_PUSE (n : Nat) : Nat := 0x1008200C + n * 0x40
/-- Fabric address of SWC_PSCHED (R167). -/
def SWC_PSCHED (n : Nat) : Nat := 0x10082010 + n * 0x40
/-- Fabric address of SWC_PQUANT0 (R167). -/
def SWC_PQUANT0 (n : Nat) : Nat := 0x10082014 + n * 0x40
/-- Fabric address of SWC_PQUANT1 (R167). -/
def SWC_PQUANT1 (n : Nat) : Nat := 0x10082018 + n * 0x40
/-- Fabric address of SWC_PLT (R167). -/
def SWC_PLT (n : Nat) : Nat := 0x1008201C + n * 0x40
/-- Fabric address of SWC_GCL_CTRL (R167). -/
def SWC_GCL_CTRL (n : Nat) : Nat := 0x10082020 + n * 0x40
/-- Fabric address of SWC_GCL_CYCLE (R167). -/
def SWC_GCL_CYCLE (n : Nat) : Nat := 0x10082024 + n * 0x40
/-- Fabric address of SWC_GCL_EXT (R167). -/
def SWC_GCL_EXT (n : Nat) : Nat := 0x10082028 + n * 0x40
/-- Fabric address of SWC_GCL_BASE_NS (R167). -/
def SWC_GCL_BASE_NS (n : Nat) : Nat := 0x1008202C + n * 0x40
/-- Fabric address of SWC_GCL_BASE_SLO (R167). -/
def SWC_GCL_BASE_SLO (n : Nat) : Nat := 0x10082030 + n * 0x40
/-- Fabric address of SWC_GCL_BASE_SHI (R167). -/
def SWC_GCL_BASE_SHI (n : Nat) : Nat := 0x10082034 + n * 0x40
/-- Fabric address of SWC_GCL_STAT (R167). -/
def SWC_GCL_STAT (n : Nat) : Nat := 0x10082038 + n * 0x40
/-- Fabric address of SWC_QLIM (R167). -/
def SWC_QLIM (n : Nat) : Nat := 0x10084000 + n * 0x10
/-- Fabric address of SWC_QAGE (R167). -/
def SWC_QAGE (n : Nat) : Nat := 0x10084004 + n * 0x10
/-- Fabric address of SWC_QCBS (R167). -/
def SWC_QCBS (n : Nat) : Nat := 0x10084008 + n * 0x10
/-- Fabric address of SWC_QSTAT (R167). -/
def SWC_QSTAT (n : Nat) : Nat := 0x1008400C + n * 0x10
/-- Fabric address of SWC_GCL_ADM (R167). -/
def SWC_GCL_ADM (n i : Nat) : Nat := 0x10088000 + n * 0x200 + i * 0x4
/-- Fabric address of SWC_GCL_OPR (R167). -/
def SWC_GCL_OPR (n i : Nat) : Nat := 0x10088100 + n * 0x200 + i * 0x4
/-- Fabric address of SWC_CB_CFG (R167). -/
def SWC_CB_CFG (n : Nat) : Nat := 0x1008C000 + n * 0x10
/-- Fabric address of SWC_CB_STREAM (R167). -/
def SWC_CB_STREAM (n : Nat) : Nat := 0x1008C004 + n * 0x10
/-- Fabric address of SWC_CB_STAT (R167). -/
def SWC_CB_STAT (n : Nat) : Nat := 0x1008C008 + n * 0x10
/-- Fabric address of TBL_CTRL (R205). -/
def TBL_CTRL : Nat := 0x100A0080
/-- Fabric address of TBL_STATUS (R205). -/
def TBL_STATUS : Nat := 0x100A0084
/-- Fabric address of TBL_EVT_STATUS (R205). -/
def TBL_EVT_STATUS : Nat := 0x100A0088
/-- Fabric address of TBL_EVT_EN (R205). -/
def TBL_EVT_EN : Nat := 0x100A008C
/-- Fabric address of TBL_LEARN_CFG (R205). -/
def TBL_LEARN_CFG : Nat := 0x100A0090
/-- Fabric address of TBL_PEND_USE (R205). -/
def TBL_PEND_USE : Nat := 0x100A0094
/-- Fabric address of TBL_AGER (R205). -/
def TBL_AGER : Nat := 0x100A0098
/-- Fabric address of TBL_ROUTE_CTRL (R205). -/
def TBL_ROUTE_CTRL : Nat := 0x100A009C
/-- Fabric address of TBL_TRACK_CTRL (R205). -/
def TBL_TRACK_CTRL : Nat := 0x100A00A0
/-- Fabric address of TBL_CMD_LAST (R205). -/
def TBL_CMD_LAST : Nat := 0x100A00A4
/-- Fabric address of TBL_CMD_OPEN (R205). -/
def TBL_CMD_OPEN : Nat := 0x100A00A8
/-- Fabric address of TBL_RELOC_JRNL (R205). -/
def TBL_RELOC_JRNL : Nat := 0x100A00AC
/-- Fabric address of TBL_RMAC_LO (R205). -/
def TBL_RMAC_LO : Nat := 0x100A00B0
/-- Fabric address of TBL_RMAC_HI (R205). -/
def TBL_RMAC_HI : Nat := 0x100A00B4
/-- Fabric address of HCB_MAC_SEED0 (R206). -/
def HCB_MAC_SEED0 : Nat := 0x100A0100
/-- Fabric address of HCB_MAC_SEED1 (R206). -/
def HCB_MAC_SEED1 : Nat := 0x100A0104
/-- Fabric address of HCB_MAC_HCTRL (R206). -/
def HCB_MAC_HCTRL : Nat := 0x100A0108
/-- Fabric address of HCB_MAC_HCNT (R206). -/
def HCB_MAC_HCNT : Nat := 0x100A010C
/-- Fabric address of HCB_EXT_SEED0 (R206). -/
def HCB_EXT_SEED0 : Nat := 0x100A0110
/-- Fabric address of HCB_EXT_SEED1 (R206). -/
def HCB_EXT_SEED1 : Nat := 0x100A0114
/-- Fabric address of HCB_EXT_HCTRL (R206). -/
def HCB_EXT_HCTRL : Nat := 0x100A0118
/-- Fabric address of HCB_EXT_HCNT (R206). -/
def HCB_EXT_HCNT : Nat := 0x100A011C
/-- Fabric address of HCB_V4_SEED0 (R206). -/
def HCB_V4_SEED0 (n : Nat) : Nat := 0x100A1000 + n * 0x10
/-- Fabric address of HCB_V4_SEED1 (R206). -/
def HCB_V4_SEED1 (n : Nat) : Nat := 0x100A1004 + n * 0x10
/-- Fabric address of HCB_V4_HCTRL (R206). -/
def HCB_V4_HCTRL (n : Nat) : Nat := 0x100A1008 + n * 0x10
/-- Fabric address of HCB_V4_HCNT (R206). -/
def HCB_V4_HCNT (n : Nat) : Nat := 0x100A100C + n * 0x10
/-- Fabric address of HCB_V6_SEED0 (R206). -/
def HCB_V6_SEED0 (n : Nat) : Nat := 0x100A1400 + n * 0x10
/-- Fabric address of HCB_V6_SEED1 (R206). -/
def HCB_V6_SEED1 (n : Nat) : Nat := 0x100A1404 + n * 0x10
/-- Fabric address of HCB_V6_HCTRL (R206). -/
def HCB_V6_HCTRL (n : Nat) : Nat := 0x100A1408 + n * 0x10
/-- Fabric address of HCB_V6_HCNT (R206). -/
def HCB_V6_HCNT (n : Nat) : Nat := 0x100A140C + n * 0x10
/-- Fabric address of TBL_BUSDEF (R205). -/
def TBL_BUSDEF (n : Nat) : Nat := 0x100A0200 + n * 0x4
/-- Fabric address of TBL_EXTMASK (R205). -/
def TBL_EXTMASK (n : Nat) : Nat := 0x100A0280 + n * 0x4
/-- Fabric address of TBL_MCMD (R205). -/
def TBL_MCMD (n : Nat) : Nat := 0x100A0400 + n * 0x4
/-- Fabric address of TBL_MGO (R205). -/
def TBL_MGO : Nat := 0x100A0420
/-- Fabric address of TBL_MSTAT (R205). -/
def TBL_MSTAT : Nat := 0x100A0424
/-- Fabric address of TBL_MCURSOR (R205). -/
def TBL_MCURSOR : Nat := 0x100A0428
/-- Fabric address of TBL_MDATA (R205). -/
def TBL_MDATA (n : Nat) : Nat := 0x100A0480 + n * 0x4
/-- Fabric address of CLS_CTRL (R207). -/
def CLS_CTRL : Nat := 0x100B0080
/-- Fabric address of CLS_EVT_STATUS (R207). -/
def CLS_EVT_STATUS : Nat := 0x100B0088
/-- Fabric address of CLS_EVT_EN (R207). -/
def CLS_EVT_EN : Nat := 0x100B008C
/-- Fabric address of CLS_PCFG (R207). -/
def CLS_PCFG (n : Nat) : Nat := 0x100B1000 + n * 0x10
/-- Fabric address of CLS_PDEF (R207). -/
def CLS_PDEF (n : Nat) : Nat := 0x100B1004 + n * 0x10
/-- Fabric address of CLS_PCPMAP (R207). -/
def CLS_PCPMAP (n : Nat) : Nat := 0x100B1008 + n * 0x10
/-- Fabric address of CAN_CFG (R240). -/
def CAN_CFG (n : Nat) : Nat := 0x10300080 + n * 0x2000
/-- Fabric address of CAN_NBT (R240). -/
def CAN_NBT (n : Nat) : Nat := 0x10300084 + n * 0x2000
/-- Fabric address of CAN_DBT (R240). -/
def CAN_DBT (n : Nat) : Nat := 0x10300088 + n * 0x2000
/-- Fabric address of CAN_XBT (R240). -/
def CAN_XBT (n : Nat) : Nat := 0x1030008C + n * 0x2000
/-- Fabric address of CAN_XPWM (R240). -/
def CAN_XPWM (n : Nat) : Nat := 0x10300090 + n * 0x2000
/-- Fabric address of CAN_TDC (R240). -/
def CAN_TDC (n : Nat) : Nat := 0x10300094 + n * 0x2000
/-- Fabric address of CAN_STATUS (R240). -/
def CAN_STATUS (n : Nat) : Nat := 0x10300098 + n * 0x2000
/-- Fabric address of CAN_ERRCNT (R240). -/
def CAN_ERRCNT (n : Nat) : Nat := 0x1030009C + n * 0x2000
/-- Fabric address of CAN_CMD (R240). -/
def CAN_CMD (n : Nat) : Nat := 0x103000A0 + n * 0x2000
/-- Fabric address of CAN_EVT_STATUS (R240). -/
def CAN_EVT_STATUS (n : Nat) : Nat := 0x103000A4 + n * 0x2000
/-- Fabric address of CAN_EVT_EN (R240). -/
def CAN_EVT_EN (n : Nat) : Nat := 0x103000A8 + n * 0x2000
/-- Fabric address of CAN_LAST_ERR (R240). -/
def CAN_LAST_ERR (n : Nat) : Nat := 0x103000AC + n * 0x2000
/-- Fabric address of CAN_SWK_CFG (R240). -/
def CAN_SWK_CFG (n : Nat) : Nat := 0x103000C0 + n * 0x2000
/-- Fabric address of CAN_SWK_ID (R240). -/
def CAN_SWK_ID (n : Nat) : Nat := 0x103000C4 + n * 0x2000
/-- Fabric address of CAN_SWK_IDMASK (R240). -/
def CAN_SWK_IDMASK (n : Nat) : Nat := 0x103000C8 + n * 0x2000
/-- Fabric address of CAN_SWK_DMASK_LO (R240). -/
def CAN_SWK_DMASK_LO (n : Nat) : Nat := 0x103000CC + n * 0x2000
/-- Fabric address of CAN_SWK_DMASK_HI (R240). -/
def CAN_SWK_DMASK_HI (n : Nat) : Nat := 0x103000D0 + n * 0x2000
/-- Fabric address of LIN_CFG (R241). -/
def LIN_CFG (n : Nat) : Nat := 0x10340080 + n * 0x1000
/-- Fabric address of LIN_STATUS (R241). -/
def LIN_STATUS (n : Nat) : Nat := 0x10340084 + n * 0x1000
/-- Fabric address of LIN_SCHED_CTRL (R241). -/
def LIN_SCHED_CTRL (n : Nat) : Nat := 0x10340088 + n * 0x1000
/-- Fabric address of LIN_CMD (R241). -/
def LIN_CMD (n : Nat) : Nat := 0x1034008C + n * 0x1000
/-- Fabric address of LIN_EVT_STATUS (R241). -/
def LIN_EVT_STATUS (n : Nat) : Nat := 0x10340090 + n * 0x1000
/-- Fabric address of LIN_EVT_EN (R241). -/
def LIN_EVT_EN (n : Nat) : Nat := 0x10340094 + n * 0x1000
/-- Fabric address of LIN_SCHED_LEN (R241). -/
def LIN_SCHED_LEN (n i : Nat) : Nat := 0x103400A0 + n * 0x1000 + i * 0x4
/-- Fabric address of LIN_ID (R241). -/
def LIN_ID (n i : Nat) : Nat := 0x10340100 + n * 0x1000 + i * 0x4
/-- Fabric address of LIN_SCH (R241). -/
def LIN_SCH (n i j : Nat) : Nat := 0x10340200 + n * 0x1000 + i * 0x100 + j * 0x4
/-- Fabric address of LIN_RBUF (R241). -/
def LIN_RBUF (n i j : Nat) : Nat := 0x10340600 + n * 0x1000 + i * 0x8 + j * 0x4
/-- Fabric address of MEC_CTRL (R242). -/
def MEC_CTRL : Nat := 0x10360080
/-- Fabric address of MEC_STATUS (R242). -/
def MEC_STATUS : Nat := 0x10360084
/-- Fabric address of MEC_UCODE_VER (R242). -/
def MEC_UCODE_VER : Nat := 0x10360088
/-- Fabric address of MEC_EVT_STATUS (R242). -/
def MEC_EVT_STATUS : Nat := 0x1036008C
/-- Fabric address of MEC_EVT_EN (R242). -/
def MEC_EVT_EN : Nat := 0x10360090
/-- Fabric address of MEC_TP_BASE (R242). -/
def MEC_TP_BASE : Nat := 0x10360094
/-- Fabric address of MEC_TP_CFG (R242). -/
def MEC_TP_CFG : Nat := 0x10360098
/-- Fabric address of MEC_TPPGN (R242). -/
def MEC_TPPGN (n i : Nat) : Nat := 0x10360100 + n * 0x10 + i * 0x4
/-- Fabric address of MEC_RXSEAL (R242). -/
def MEC_RXSEAL (n i : Nat) : Nat := 0x10361000 + n * 0x8 + i * 0x4
/-- Fabric address of MEC_TXTUN (R242). -/
def MEC_TXTUN (n i : Nat) : Nat := 0x10362000 + n * 0x20 + i * 0x4
/-- Fabric address of MEC_RXTUN (R242). -/
def MEC_RXTUN (n i : Nat) : Nat := 0x10364000 + n * 0x8 + i * 0x4
/-- Fabric address of SIG_CTRL (R282). -/
def SIG_CTRL : Nat := 0x10160080
/-- Fabric address of SIG_STATUS (R282). -/
def SIG_STATUS : Nat := 0x10160084
/-- Fabric address of SIG_EVT_STATUS (R282). -/
def SIG_EVT_STATUS : Nat := 0x10160088
/-- Fabric address of SIG_EVT_EN (R282). -/
def SIG_EVT_EN : Nat := 0x1016008C
/-- Fabric address of SIG_EPOCH_CTRL (R282). -/
def SIG_EPOCH_CTRL : Nat := 0x10160090
/-- Fabric address of SIG_EPOCH_AT (R282). -/
def SIG_EPOCH_AT (n : Nat) : Nat := 0x10160098 + n * 0x4
/-- Fabric address of SIG_EPOCH_STAT (R282). -/
def SIG_EPOCH_STAT : Nat := 0x101600A0
/-- Fabric address of SIG_DRAIN (R282). -/
def SIG_DRAIN : Nat := 0x101600A4
/-- Fabric address of SIG_RI_ACT_VER (R282). -/
def SIG_RI_ACT_VER : Nat := 0x101600A8
/-- Fabric address of SIG_RI_ACT_DIG (R282). -/
def SIG_RI_ACT_DIG : Nat := 0x101600AC
/-- Fabric address of SIG_RI_SHD_VER (R282). -/
def SIG_RI_SHD_VER : Nat := 0x101600B0
/-- Fabric address of SIG_RI_SHD_DIG (R282). -/
def SIG_RI_SHD_DIG : Nat := 0x101600B4
/-- Fabric address of SIG_RI_ARM (R282). -/
def SIG_RI_ARM : Nat := 0x101600B8
/-- Fabric address of SIG_ARM_ERR (R282). -/
def SIG_ARM_ERR : Nat := 0x101600BC
/-- Fabric address of SIG_LD_CTRL (R282). -/
def SIG_LD_CTRL : Nat := 0x101600C0
/-- Fabric address of SIG_LD_SRC (R282). -/
def SIG_LD_SRC (n : Nat) : Nat := 0x101600C8 + n * 0x4
/-- Fabric address of SIG_LD_DST (R282). -/
def SIG_LD_DST : Nat := 0x101600D0
/-- Fabric address of SIG_LD_LEN (R282). -/
def SIG_LD_LEN : Nat := 0x101600D4
/-- Fabric address of SIG_LD_STAT (R282). -/
def SIG_LD_STAT : Nat := 0x101600D8
/-- Fabric address of SIG_WDENY_CNT (R282). -/
def SIG_WDENY_CNT : Nat := 0x101600E0
/-- Fabric address of SIG_WDENY_ADDR (R282). -/
def SIG_WDENY_ADDR : Nat := 0x101600E4
/-- Fabric address of SIG_WDENY_INFO (R282). -/
def SIG_WDENY_INFO : Nat := 0x101600E8
/-- Fabric address of SIG_DBG_SEL (R282). -/
def SIG_DBG_SEL : Nat := 0x101600F0
/-- Fabric address of TIM_CTRL (R320). -/
def TIM_CTRL : Nat := 0x10140080
/-- Fabric address of TIM_STATUS (R320). -/
def TIM_STATUS : Nat := 0x10140084
/-- Fabric address of TIM_EVT_STATUS (R320). -/
def TIM_EVT_STATUS : Nat := 0x10140088
/-- Fabric address of TIM_EVT_EN (R320). -/
def TIM_EVT_EN : Nat := 0x1014008C
/-- Fabric address of TIM_PPS_CFG (R320). -/
def TIM_PPS_CFG : Nat := 0x10140090
/-- Fabric address of TIM_PPS_STATUS (R320). -/
def TIM_PPS_STATUS : Nat := 0x10140094
/-- Fabric address of TIM_PPSOUT_CFG (R320). -/
def TIM_PPSOUT_CFG : Nat := 0x10140098
/-- Fabric address of TIM_UART_CFG (R320). -/
def TIM_UART_CFG : Nat := 0x1014009C
/-- Fabric address of TIM_UTC_OFS (R320). -/
def TIM_UTC_OFS : Nat := 0x101400A0
/-- Fabric address of TIM_TB3_CFG (R320). -/
def TIM_TB3_CFG : Nat := 0x101400A4
/-- Fabric address of TIM_TB3_RATE (R320). -/
def TIM_TB3_RATE : Nat := 0x101400A8
/-- Fabric address of TIM_TB3_STATUS (R320). -/
def TIM_TB3_STATUS : Nat := 0x101400AC
/-- Fabric address of TIM_CLKID (R320). -/
def TIM_CLKID (n : Nat) : Nat := 0x101400B0 + n * 0x4
/-- Fabric address of TIM_PD_MAC_LO (R320). -/
def TIM_PD_MAC_LO : Nat := 0x101400B8
/-- Fabric address of TIM_PD_MAC_HI (R320). -/
def TIM_PD_MAC_HI : Nat := 0x101400BC
/-- Fabric address of TIM_TB_CFG (R320). -/
def TIM_TB_CFG (n : Nat) : Nat := 0x10140100 + n * 0x40
/-- Fabric address of TIM_TB_STATUS (R320). -/
def TIM_TB_STATUS (n : Nat) : Nat := 0x10140104 + n * 0x40
/-- Fabric address of TIM_TB_KP (R320). -/
def TIM_TB_KP (n : Nat) : Nat := 0x10140108 + n * 0x40
/-- Fabric address of TIM_TB_KI (R320). -/
def TIM_TB_KI (n : Nat) : Nat := 0x1014010C + n * 0x40
/-- Fabric address of TIM_TB_RLIM (R320). -/
def TIM_TB_RLIM (n : Nat) : Nat := 0x10140110 + n * 0x40
/-- Fabric address of TIM_TB_STEP (R320). -/
def TIM_TB_STEP (n : Nat) : Nat := 0x10140114 + n * 0x40
/-- Fabric address of TIM_TB_LOCK (R320). -/
def TIM_TB_LOCK (n : Nat) : Nat := 0x10140118 + n * 0x40
/-- Fabric address of TIM_TB_HOLD (R320). -/
def TIM_TB_HOLD (n : Nat) : Nat := 0x1014011C + n * 0x40
/-- Fabric address of TIM_TB_ASYM_LIM (R320). -/
def TIM_TB_ASYM_LIM (n : Nat) : Nat := 0x10140120 + n * 0x40
/-- Fabric address of TIM_TB_RATE (R320). -/
def TIM_TB_RATE (n : Nat) : Nat := 0x10140124 + n * 0x40
/-- Fabric address of TIM_TB_OFS_IN (R320). -/
def TIM_TB_OFS_IN (n : Nat) : Nat := 0x10140128 + n * 0x40
/-- Fabric address of TIM_TB_ADJ_NS (R320). -/
def TIM_TB_ADJ_NS (n : Nat) : Nat := 0x10140138 + n * 0x40
/-- Fabric address of TIM_TB_CMD (R320). -/
def TIM_TB_CMD (n : Nat) : Nat := 0x1014013C + n * 0x40
/-- Fabric address of TIM_TB_ADJ_S (R320). -/
def TIM_TB_ADJ_S (n i : Nat) : Nat := 0x10140130 + n * 0x40 + i * 0x4
/-- Fabric address of TIM_PORT_CFG (R320). -/
def TIM_PORT_CFG (n : Nat) : Nat := 0x10141000 + n * 0x20
/-- Fabric address of TIM_PORT_LAT (R320). -/
def TIM_PORT_LAT (n : Nat) : Nat := 0x10141004 + n * 0x20
/-- Fabric address of TIM_PORT_ASYM (R320). -/
def TIM_PORT_ASYM (n : Nat) : Nat := 0x10141008 + n * 0x20
/-- Fabric address of TIM_PORT_STEP_THR (R320). -/
def TIM_PORT_STEP_THR (n : Nat) : Nat := 0x1014100C + n * 0x20
/-- Fabric address of TIM_PORT_STATUS (R320). -/
def TIM_PORT_STATUS (n : Nat) : Nat := 0x10141010 + n * 0x20
/-- Fabric address of PLE_CTRL (R356). -/
def PLE_CTRL : Nat := 0x10150080
/-- Fabric address of PLE_STATUS (R356). -/
def PLE_STATUS : Nat := 0x10150084
/-- Fabric address of PLE_EVT_STATUS (R356). -/
def PLE_EVT_STATUS : Nat := 0x10150088
/-- Fabric address of PLE_EVT_EN (R356). -/
def PLE_EVT_EN : Nat := 0x1015008C
/-- Fabric address of PLE_CFG (R356). -/
def PLE_CFG : Nat := 0x10150090
/-- Fabric address of PLE_HORIZON (R356). -/
def PLE_HORIZON : Nat := 0x10150094
/-- Fabric address of PLE_MIN_LEAD (R356). -/
def PLE_MIN_LEAD : Nat := 0x10150098
/-- Fabric address of PLE_MAX_AHEAD (R356). -/
def PLE_MAX_AHEAD : Nat := 0x1015009C
/-- Fabric address of PLE_MOT_CFG (R356). -/
def PLE_MOT_CFG : Nat := 0x101500A0
/-- Fabric address of PLE_ANT_F (R356). -/
def PLE_ANT_F : Nat := 0x101500A4
/-- Fabric address of PLE_ANT_L (R356). -/
def PLE_ANT_L : Nat := 0x101500A8
/-- Fabric address of PLE_OUT_CELL (R356). -/
def PLE_OUT_CELL : Nat := 0x101500AC
/-- Fabric address of PLE_PENDING (R356). -/
def PLE_PENDING : Nat := 0x101500B0
/-- Fabric address of PLE_DRAIN (R356). -/
def PLE_DRAIN : Nat := 0x101500B4
/-- Fabric address of PLE_IN (R356). -/
def PLE_IN (n : Nat) : Nat := 0x101500C0 + n * 0x4
/-- Fabric address of PLE_BODY_CFG (R356). -/
def PLE_BODY_CFG (n : Nat) : Nat := 0x10150100 + n * 0x20
/-- Fabric address of PLE_BODY_HF (R356). -/
def PLE_BODY_HF (n : Nat) : Nat := 0x10150104 + n * 0x20
/-- Fabric address of PLE_BODY_HL (R356). -/
def PLE_BODY_HL (n : Nat) : Nat := 0x10150108 + n * 0x20
/-- Fabric address of PLE_BODY_ANGLE (R356). -/
def PLE_BODY_ANGLE (n : Nat) : Nat := 0x1015010C + n * 0x20
/-- Fabric address of PLE_BODY_DRAW (R356). -/
def PLE_BODY_DRAW (n : Nat) : Nat := 0x10150110 + n * 0x20
/-- Fabric address of PLE_BODY_STATE (R356). -/
def PLE_BODY_STATE (n : Nat) : Nat := 0x10150114 + n * 0x20
/-- Fabric address of PLE_MW_MASK (R356). -/
def PLE_MW_MASK : Nat := 0x10150200
/-- Fabric address of PLE_MW (R356). -/
def PLE_MW (n : Nat) : Nat := 0x10150204 + n * 0x4
/-- Fabric address of PLE_MW_TIME (R356). -/
def PLE_MW_TIME (n : Nat) : Nat := 0x10150228 + n * 0x4
/-- Fabric address of PLE_MW_GO (R356). -/
def PLE_MW_GO : Nat := 0x10150230
/-- Fabric address of PLE_LD_CTRL (R356). -/
def PLE_LD_CTRL : Nat := 0x10150240
/-- Fabric address of PLE_LD_SRC (R356). -/
def PLE_LD_SRC (n : Nat) : Nat := 0x10150248 + n * 0x4
/-- Fabric address of PLE_LD_DST (R356). -/
def PLE_LD_DST : Nat := 0x10150250
/-- Fabric address of PLE_LD_LEN (R356). -/
def PLE_LD_LEN : Nat := 0x10150254
/-- Fabric address of PLE_LD_STAT (R356). -/
def PLE_LD_STAT : Nat := 0x10150258
/-- Fabric address of PLE_DBG_SEL (R356). -/
def PLE_DBG_SEL : Nat := 0x10150260
/-- Fabric address of HBR_CTRL (R417). -/
def HBR_CTRL : Nat := 0x10180080
/-- Fabric address of HBR_LINK (R417). -/
def HBR_LINK : Nat := 0x10180084
/-- Fabric address of HBR_EVT_STATUS (R417). -/
def HBR_EVT_STATUS : Nat := 0x10180088
/-- Fabric address of HBR_EVT_EN (R417). -/
def HBR_EVT_EN : Nat := 0x1018008C
/-- Fabric address of HBR_ID (R417). -/
def HBR_ID : Nat := 0x10180090
/-- Fabric address of HBR_BAR4_BASE (R417). -/
def HBR_BAR4_BASE : Nat := 0x101800A0
/-- Fabric address of HBR_BAR4_LIM (R417). -/
def HBR_BAR4_LIM : Nat := 0x101800A4
/-- Fabric address of HBR_ERR_STATUS (R417). -/
def HBR_ERR_STATUS : Nat := 0x101800B0
/-- Fabric address of HBR_ERR_ADDR_LO (R417). -/
def HBR_ERR_ADDR_LO : Nat := 0x101800B4
/-- Fabric address of HBR_ERR_ADDR_HI (R417). -/
def HBR_ERR_ADDR_HI : Nat := 0x101800B8
/-- Fabric address of HBR_ERR_INFO (R417). -/
def HBR_ERR_INFO : Nat := 0x101800BC
/-- Fabric address of HBR_ERR_ACK (R417). -/
def HBR_ERR_ACK : Nat := 0x101800C0
/-- Fabric address of HBR_ERR_MERGED (R417). -/
def HBR_ERR_MERGED : Nat := 0x101800C4
/-- Fabric address of HBR_PF_CFG (R417). -/
def HBR_PF_CFG : Nat := 0x101800D0
/-- Fabric address of HBR_OWIN_CTRL (R417). -/
def HBR_OWIN_CTRL (n : Nat) : Nat := 0x10180100 + n * 0x10
/-- Fabric address of HBR_OWIN_BASE (R417). -/
def HBR_OWIN_BASE (n : Nat) : Nat := 0x10180104 + n * 0x10
/-- Fabric address of HBR_OWIN_LIMIT (R417). -/
def HBR_OWIN_LIMIT (n : Nat) : Nat := 0x10180108 + n * 0x10
/-- Fabric address of HBR_VF_DBMAP (R417). -/
def HBR_VF_DBMAP (n i : Nat) : Nat := 0x10180200 + n * 0x80 + i * 0x4
/-- Fabric address of GRD_STATUS (R456). -/
def GRD_STATUS : Nat := 0x10060080
/-- Fabric address of GRD_EVT_STATUS (R456). -/
def GRD_EVT_STATUS : Nat := 0x10060088
/-- Fabric address of GRD_EVT_EN (R456). -/
def GRD_EVT_EN : Nat := 0x1006008C
/-- Fabric address of GRD_MAN_VER (R456). -/
def GRD_MAN_VER : Nat := 0x10060090
/-- Fabric address of GRD_MAN_DIG (R456). -/
def GRD_MAN_DIG : Nat := 0x10060094
/-- Fabric address of GRD_MAN_FAILS (R456). -/
def GRD_MAN_FAILS : Nat := 0x10060098
/-- Fabric address of GRD_LD_CTRL (R456). -/
def GRD_LD_CTRL : Nat := 0x100600A0
/-- Fabric address of GRD_LD_SRC (R456). -/
def GRD_LD_SRC (n : Nat) : Nat := 0x100600A8 + n * 0x4
/-- Fabric address of GRD_LD_DST (R456). -/
def GRD_LD_DST : Nat := 0x100600B0
/-- Fabric address of GRD_LD_LEN (R456). -/
def GRD_LD_LEN : Nat := 0x100600B4
/-- Fabric address of GRD_LD_STAT (R456). -/
def GRD_LD_STAT : Nat := 0x100600B8
/-- Fabric address of GRD_APPLY (R456). -/
def GRD_APPLY : Nat := 0x100600C0
/-- Fabric address of GRD_APPLY_ERR (R456). -/
def GRD_APPLY_ERR : Nat := 0x100600C4
/-- Fabric address of GRD_DBG_SEL (R456). -/
def GRD_DBG_SEL : Nat := 0x100600C8
/-- Fabric address of GRD_PCFG (R456). -/
def GRD_PCFG (n : Nat) : Nat := 0x10061000 + n * 0x20
/-- Fabric address of GRD_FRATE (R456). -/
def GRD_FRATE (n : Nat) : Nat := 0x10061004 + n * 0x20
/-- Fabric address of GRD_BRATE (R456). -/
def GRD_BRATE (n : Nat) : Nat := 0x10061008 + n * 0x20
/-- Fabric address of GRD_BBURST (R456). -/
def GRD_BBURST (n : Nat) : Nat := 0x1006100C + n * 0x20
/-- Fabric address of GRD_ACT (R456). -/
def GRD_ACT (n : Nat) : Nat := 0x10061010 + n * 0x20
/-- Fabric address of GRD_SA (R456). -/
def GRD_SA (n : Nat) : Nat := 0x10061014 + n * 0x20
/-- Fabric address of GRD_PSTAT (R456). -/
def GRD_PSTAT (n : Nat) : Nat := 0x10061018 + n * 0x20
/-- Fabric address of ALV_CFG (R460). -/
def ALV_CFG : Nat := 0x10050080
/-- Fabric address of ALV_CTRL (R460). -/
def ALV_CTRL : Nat := 0x10050084
/-- Fabric address of ALV_KICK (R460). -/
def ALV_KICK : Nat := 0x10050088
/-- Fabric address of ALV_RESTART (R460). -/
def ALV_RESTART : Nat := 0x1005008C
/-- Fabric address of ALV_CMD (R460). -/
def ALV_CMD : Nat := 0x10050090
/-- Fabric address of ALV_STATUS (R460). -/
def ALV_STATUS : Nat := 0x10050094
/-- Fabric address of ALV_SINCE_KICK (R460). -/
def ALV_SINCE_KICK : Nat := 0x10050098
/-- Fabric address of ALV_EVT_STATUS (R460). -/
def ALV_EVT_STATUS : Nat := 0x1005009C
/-- Fabric address of ALV_EVT_EN (R460). -/
def ALV_EVT_EN : Nat := 0x100500A0
/-- Fabric address of ALV_STOP_CNT (R460). -/
def ALV_STOP_CNT : Nat := 0x100500A4
/-- Fabric address of CIP_CTRL (R504). -/
def CIP_CTRL : Nat := 0x10100080
/-- Fabric address of CIP_STATUS (R504). -/
def CIP_STATUS : Nat := 0x10100084
/-- Fabric address of CIP_EVT_STATUS (R504). -/
def CIP_EVT_STATUS : Nat := 0x10100088
/-- Fabric address of CIP_EVT_EN (R504). -/
def CIP_EVT_EN : Nat := 0x1010008C
/-- Fabric address of CIP_ALARM_ACK (R504). -/
def CIP_ALARM_ACK : Nat := 0x10100090
/-- Fabric address of CIP_SLOT_SEL (R504). -/
def CIP_SLOT_SEL : Nat := 0x101000A0
/-- Fabric address of CIP_SLOT_ATTR (R504). -/
def CIP_SLOT_ATTR : Nat := 0x101000A4
/-- Fabric address of CIP_SLOT_AUX (R504). -/
def CIP_SLOT_AUX : Nat := 0x101000A8
/-- Fabric address of CIP_SLOT_KEY (R504). -/
def CIP_SLOT_KEY (n : Nat) : Nat := 0x101000C0 + n * 0x4
/-- Fabric address of CIP_SLOT_CMD (R504). -/
def CIP_SLOT_CMD : Nat := 0x101000E0
/-- Fabric address of CIP_SLOT_STAT (R504). -/
def CIP_SLOT_STAT : Nat := 0x101000E4
/-- Fabric address of CIP_JOB (R504). -/
def CIP_JOB (n : Nat) : Nat := 0x10100100 + n * 0x4
/-- Fabric address of CIP_JOB_GO (R504). -/
def CIP_JOB_GO : Nat := 0x10100120
/-- Fabric address of CIP_JOB_STAT (R504). -/
def CIP_JOB_STAT : Nat := 0x10100124
/-- Fabric address of CIP_FV_CFG (R504). -/
def CIP_FV_CFG : Nat := 0x10100130
/-- Fabric address of CIP_FV_SEL (R504). -/
def CIP_FV_SEL : Nat := 0x10100134
/-- Fabric address of CIP_FV_SET_LO (R504). -/
def CIP_FV_SET_LO : Nat := 0x10100138
/-- Fabric address of CIP_FV_SET_HI (R504). -/
def CIP_FV_SET_HI : Nat := 0x1010013C
/-- Fabric address of CIP_FV_CMD (R504). -/
def CIP_FV_CMD : Nat := 0x10100140
/-- Fabric address of CIP_SA_SEL (R504). -/
def CIP_SA_SEL : Nat := 0x10100150
/-- Fabric address of CIP_SA_W (R504). -/
def CIP_SA_W (n : Nat) : Nat := 0x10100160 + n * 0x4
/-- Fabric address of CIP_SA_CMD (R504). -/
def CIP_SA_CMD : Nat := 0x10100180
/-- Fabric address of CIP_SA_STAT (R504). -/
def CIP_SA_STAT : Nat := 0x10100184
/-- Fabric address of CIP_SECY_CFG (R504). -/
def CIP_SECY_CFG (n : Nat) : Nat := 0x10101000 + n * 0x20
/-- Fabric address of CIP_SECY_WINDOW (R504). -/
def CIP_SECY_WINDOW (n : Nat) : Nat := 0x10101004 + n * 0x20
/-- Fabric address of CIP_SECY_SCI_LO (R504). -/
def CIP_SECY_SCI_LO (n : Nat) : Nat := 0x10101008 + n * 0x20
/-- Fabric address of CIP_SECY_SCI_HI (R504). -/
def CIP_SECY_SCI_HI (n : Nat) : Nat := 0x1010100C + n * 0x20
/-- Fabric address of CIP_SECY_PN_THR (R504). -/
def CIP_SECY_PN_THR (n i : Nat) : Nat := 0x10101010 + n * 0x20 + i * 0x4
/-- Fabric address of KEY_STATUS (R507). -/
def KEY_STATUS : Nat := 0x10110080
/-- Fabric address of KEY_EVT_STATUS (R507). -/
def KEY_EVT_STATUS : Nat := 0x10110084
/-- Fabric address of KEY_EVT_EN (R507). -/
def KEY_EVT_EN : Nat := 0x10110088
/-- Fabric address of KEY_RNG (R507). -/
def KEY_RNG : Nat := 0x10110090
/-- Fabric address of KEY_LC_NONCE_LO (R507). -/
def KEY_LC_NONCE_LO : Nat := 0x101100A0
/-- Fabric address of KEY_LC_NONCE_HI (R507). -/
def KEY_LC_NONCE_HI : Nat := 0x101100A4
/-- Fabric address of KEY_LC_REQ (R507). -/
def KEY_LC_REQ : Nat := 0x101100A8
/-- Fabric address of KEY_LC_AUTH (R507). -/
def KEY_LC_AUTH (n : Nat) : Nat := 0x101100B0 + n * 0x4
/-- Fabric address of KEY_LC_STAT (R507). -/
def KEY_LC_STAT : Nat := 0x101100B8
/-- Fabric address of KEY_OEM_HASH (R507). -/
def KEY_OEM_HASH (n : Nat) : Nat := 0x101100C0 + n * 0x4
/-- Fabric address of KEY_VLT_CMD (R507). -/
def KEY_VLT_CMD : Nat := 0x10110100
/-- Fabric address of KEY_VLT_STAT (R507). -/
def KEY_VLT_STAT : Nat := 0x10110104
/-- Fabric address of KEY_ATT_CTRL (R507). -/
def KEY_ATT_CTRL : Nat := 0x10110110
/-- Fabric address of KEY_ATT_DST (R507). -/
def KEY_ATT_DST (n : Nat) : Nat := 0x10110118 + n * 0x4
/-- Fabric address of KEY_ATT_STAT (R507). -/
def KEY_ATT_STAT : Nat := 0x10110120
/-- Fabric address of KEY_ATT_NONCE (R507). -/
def KEY_ATT_NONCE (n : Nat) : Nat := 0x10110140 + n * 0x4
/-- Fabric address of KEY_ALARM_CNT (R507). -/
def KEY_ALARM_CNT : Nat := 0x10110180
/-- Fabric address of LDG_CTRL (R528). -/
def LDG_CTRL : Nat := 0x10040080
/-- Fabric address of LDG_STATUS (R528). -/
def LDG_STATUS : Nat := 0x10040084
/-- Fabric address of LDG_EVT_STATUS (R528). -/
def LDG_EVT_STATUS : Nat := 0x10040088
/-- Fabric address of LDG_EVT_EN (R528). -/
def LDG_EVT_EN : Nat := 0x1004008C
/-- Fabric address of LDG_CMD (R528). -/
def LDG_CMD : Nat := 0x10040090
/-- Fabric address of LDG_USE (R528). -/
def LDG_USE : Nat := 0x10040094
/-- Fabric address of LDG_RECORDS (R528). -/
def LDG_RECORDS : Nat := 0x10040098
/-- Fabric address of LDG_HEAD (R528). -/
def LDG_HEAD : Nat := 0x1004009C
/-- Fabric address of LDG_TAIL (R528). -/
def LDG_TAIL : Nat := 0x100400A0
/-- Fabric address of LDG_HIGH_THR (R528). -/
def LDG_HIGH_THR : Nat := 0x100400A4
/-- Fabric address of LDG_FLUSH_BASE (R528). -/
def LDG_FLUSH_BASE : Nat := 0x100400A8
/-- Fabric address of LDG_REC_SEL (R528). -/
def LDG_REC_SEL : Nat := 0x100400B0
/-- Fabric address of LDG_WCLASS (R528). -/
def LDG_WCLASS (n : Nat) : Nat := 0x100400C0 + n * 0x4
/-- Fabric address of LDG_WMAP (R528). -/
def LDG_WMAP (n : Nat) : Nat := 0x10044000 + n * 0x4
/-- Fabric address of PWR_STATUS (R555). -/
def PWR_STATUS : Nat := 0x10010080
/-- Fabric address of PWR_EVT_STATUS (R555). -/
def PWR_EVT_STATUS : Nat := 0x10010084
/-- Fabric address of PWR_EVT_EN (R555). -/
def PWR_EVT_EN : Nat := 0x10010088
/-- Fabric address of PWR_STATE_REQ (R555). -/
def PWR_STATE_REQ : Nat := 0x1001008C
/-- Fabric address of PWR_PD_STATUS (R555). -/
def PWR_PD_STATUS : Nat := 0x10010090
/-- Fabric address of PWR_PD_REQ (R555). -/
def PWR_PD_REQ : Nat := 0x10010094
/-- Fabric address of PWR_BLK_RST (R555). -/
def PWR_BLK_RST : Nat := 0x10010098
/-- Fabric address of PWR_CORE_RST (R555). -/
def PWR_CORE_RST : Nat := 0x1001009C
/-- Fabric address of PWR_CHIP_RST (R555). -/
def PWR_CHIP_RST : Nat := 0x100100A0
/-- Fabric address of PWR_RST_CAUSE (R555). -/
def PWR_RST_CAUSE : Nat := 0x100100A4
/-- Fabric address of PWR_CFG (R555). -/
def PWR_CFG : Nat := 0x100100A8
/-- Fabric address of PWR_WAKE_EN (R555). -/
def PWR_WAKE_EN : Nat := 0x100100AC
/-- Fabric address of PWR_WAKE_SRC (R555). -/
def PWR_WAKE_SRC : Nat := 0x100100B0
/-- Fabric address of PWR_TC10_EN (R555). -/
def PWR_TC10_EN : Nat := 0x100100B4
/-- Fabric address of PWR_WAKE_TIMER (R555). -/
def PWR_WAKE_TIMER : Nat := 0x100100B8
/-- Fabric address of PWR_BATT_THR (R555). -/
def PWR_BATT_THR : Nat := 0x100100BC
/-- Fabric address of PWR_WAKE_ID (R555). -/
def PWR_WAKE_ID : Nat := 0x100100C0
/-- Fabric address of PWR_WFWD_ETH (R555). -/
def PWR_WFWD_ETH (n : Nat) : Nat := 0x10010100 + n * 0x8
/-- Fabric address of PWR_WFWD_BUS (R555). -/
def PWR_WFWD_BUS (n : Nat) : Nat := 0x10010104 + n * 0x8
/-- Fabric address of UPD_STATUS (R612). -/
def UPD_STATUS : Nat := 0x101A0080
/-- Fabric address of UPD_EVT_STATUS (R612). -/
def UPD_EVT_STATUS : Nat := 0x101A0084
/-- Fabric address of UPD_EVT_EN (R612). -/
def UPD_EVT_EN : Nat := 0x101A0088
/-- Fabric address of UPD_SRC (R612). -/
def UPD_SRC (n : Nat) : Nat := 0x101A0090 + n * 0x4
/-- Fabric address of UPD_CMD (R612). -/
def UPD_CMD : Nat := 0x101A0098
/-- Fabric address of UPD_CMD_STAT (R612). -/
def UPD_CMD_STAT : Nat := 0x101A009C
/-- Fabric address of UPD_SEL (R612). -/
def UPD_SEL : Nat := 0x101A00A0
/-- Fabric address of UPD_SEL_SEQ (R612). -/
def UPD_SEL_SEQ : Nat := 0x101A00A4
/-- Fabric address of UPD_FW_SVN (R612). -/
def UPD_FW_SVN : Nat := 0x101A00A8
/-- Fabric address of UPD_RUN (R612). -/
def UPD_RUN : Nat := 0x101A00AC
/-- Fabric address of UPD_RUN_VER (R612). -/
def UPD_RUN_VER : Nat := 0x101A00B0
/-- Fabric address of UPD_BLEVEL (R612). -/
def UPD_BLEVEL : Nat := 0x101A00B4
/-- Fabric address of UPD_HOURS (R612). -/
def UPD_HOURS : Nat := 0x101A00B8

end Sys2Proof.Machine.R
end

