-- ==== Sys2Proof/Machine/State.lean ====
section
/-! DEFINITION. The state of the module as plain data: the register file, the memories, what each block holds behind
its registers, and the queue of commands that wait. -/

namespace Sys2Proof.Machine

/-- Reasons a command stops the machine. No command of this model stops on a fault: an error is an effect on state
(R22, R78, R86), so the type has no constructor. -/
inductive Fault
  deriving DecidableEq, Repr

/-- Reasons a command has no meaning. -/
inductive Refusal where
  /-- Raised by the dispatch for a command not modelled yet; safe. -/
  | notModelled (mnemonic : String)
  deriving DecidableEq, Repr

/-- What leaves the module at its connectors and interrupt outputs, in order.
[DEDUCED, assumption 11; DESIGN CHOICE, assumption 146] -/
inductive Output where
  /-- An Ethernet, CAN or LIN frame put on the line of a port, as it appears there (R17); `good` is false for an
  inverted FCS (R144). -/
  | frame (port : Nat) (bytes : Bytes) (good : Bool)
  /-- A safe-state frame a guard originates (R435). -/
  | safeFrame (port : Nat) (bytes : Bytes)
  /-- An MSI-X message of a PCIe function (R41). -/
  | msix (fn vector : Nat)
  /-- The non-maskable trap at a core, or at the keeper (R42). -/
  | nmi (keeper : Bool) (core : Nat)
  /-- ALIVE_OUT begins to toggle, or is held low (R448, R450). -/
  | alive (toggling : Bool)
  /-- SAFE_PWR switches (R452). -/
  | safePwr (on : Bool)
  /-- A PPS_OUT pulse begins (R309). -/
  | pps (base : Nat)
  /-- A LIN wake pulse (R233). -/
  | linWake (n : Nat)
  /-- A TC10 sleep request or wake-up request on Ethernet port n (R537, R541). -/
  | tc10 (n : Nat) (wake : Bool)
  /-- A message of the negotiation protocol or of recovery sent to a peer (R604, R596). -/
  | message (peer : Nat) (bytes : Bytes)
  /-- A configuration export (R601). -/
  | file (bytes : Bytes)
  /-- A completion interrupt of a core's or the keeper's ring (R381). -/
  | ringIrq (keeper : Bool) (core vector : Nat)
  deriving DecidableEq, Repr

/-- How the last access completed (R22, R23, R86). -/
inductive BusResp where
  | idle
  | done
  | data (v : Nat)
  | bytes (v : Bytes)
  | error
  | unsupported
  | discarded
  | held
  deriving DecidableEq, Repr

/-- A register access held while its block is in BLOCK reset (R23). -/
structure HeldAccess where
  m : Master
  addr : Nat
  size : Nat
  write : Bool
  value : Nat
  deriving DecidableEq, Repr

/-- The mailbox of a window: the snapshot held, the part shown, and who asked (R83, R84). -/
structure Mailbox where
  data : List Word
  part : Nat
  valid : Bool
  badsel : Bool
  held : Bool
  origin : Nat
  gen : Nat
  deriving DecidableEq, Repr

/-- The mailbox before any request. -/
def Mailbox.empty : Mailbox := ⟨[], 0, false, false, false, 0, 0⟩

/-- SYS: accesses, locks, mailboxes, the interrupt lines that stand and the PCIe functions each has gone to for its assertion
(R43), whether a denied doorbell is held since DB_DENY was read (R394), the items of the last captures by window (R440), and
counters. -/
structure Sys where
  bus : BusResp
  held : List HeldAccess
  mbox : Kv Mailbox
  wlDone : List Nat
  irqUp : List Nat
  irqSent : Kv (List Nat)
  evSeq : Nat
  dbCap : Bool
  open_ : Kv (List Word)
  ctr : Kv Nat
  deriving DecidableEq, Repr

/-- An action that changed a value, for its undo (R64): its code and operand, what it found and what it set. -/
structure FoxSaved where
  code : Nat
  op : Word
  old : Nat
  set : Nat
  deriving DecidableEq, Repr

/-- A run of supply steps not yet recorded (R70). -/
structure VsetMove where
  base : Word
  last : Nat
  deriving DecidableEq, Repr

/-- The policy engine behind its registers (R53-R70): ticks above the floor by domain; active rules, dwell counts and what
an active rule's action found and set; since when a domain at 900 mV is below its floor, and those for which PACE_LOST was
set; domains whose sentinels failed; supply steps not yet recorded; domains shed on battery, and the instants of the excess
and of the last shed; since when the mains input is within range; the count and instant from which each rate of
measurements 54-56 is taken. -/
structure Fox where
  held : Kv Nat
  active : List Nat
  cnt : Kv Nat
  saved : Kv FoxSaved
  below : Kv Nat
  paceLost : List Nat
  sentinel : List Nat
  move : Kv VsetMove
  shed : List Nat
  overAt : Option Nat
  lastShed : Option Nat
  mains : Option Nat
  rates : Kv (Nat × Nat)
  deriving DecidableEq, Repr

/-- A logged change that waits for room in the pending buffer (R90). -/
structure WaitingWrite where
  m : Master
  addr : Nat
  value : Word
  deriving DecidableEq, Repr

/-- The audit log behind its registers: entries are their 32 bytes (R91). -/
structure Aud where
  pend : List Bytes
  waiting : List WaitingWrite
  head : BitVec 256
  headTime : Nat
  push : Word
  popped : Word
  rejMs : List (Nat × Nat)
  gap : Nat
  writeFail : Bool
  deriving DecidableEq, Repr

/-- One item of a queue primitive (R109). `marked` says that it stood before the flush mark (R121). -/
structure QItem where
  words : List Word
  done : Bool
  marked : Bool
  prod : Nat
  last : Nat
  deriving DecidableEq, Repr

/-- A queue primitive: its items, oldest first, of which the first `head` are in the head stage and the next `mid` in
the DRAM middle of a spill queue; the held producers; the producers whose item is ignored, with the words of it still to
come; the pending pop; the stranded timer (R106, R107, R119, R126). -/
structure Queue where
  items : List QItem
  head : Nat
  mid : Nat
  held : List (Nat × Word)
  skip : Kv Nat
  popPend : Bool
  timer : Nat
  stranded : Bool
  deriving DecidableEq, Repr

/-- A queue primitive after reset. -/
def Queue.empty : Queue := ⟨[], 0, 0, [], [], false, 0, false⟩

/-- Egress edits fixed at classification (R172, R173, R182): the outer tag (0 as received, 1 removed, 2 set, 3 set but
removed on the ports of `untag`), new addresses, a hop counted down, the R-TAG removed, a PDU1 destination address. -/
structure Edits where
  tagOp : Nat
  vid : Nat
  pcp : Nat
  untag : Nat
  da : Option Bytes
  sa : Option Bytes
  hop : Bool
  popRtag : Bool
  ps : Option Nat
  deriving DecidableEq, Repr

/-- No edits. -/
def Edits.none : Edits := ⟨0, 0, 0, 0, .none, .none, false, false, .none⟩

/-- Where a frame came from inside the gateway, so that its end can be reported there. -/
inductive Source where
  | line
  | ring (n slot : Nat)
  | order (id : Nat)
  | pack (rule : Nat)
  | replay (rec : Nat)
  | transport (n : Nat)
  | keeper
  deriving DecidableEq, Repr

/-- A stored frame: its bytes, its cells' charges and how many copies hold it (R131, R135, R136). -/
structure Frame where
  bytes : Bytes
  bus : Bool
  ingress : Nat
  refs : Nat
  rsv : Nat
  pool : Nat
  rxTime : List Nat
  deriving DecidableEq, Repr

/-- A frame descriptor: one egress copy and the decisions it carries (R134, R158). -/
structure Copy where
  id : Nat
  frame : Nat
  port : Nat
  tc : Nat
  mcast : Bool
  ct : Bool
  stream : Nat
  ingress : Nat
  packed : Bool
  packRule : Nat
  ledger : Option Nat
  keySlot : Nat
  protect : Nat
  timed : Bool
  launch : Nat
  admitUs : Nat
  edits : Edits
  tag : Option Nat
  src : Source
  attempts : Nat
  errs : Nat
  bank : Nat
  deriving DecidableEq, Repr

/-- A copy in transmission, with the frame as it appears on the line; `whole` is false while a cut-through frame is still
in reception, and `stomp` says that it ends with an inverted FCS (R144). -/
structure TxCopy where
  copy : Copy
  line : Bytes
  whole : Bool
  stomp : Bool
  start : Nat
  deriving DecidableEq, Repr

/-- An operational gate list and its place in the cycle (R149, R150). -/
structure Gcl where
  cycle : Nat
  ext : Nat
  base : Nat
  tb : Nat
  entry : Nat
  gates : Nat
  change : Option Nat
  deriving DecidableEq, Repr

/-- No gate list: every gate open. -/
def Gcl.none : Gcl := ⟨0, 0, 0, 0, 0, 0xFF, .none⟩

/-- An 802.1CB recovery instance: its history, newest first, and when it last took a frame (R161). -/
structure CbInst where
  history : List Bool
  takeAny : Bool
  seq : Nat
  last : Nat
  deriving DecidableEq, Repr

/-- An instance before its first frame. -/
def CbInst.none : CbInst := ⟨[], true, 0, 0⟩

/-- What classification fixed for a frame (R158, R170); `prot` gives PROTECT and KEY_SLOT of each egress copy (R479), slot
512 standing for none; `tunnel` names the receive tunnel that terminates it (R228). -/
structure Resolved where
  egress : List Nat
  tc : Nat
  stream : Nat
  ingress : Nat
  bus : Bool
  ledger : Bool
  prot : Kv (Nat × Nat)
  packed : Bool
  packRule : Nat
  edits : Edits
  timed : Bool
  launch : Nat
  tag : Option Nat
  src : Source
  bank : Nat
  rxTime : List Nat
  tunnel : Option Nat
  deriving DecidableEq, Repr

/-- What classification left of a frame: the bank and stream whose unpack rules run (R252), and what it was resolved to,
none where it was discarded. -/
structure Classified where
  sig : Option (Nat × Nat)
  res : Option Resolved
  deriving DecidableEq, Repr

/-- A frame in reception between its header and its end, on the ports 0-28; `macsec` says that MACsec must open it before
it is classified; `cut` names the stored frame of one that was taken by the cut-through path. -/
structure RxFrame where
  res : Classified
  hdr : Bytes
  len : Nat
  macsec : Bool
  cut : Option Nat
  rxTime : List Nat
  deriving DecidableEq, Repr

/-- A resolved frame that waits at its admission point, holding its cells (R522). -/
structure Admission where
  res : Resolved
  frame : Nat
  deriving DecidableEq, Repr

/-- The switch core behind its registers. -/
structure Swc where
  frames : Kv Frame
  nextId : Nat
  queues : Kv (List Copy)
  tx : Kv TxCopy
  rx : Kv RxFrame
  deficit : Kv Nat
  turn : Kv (Nat × Bool)
  credit : Kv Int
  creditAt : Kv Nat
  gcl : Kv Gcl
  cb : Kv CbInst
  link : Kv Nat
  waiting : List Admission
  deriving DecidableEq, Repr

/-- One bank of the banked tables, entries as their bytes (R200). -/
structure Bank where
  stream : Kv Bytes
  busId : Kv Bytes
  ext : Kv Bytes
  vlan : Kv Bytes
  group : Kv Bytes
  rules : Kv Bytes
  deriving DecidableEq, Repr

/-- An empty bank. -/
def Bank.empty : Bank := ⟨[], [], [], [], [], []⟩

/-- A pending-learn entry (R188). -/
structure Pending where
  mac : Bytes
  fid : Nat
  first : Nat
  last : Nat
  expiry : Nat
  deriving DecidableEq, Repr

/-- A policer's record and its token counts, tokens in 1/8,000,000 of a byte (R198). -/
structure Policer where
  rcd : Bytes
  c : Nat
  e : Nat
  at_ : Nat
  written : Bool
  deriving DecidableEq, Repr

/-- A table walk: where it stands, the carry list, and whether that overflowed (R180, R181). -/
structure Walk where
  cursor : Nat
  carry : List Bytes
  ovf : Bool
  deriving DecidableEq, Repr

/-- The tables and the classifier behind their registers. -/
structure Tbl where
  act : Bank
  shd : Bank
  mac : Kv Bytes
  v4 : Kv Bytes
  v6 : Kv Bytes
  track : Kv Bytes
  pol : Kv Policer
  filter4 : Kv Nat
  filter6 : Kv Nat
  seq : Nat
  pend : List Pending
  movedMs : Kv Nat
  limitMs : Option Nat
  walks : Kv Walk
  mgo : Option Master
  deriving DecidableEq, Repr

/-- A time base: its count in 2^-32 ns, its servo and its hold (R287, R288, R301-R306). -/
structure TimeBase where
  val : Nat
  rate : Int
  integ : Int
  gen : Nat
  lockCnt : Nat
  unlockCnt : Nat
  big : Nat
  locked : Bool
  sampled : Bool
  holdover : Bool
  hold : Bool
  foxHold : Bool
  holdAt : Nat
  lastSample : Nat
  pre : List Int
  during : List Int
  tb2Locked : Bool
  asymUnres : Bool
  asymAlarm : Bool
  asymWritten : Bool
  lastOff : Int
  deriving DecidableEq, Repr

/-- A base that has started at n (2^-32 ns) and taken no sample. [DESIGN CHOICE, assumption 6] -/
def TimeBase.start (n : Nat) : TimeBase :=
  ⟨n, 0, 0, 0, 0, 0, 0, false, false, false, false, false, 0, 0, [], [], false, false, false, false, 0⟩

/-- The peer delay of a port (R297): link delay in 2^-16 ns, neighbour rate ratio in 2^-32; `out` while an exchange is
without its response. -/
structure PortDelay where
  mld : Int
  nrr : Nat
  valid : Bool
  step : Bool
  dPrev : Int
  lost : Nat
  seqId : Nat
  out : Bool
  lastT3T4 : Option (Nat × Nat)
  deriving DecidableEq, Repr

/-- A port that has measured nothing. -/
def PortDelay.none : PortDelay := ⟨0, 4294967296, false, false, 0, 0, 0, false, .none⟩

/-- A two-step Sync that waits for its Follow_Up (R299): its sequenceId, the bases at its capture, its correctionField,
and when it came. -/
structure SyncWait where
  seqId : Nat
  at_ : List Nat
  corr : Int
  at3 : Nat
  deriving DecidableEq, Repr

/-- The time bases behind their registers. The last accepted PPS edge is its TB3 nanoseconds and its TB2 value; `ppsDone`
says that it has given its sample or can give none, `ppsLost` that its loss was raised; `zda` is a sentence that names the
next edge; `zdaAt` and `pairAt` are when a sentence and a pair were last seen. -/
structure Tim where
  tb0 : TimeBase
  tb1 : TimeBase
  tb2 : TimeBase
  tb3 : TimeBase
  pd : Kv PortDelay
  sync : Kv SyncWait
  pps : Option (Nat × Nat)
  ppsDone : Bool
  ppsLost : Bool
  zda : Option (Nat × Nat)
  zdaAt : Option Nat
  pairAt : Option Nat
  ppsOutAt : Option Nat
  ppsOutSec : Nat
  refOk : Bool
  ratio : Int
  saves : List Nat
  deriving DecidableEq, Repr

/-- A load command that runs (R283): its structure and span; `clear` for one that zeroes the whole structure. -/
structure LoadJob where
  clear : Bool
  struct_ : Nat
  src : Nat
  dst : Nat
  len : Nat
  deriving DecidableEq, Repr

/-- A guard's two token buckets, in billionths of a frame and of a byte, and when they were last filled (R426). -/
structure Bucket where
  f : Nat
  b : Nat
  at_ : Nat
  deriving DecidableEq, Repr

/-- The safe-state repetition of a port: the start of the last set, and a set that waits (R435). -/
structure SafeRun where
  first : Nat
  waiting : Bool
  deriving DecidableEq, Repr

/-- The guards behind their registers: the tables as records by index, the full digest of the manifest, the load that
runs. -/
structure Grd where
  idMap : Kv Bytes
  pairs : Kv Bytes
  rules : Kv Bytes
  safe : Kv Bytes
  bucket : Kv Bucket
  run : Kv SafeRun
  load : Option LoadJob
  digest : Bytes
  deriving DecidableEq, Repr

/-- The alive signal and the SAFE_PWR detector behind their registers (R448-R452, R574): `edgeAt` is when the output
began or ceased to toggle, `ending` that a stop waits for the next scheduled edge. Times are nanoseconds of TB3. -/
structure Alv where
  half : Option Nat
  restartHalf : Option Nat
  lastKick : Nat
  applyAt : Option Nat
  edgeAt : Nat
  ending : Bool
  detector : Bool
  limitAt : Option Nat
  trips : Nat
  tripAt : Option Nat
  tripLatched : Bool
  thermal : Bool
  deriving DecidableEq, Repr

/-- What the module is doing (R534, R535). -/
inductive PwrMode where
  | off | sleep | standby | run | batteryRun | entering
  deriving DecidableEq, Repr

/-- A chip reset that has been decided and waits for its saves (R546): the cause, and the fault that took it. -/
structure ChipReset where
  cause : Nat
  window : Nat
  source : Nat
  deriving DecidableEq, Repr

/-- The power manager behind its registers: what the module is doing and, on entry, where it goes; domains in BLOCK reset; a
decided chip reset; the TC10 ports whose partner has not answered; when the entry began or ended, whether a
wake source was seen during it, and when KEY_IN went low;
channels that a wake is still to be forwarded to; failures of power-good in a row; when the power-fail warning came;
RESET_N; and nanoseconds in RUN and BATTERY-RUN (R609). -/
structure Pwr where
  mode : PwrMode
  target : PwrMode
  inReset : List Nat
  chip : Option ChipReset
  tc10 : List Nat
  entryAt : Nat
  entryWake : Bool
  keyLowAt : Option Nat
  fwd : List Nat
  seqFails : Nat
  pfwAt : Option Nat
  resetPin : Bool
  runNs : Nat
  deriving DecidableEq, Repr

/-- An outbound read that is not complete (R406-R409): its tag, master, host address and length, the window and the lines it
prefetches, the held lines it was served from, and when it was issued, none while it waits for a tag. -/
structure HbrRead where
  tag : Nat
  m : Master
  addr : Nat
  len : Nat
  win : Nat
  lines : List Nat
  have_ : List (Nat × Bytes)
  at_ : Option Nat
  deriving DecidableEq, Repr

/-- A held prefetch line (R409). -/
structure HbrLine where
  addr : Nat
  origin : Nat
  win : Nat
  at_ : Nat
  data : Bytes
  deriving DecidableEq, Repr

/-- The host bridge behind its registers. `ready` lists the functions that are enabled with bus mastering; `lines` are the
held lines, oldest first. -/
structure Hbr where
  ready : List Nat
  reads : List HbrRead
  lines : List HbrLine
  tag : Nat
  deriving DecidableEq, Repr

/-- A transmit frame between its fetch and its completion (R366, R367, R375): `left` copies are still outstanding;
`fails` lists the copies that failed, as (egress port, cause); `state` is 0 running, 1 decided, 2 finished. -/
structure TxFrame where
  idx : Nat
  slot : Nat
  n : Nat
  cookie : Nat
  tsTag : Option Nat
  quiet : Bool
  timed : Bool
  launch : Nat
  size : Nat
  admitted : Nat
  delivered : Nat
  left : Nat
  fails : List (Nat × Nat)
  ledger : Bool
  ledgerRec : Option Nat
  ledgerFull : Bool
  replayed : Bool
  state : Nat
  deriving DecidableEq, Repr

/-- A completion that waits for its ring (R374, R379): the source ring's kind and number, its first slot's index and how
many slots it covers, and its 64 bytes without PHASE. -/
structure CqEntry where
  kind : Nat
  ring : Nat
  idx : Option Nat
  n : Nat
  bytes : Bytes
  since : Nat
  stalled : Bool
  deriving DecidableEq, Repr

/-- A completion ring's moderation and what waits for it (R380). -/
structure CqSt where
  armed : Bool
  pend : Nat
  first : Nat
  wait : List CqEntry
  deriving DecidableEq, Repr

/-- A completion ring before it is enabled. -/
def CqSt.none : CqSt := ⟨false, 0, 0, []⟩

/-- The queue manager's rings behind their registers: the frames and the unfinished chain of each transmit ring, and the
completion rings. -/
structure Rng where
  tx : Kv (List TxFrame)
  chain : Kv (List Bytes)
  cq : Kv CqSt
  deriving DecidableEq, Repr

/-- A bank of the signal plane: each structure as the bytes it holds (R249, R251, R253, R262, R263). -/
structure SigBank where
  dir : List Host.Cell
  rules : List Host.Cell
  attr : List Host.Cell
  pack : List Host.Cell
  entries : List Host.Cell
  tmpl : List Host.Cell
  deriving DecidableEq, Repr

/-- An empty bank. -/
def SigBank.empty : SigBank := ⟨[], [], [], [], [], []⟩

/-- A requested route epoch (R276): its base and instant, none for at once, and the master that asked. -/
structure EpochReq where
  at_ : Option (Nat × Nat)
  m : Master
  deriving DecidableEq, Repr

/-- The signal plane behind its registers: cells that are not `INIT` with their age stamps, the emissions of the pack
rules, the banks, and the full digests of the route images in them. -/
structure Sig where
  act : SigBank
  shd : SigBank
  bank : Nat
  cell : Kv Word
  stamp : Kv Nat
  lastEmit : Kv Nat
  lastMs : Kv Nat
  epochMs : Option Nat
  deferred : List Nat
  due : List Nat
  load : Option LoadJob
  switch : Option EpochReq
  actDigest : Bytes
  shdDigest : Bytes
  deriving DecidableEq, Repr

/-- A record of the ledger (R512): its place and size in 16-byte granules, its stored frame, the ports still pending, and
for a frame of a transmit ring its origin block: COOKIE, slot, ring, completion ring byte. -/
structure LedgerRec where
  seq : Nat
  off : Nat
  size : Nat
  admitUs : Nat
  stream : Nat
  bytes : Bytes
  launch : Option Nat
  origin : Option (Nat × Nat × Nat × Nat)
  pending : List Nat
  tc : Nat
  replayed : Bool
  freed : Bool
  bus : Bool
  live : Nat
  wclass : Nat
  owner : Nat
  deriving DecidableEq, Repr

/-- A replay set (R519): the restart's kind (0 BLOCK reset of PD3, 1 chip reset, 2 STANDBY exit, 3 power return), the
restart instant in microseconds of TB3 against which ages are measured, the instant from which DEADLINE_MS counts,
whether it waits for REPLAY_GO, and the records still to push. -/
structure ReplaySet where
  kind : Nat
  ageUs : Nat
  fromUs : Nat
  waiting : Bool
  todo : List Nat
  deriving DecidableEq, Repr

/-- A replayed frame whose ring slot is gone (R383): its course, its ring, and the completion ring and owner recorded. -/
structure LateTx where
  f : TxFrame
  ring : Nat
  cq : Nat
  owner : Nat
  deriving DecidableEq, Repr

/-- The ledger behind its registers. `late` lists frames that R383 completes, by record; `lost` keeps the kind of a set that a BLOCK reset of PD2 took. -/
structure Ldg where
  recs : List LedgerRec
  head : Nat
  tail : Nat
  seq : Nat
  set : Option ReplaySet
  lost : Option Nat
  orphans : List Nat
  late : Kv LateTx
  full : Bool
  fullMs : Option Nat
  restored : Bool
  deriving DecidableEq, Repr

/-- A key slot (R469): its key, its attribute word with STATE, and its FV_INDEX. -/
structure Slot where
  key : Bytes
  attr : Word
  aux : Nat
  deriving DecidableEq, Repr

/-- A MACsec SA record (R481, R505). -/
structure SaRec where
  valid : Bool
  slot : Nat
  pn : Nat
  ssci : Nat
  salt : Bytes
  thresh : Bool
  deriving DecidableEq, Repr

/-- A cipher job that runs (R487). -/
structure CipJob where
  m : Master
  words : Bytes
  attr : Word
  aux : Nat
  deriving DecidableEq, Repr

/-- The cipher cluster behind its registers: slots, SA and SC records, freshness counters and what MRAM holds of them, the
job, the alarm causes that hold, the cores out of use, and the sets of slots that a REVOKE has still to zeroise. -/
structure Cip where
  slots : Kv Slot
  sas : Kv SaRec
  scs : Kv Nat
  fv : Kv Nat
  saved : Kv Nat
  job : Option CipJob
  causes : List Nat
  out : List Nat
  sets : List (List Nat)
  deriving DecidableEq, Repr

/-- A token being signed (R499): its claims and the address it goes to. -/
structure AttJob where
  claims : Bytes
  dst : Nat
  deriving DecidableEq, Repr

/-- The key store behind its registers (R489-R499). -/
structure Key where
  att : Option AttJob
  staged : Option Nat
  stagedOem : Bool
  returned : Bool
  oemFused : Bool
  oemWritten : List Nat
  deriving DecidableEq, Repr

/-- A CAN channel behind its registers: error counters, bus-off and its recovery (R213). -/
structure CanCh where
  tec : Nat
  rec_ : Nat
  busOff : Bool
  recovering : Bool
  deriving DecidableEq, Repr

/-- A channel after reset. -/
def CanCh.start : CanCh := ⟨0, 0, false, false⟩

/-- A reassembly session (R223): its channel, entry, addresses, message, what arrived, and the packets the gateway has
cleared to send. -/
structure TpRx where
  ch : Nat
  entry : Nat
  sa : Nat
  da : Nat
  pgn : Nat
  prio : Nat
  total : Nat
  etp : Bool
  bam : Bool
  got : Bytes
  next : Nat
  clear : Nat
  last : Nat
  wait : Nat
  deriving DecidableEq, Repr

/-- A transmit session (R226): the segments held for a TAG on a channel, and the message once it is being sent. -/
structure TpTx where
  ch : Nat
  tag : Nat
  nseg : Nat
  segs : List (Nat × Copy)
  last : Nat
  started : Bool
  msg : Bytes
  deriving DecidableEq, Repr

/-- A LIN response buffer (R231): its data, whether it is unsent, and the copy it came from. -/
structure LinBuf where
  data : Bytes
  fresh : Bool
  copy : Option Copy
  deriving DecidableEq, Repr

/-- A slot or response in progress on a LIN channel: its ID, the entry's TYPE and CRT, the data the gateway sends, the copy
that goes with it, and when its break began. -/
structure LinSlot where
  id : Nat
  type_ : Nat
  crt : Nat
  data : Option Bytes
  copy : Option Copy
  at_ : Nat
  deriving DecidableEq, Repr

/-- A LIN channel behind its registers: buffers, the running table and entry, a requested table, a collision-resolving
pass (its table and entry), and the slot in progress. -/
structure LinCh where
  bufs : Kv LinBuf
  table : Nat
  entry : Nat
  want : Option Nat
  pass : Option (Nat × Nat)
  slot : Option LinSlot
  deriving DecidableEq, Repr

/-- A LIN channel after reset. -/
def LinCh.start : LinCh := ⟨[], 0, 0, .none, .none, .none⟩

/-- An Ethernet frame that a receive tunnel takes, on its way to the session microengine (R228). -/
structure TunFrame where
  entry : Nat
  bytes : Bytes
  rx : List Nat
  deriving DecidableEq, Repr

/-- The bus engines behind their registers; `gone` are the transmit sessions that a BLOCK reset ended, whose copies are
discarded as the domain leaves it. -/
structure Bus where
  can : Kv CanCh
  lin : Kv LinCh
  rx : List TpRx
  tx : List TpTx
  tag : Nat
  tun : List TunFrame
  gone : List TpTx
  deriving DecidableEq, Repr


/-- The motion of body 0 at the model instant (R326) and the articulation angles of bodies 1-3 (R324): positions in 2^-16
of the field unit, angles in 2^-48 turn, speed, acceleration and yaw rate in 2^-16 of their units. -/
structure Motion where
  e : Int
  n : Int
  psi : Nat
  v : Int
  a : Int
  w : Int
  th : List Int
  deriving DecidableEq, Repr

/-- A motion before any input. -/
def Motion.rest : Motion := ⟨0, 0, 0, 0, 0, 0, [0, 0, 0]⟩

/-- A bank of the placement engine: actuators, templates and the template store as bytes (R335-R337). -/
structure PleBank where
  acts : List Host.Cell
  tpls : List Host.Cell
  store : List Host.Cell
  deriving DecidableEq, Repr

/-- An edge of an order (R342-R349), instants in nanoseconds of the model base: its predicted launch, frozen once
`launch` holds the committed one; on which side of its target it stood before the update at hand; for a closing edge that
was not admitted, when it was first and last offered on TB3, and whether CLOSE_FAIL was set. -/
structure PleEdge where
  l : Option Int
  launch : Option Int
  side : Option Bool
  since : Option Nat
  tryAt : Option Nat
  failed : Bool
  late : Bool
  forced : Bool
  deriving DecidableEq, Repr

/-- An edge not yet predicted. -/
def PleEdge.none : PleEdge := ⟨.none, .none, .none, .none, .none, false, false, false⟩

/-- A pending placement order (R338-R350): its owner and the name of its ring slot, its 64 bytes, the bank it was accepted
under, its edges, whether it was ever predicted, RESULT flags, counts and the status it ends with once a forced close is
out; `silent` for one that returns no result. -/
structure PleOrder where
  owner : Nat
  prod : Nat
  bytes : Bytes
  bank : Nat
  first : PleEdge
  second : Option PleEdge
  seen : Bool
  flags : Nat
  preds : Nat
  miss : Int
  final : Nat
  silent : Bool
  deriving DecidableEq, Repr

/-- The placement engine behind its registers: banks, model (0 `INIT`, 1 `RUN`, 2 `LOST`) and its instants, the COUNT of
each input last taken, the trigger that waits, orders oldest first, open-span records by actuator (an order's bytes and
bank), the last launch of each queue, a load, and the orders a BLOCK reset took. -/
structure Ple where
  act : PleBank
  shd : PleBank
  bank : Nat
  mode : Nat
  tm : Nat
  mot : Motion
  tSpd : Option Nat
  tPos : Option Nat
  taken : Kv Nat
  trig : Bool
  lastUpd : Option Nat
  orders : List PleOrder
  spans : Kv (Bytes × Nat)
  last : Kv Int
  load : Option LoadJob
  lost : Nat
  lostCnt : Nat
  deriving DecidableEq, Repr
/-- An update command that runs (R584): the master, UPD_CMD and UPD_SRC. -/
structure UpdJob where
  m : Master
  cmd : Word
  src : Nat
  deriving DecidableEq, Repr

/-- What the boot ROM started (R588, R594, R595). -/
inductive BootMode where
  | firmware | recovery | loader
  deriving DecidableEq, Repr

/-- The update controller behind its registers: the bitmap of each target (bit b for block b), the command that runs, what
was started and which loader copy, the digest of the running firmware, in recovery and in the loader the chunks held
by block and their bytes by chunk, whether the boot ROM has run since the last start, whether an import waits for its
ACTIVATE (R602), and why recovery was entered. -/
structure Upd where
  maps : Kv Nat
  job : Option UpdJob
  mode : BootMode
  loader : Option Nat
  digest : Bytes
  held : Kv Nat
  chunks : Kv Bytes
  booted : Bool
  imported : Bool
  cause : Nat
  deriving DecidableEq, Repr

/-- An `OFFER` of the gateway without its answer: transaction, interface, how often it was sent, and when. -/
structure Offer where
  txn : Nat
  iface : Nat
  tries : Nat
  at_ : Nat
  deriving DecidableEq, Repr

/-- Aqene (R603-R607): agreements and what was answered to an `OFFER`, each major and features by party and interface;
the gateway's own offers; the last message of a party with its answer; the last transaction number. -/
structure Aqn where
  agree : Kv (Nat × Nat)
  answered : Kv (Nat × Nat)
  offers : Kv Offer
  last : Kv (Bytes × Bytes)
  txn : Nat
  deriving DecidableEq, Repr

/-- The whole machine. -/
structure State where
  regs : Kv Word
  mem : List Host.Cell
  hostMem : List Host.Cell
  sys : Sys
  fox : Fox
  aud : Aud
  qs : Kv Queue
  swc : Swc
  tbl : Tbl
  tim : Tim
  grd : Grd
  alv : Alv
  pwr : Pwr
  hbr : Hbr
  rng : Rng
  sig : Sig
  ldg : Ldg
  cip : Cip
  key : Key
  bus : Bus
  ple : Ple
  upd : Upd
  aqn : Aqn
  out : List Output
  freeCtr : Nat
  pending : List Instr
  deriving DecidableEq, Repr

/-- The machine right after reset: every register at its reset value (the register file lists none), memories with
nothing listed, every block as its chapter leaves it after a cold power-on.
[DESIGN CHOICE, assumption 1 and 4 and 6 and 7] -/
def State.reset : State where
  regs := []
  mem := []
  hostMem := []
  sys := ⟨.idle, [], [], [], [], [], 0, false, [], []⟩
  fox := ⟨[], [], [], [], [], [], [], [], [], .none, .none, .none, []⟩
  aud := ⟨[], [], 0, 0, 0, 0, [], 0, false⟩
  qs := []
  swc := ⟨[], 0, [], [], [], [], [], [], [], [], [], [], []⟩
  tbl := ⟨Bank.empty, Bank.empty, [], [], [], [], [], [], [], 0, [], [], .none, [], .none⟩
  tim := ⟨TimeBase.start 0, TimeBase.start 0, TimeBase.start 0, TimeBase.start 0, [], [], .none, false, false, .none,
    .none, .none, .none, 0, true, 0, []⟩
  grd := ⟨[], [], [], [], [], [], .none, []⟩
  alv := ⟨.none, .none, 0, .none, 0, false, false, .none, 0, .none, false, false⟩
  pwr := ⟨.run, .run, [], .none, [], 0, false, some 0, [], 0, .none, false, 0⟩
  hbr := ⟨[], [], [], 0⟩
  rng := ⟨[], [], []⟩
  sig := ⟨SigBank.empty, SigBank.empty, 0, [], [], [], [], .none, [], [], .none, .none, [], []⟩
  ldg := ⟨[], 0, 0, 0, .none, .none, [], [], false, .none, false⟩
  cip := ⟨[], [], [], [], [], .none, [], [], []⟩
  key := ⟨.none, .none, false, false, false, []⟩
  bus := ⟨[], [], [], [], 0, [], []⟩
  ple := ⟨⟨[], [], []⟩, ⟨[], [], []⟩, 0, 0, 0, Motion.rest, .none, .none, [], false, .none, [], [], [], .none, 0, 0⟩
  upd := ⟨[], .none, .firmware, .none, [], [], [], false, false, 0⟩
  aqn := ⟨[], [], [], [], 0⟩
  out := []
  freeCtr := 0
  pending := []

end Sys2Proof.Machine
end

