-- ==== Sys2Proof/Machine/Operands.lean ====
section
/-! DEFINITION. Addresses: windows, rows, indices, domains, reset values; and masters: secure, internal, partition
(R16, R20, R24, R27-R36, R75, R111, R615). -/

namespace Sys2Proof.Machine

/-- Blocks of 64 KiB windows: number, first character codes of BLK_ID (R75), power domain (R16), parameters.
[DESIGN CHOICE, assumption 5] -/
structure Block where
  win : Nat
  code : Nat
  domain : Nat
  params : List Nat
  deriving DecidableEq, Repr

/-- The 64 KiB windows of R27, with BLK_PARAM0-5 as the owning chapters give them.
[DESIGN CHOICE, assumption 5; DEDUCED, assumption 145] -/
def blocks : List Block := [
  ⟨0, 0x535953, 1, [0x00041008, 0x0008181D]⟩,
  ⟨1, 0x505752, 0, [0x10, 0x11]⟩,
  ⟨2, 0x504143, 2, []⟩,
  ⟨3, 0x415544, 2, [0x40000, 0x200]⟩,
  ⟨4, 0x4C4447, 2, [0x80000, 0x10, 0x100000]⟩,
  ⟨5, 0x414C56, 0, []⟩,
  ⟨6, 0x475244, 1, [0x800, 0x40, 0x40, 4, 0x78, 0]⟩,
  ⟨8, 0x535743, 3, [0xC000, 0x10000, 0x400, 0x100, 0x40, 0x100]⟩,
  ⟨9, 0x514D47, 3, []⟩,
  ⟨10, 0x54424C, 4, [0x10000, 0x4000, 0x8000, 0x4000, 0x1000, 0x1000]⟩,
  ⟨11, 0x434C53, 4, []⟩,
  ⟨16, 0x434950, 5, [0x200, 8, 0x1000, 8, 4, 0]⟩,
  ⟨17, 0x4B4559, 1, []⟩,
  ⟨20, 0x54494D, 15, []⟩,
  ⟨21, 0x504C45, 15, [0x800, 0x4000, 0x400, 4, 0x20000, 0]⟩,
  ⟨22, 0x534947, 15, [0x10000, 0x4000, 0x2000, 0x8000, 0x40000, 0]⟩,
  ⟨24, 0x484252, 9, [8, 0x400, 0x10, 0x404, 0x20, 0]⟩,
  ⟨25, 0x4D454D, 8, []⟩,
  ⟨26, 0x555044, 2, [0x10000, 0x600, 0x100, 0x20, 0x40, 3]⟩,
  ⟨54, 0x4D4543, 1, []⟩]

/-- The block of a 64 KiB window. -/
def blockOf? (w : Nat) : Option Block := blocks.find? fun b => b.win == w

/-- Window number and offset of a register-space address (R27); none outside every window. -/
def winOf (a : Nat) : Option (Nat × Nat) :=
  if a < 0x10000000 then none
  else if a < 0x10200000 then
    let w := (a - 0x10000000) / 0x10000
    if w < 32 ∧ (blockOf? w).isSome then some (w, a % 0x10000) else none
  else if a < 0x10274000 then some (64 + (a - 0x10200000) / 0x4000, a % 0x4000)
  else if 0x10300000 ≤ a ∧ a < 0x10330000 then some (96 + (a - 0x10300000) / 0x2000, a % 0x2000)
  else if 0x10340000 ≤ a ∧ a < 0x10348000 then some (120 + (a - 0x10340000) / 0x1000, a % 0x1000)
  else if 0x10360000 ≤ a ∧ a < 0x10370000 then some (54, a % 0x10000)
  else none

/-- Base address of a window (R27). -/
def winBase (w : Nat) : Nat :=
  if w < 64 then 0x10000000 + w * 0x10000
  else if w < 96 then 0x10200000 + (w - 64) * 0x4000
  else if w < 120 then 0x10300000 + (w - 96) * 0x2000
  else 0x10340000 + (w - 120) * 0x1000

/-- Offset of the fault page in a window (R27). -/
def faultOff (w : Nat) : Nat :=
  if w < 64 then 0xF000 else if w < 96 then 0x3F00 else if w < 120 then 0x1F00 else 0xF00

/-- Address of a fault-page register of a window. -/
def fltReg (w off : Nat) : Nat := winBase w + faultOff w + off

/-- The window number exists (R27). -/
def winOk (w : Nat) : Bool :=
  if w < 64 then (blockOf? w).isSome else w < 93 || (96 ≤ w && w < 128)

/-- Power domain of a window's block (R16). -/
def domainOf (w : Nat) : Nat :=
  if w < 64 then ((blockOf? w).map (·.domain)).getD 0
  else if w < 68 then 10 else if w < 76 then 11 else if w < 96 then 12
  else if w < 108 then 13 else if w < 120 then 14 else if w < 124 then 13 else 14

/-- Power domain of a switch port's line (R16): Ethernet, CAN and LIN ports; PD3 for the others. -/
def portDomain (p : Nat) : Nat :=
  if p < 29 then domainOf (64 + p)
  else if 64 ≤ p ∧ p < 88 then domainOf (96 + (p - 64))
  else if 96 ≤ p ∧ p < 104 then domainOf (120 + (p - 96))
  else 3

/-- A switch port index of R28. [DEDUCED, assumption 145] -/
def portUsed (p : Nat) : Bool :=
  p < 29 || (32 ≤ p && p < 40) || (48 ≤ p && p < 60) || (64 ≤ p && p < 88) || (96 ≤ p && p < 104)

/-- An external port: Ethernet, CAN or LIN. -/
def portLine (p : Nat) : Bool := p < 29 || (64 ≤ p && p < 88) || (96 ≤ p && p < 104)

/-- A port that frames may be sent to: used, and not an internal source (R29). -/
def portTarget (p : Nat) : Bool := portUsed p && !(56 ≤ p && p < 60)

/-- The kind of an external port: 0 Ethernet, 1 CAN, 2 LIN (R65). -/
def portKind (p : Nat) : Nat := if p < 64 then 0 else if p < 96 then 1 else 2

/-- A queue number of R111. [DEDUCED, assumption 145] -/
def queueOk (q : Nat) : Bool := q < 37 || (40 ≤ q && q < 80)

/-- An index of a row exists. -/
def idxOk (w : Nat) (k : IdxSet) (i : Nat) : Bool :=
  match k with
  | .all => true
  | .queue => queueOk i
  | .swcPort => portUsed i
  | .ethPort => i < 29
  | .linePort => portLine i
  | .swk => w < 104

/-- Register rows of a window after its header. -/
def rowsOf (w : Nat) : List Row :=
  match w with
  | 0 => rowsSYS | 1 => rowsPWR | 2 => rowsFOX | 3 => rowsAUD | 4 => rowsLDG | 5 => rowsALV
  | 6 => rowsGRD | 8 => rowsSWC | 9 => rowsQMG | 10 => rowsTBL | 11 => rowsCLS | 16 => rowsCIP
  | 17 => rowsKEY | 20 => rowsTIM | 21 => rowsPLE | 22 => rowsSIG | 24 => rowsHBR | 26 => rowsUPD
  | 54 => rowsMEC
  | _ => if 96 ≤ w ∧ w < 120 then rowsCAN else if 120 ≤ w ∧ w < 128 then rowsLIN else []

/-- The indices at which an offset meets a row. -/
def Row.hit (r : Row) (w off : Nat) : Option (Nat × Nat) :=
  if off < r.off then none
  else
    let d := off - r.off
    let i := d / r.s1
    let m := d % r.s1
    let j := m / r.s2
    if i < r.n1 ∧ j < r.n2 ∧ m % r.s2 = 0 ∧ idxOk w r.idx i then some (i, j) else none

/-- A register found: its row, its indices, its window and offset. -/
structure Loc where
  row : Row
  i : Nat
  j : Nat
  win : Nat
  off : Nat
  deriving DecidableEq, Repr

/-- The first row an offset meets. -/
def findRow (w off : Nat) : List Row → Nat → Option Loc
  | [], _ => none
  | r :: rs, o =>
    match r.hit w o with
    | some (i, j) => some ⟨r, i, j, w, off⟩
    | none => findRow w off rs o

/-- The register at an offset of a window: header, fault page or the block's own (R74, R437). -/
def locate (w off : Nat) : Option Loc :=
  if off < 0x80 then findRow w off rowsHeader off
  else if faultOff w ≤ off then findRow w off rowsFaultPage (off - faultOff w)
  else findRow w off (rowsOf w) off

/-- The register at a fabric address; none for a reserved offset or outside every window. -/
def regAt (a : Nat) : Option Loc :=
  match winOf a with
  | some (w, off) => locate w off
  | none => none

/-- Default reactions of the fault sources of a window: (source, code) (R464). -/
def defaultReact (w : Nat) : List (Nat × Nat) :=
  match w with
  | 0 => [(1, 1), (2, 1), (3, 0xC)]
  | 1 => [(1, 0xC), (2, 9), (3, 0xC)]
  | 2 => [(1, 1), (2, 1), (3, 1), (4, 1)]
  | 3 => [(1, 1), (2, 1)]
  | 4 => [(1, 1), (2, 1)]
  | 5 => [(1, 9), (2, 9), (3, 1), (4, 0xC)]
  | 6 => [(1, 0), (2, 1), (3, 1), (4, 1), (5, 0xC)]
  | 8 => [(1, 1), (2, 3)]
  | 9 => [(1, 1), (8, 1), (9, 1), (10, 0)]
  | 10 => [(1, 1), (2, 1)]
  | 11 => [(1, 1), (2, 1)]
  | 16 => [(1, 9), (2, 1), (3, 1)]
  | 17 => [(1, 1), (2, 0xC), (3, 0xC)]
  | 20 => [(1, 1), (2, 9), (3, 1)]
  | 21 => [(1, 1), (2, 1), (3, 9)]
  | 22 => [(1, 1), (2, 1), (3, 0)]
  | 24 => [(1, 1), (2, 1), (3, 1)]
  | 25 => [(1, 0), (2, 2), (3, 0xC)]
  | 26 => [(1, 1), (2, 1)]
  | 54 => [(1, 3), (2, 0xB)]
  | _ => if w < 96 then [(1, 1), (2, 1), (3, 1)] else [(1, 1)]

/-- Default reaction of one source. -/
def reactDefault (w src : Nat) : Nat :=
  (((defaultReact w).find? fun e => e.1 == src).map (·.2)).getD 0

/-- Reset value of FLT_REACTi (R464). -/
def reactReset (w i : Nat) : Nat :=
  (List.range 8).foldl (fun a j => a + (reactDefault w (8 * i + j)) * 16 ^ j) 0

/-- Three characters of BLK_ID for a window (R75). -/
def blockCode (w : Nat) : Nat :=
  if w < 64 then ((blockOf? w).map (·.code)).getD 0
  else if w < 96 then 0x455448 else if w < 120 then 0x43414E else 0x4C494E

/-- Reset value of TIM_PORTp_LAT (R293). -/
def latReset (p : Nat) : Nat :=
  if p < 4 then 0x14820750 else if p < 12 then 0x07990350
  else if p < 24 ∨ p = 28 then 0x09920570 else if p < 28 then 0x354819A0
  else if p < 68 then 0x0230017C else if p < 76 then 0x01B80118 else if p < 88 then 0x01F40154
  else 0x0E100960

/-- Reset value of a register, where its row gives one per block, per queue or per port.
[DESIGN CHOICE, assumption 4 and 5] -/
def Loc.reset (l : Loc) : Word :=
  if l.off < 0x80 then
    if l.off = 0 then word (blockCode l.win * 256 + 0x10)
    else if l.off = 4 then 0xC0000000#32
    else if 8 ≤ l.off ∧ l.off < 0x20 then
      word ((((blockOf? l.win).map (·.params)).getD []).getD l.i 0)
    else l.row.reset
  else if l.off = faultOff l.win + 8 + 4 * l.i ∧ faultOff l.win ≤ l.off ∧ l.off < faultOff l.win + 0x18 then
    word (reactReset l.win l.i)
  else if l.win = 0 ∧ l.off < 0x120 ∧ 0x110 ≤ l.off then 0xFFFFFFFF#32
  else if l.win = 8 ∧ 0x2000 ≤ l.off ∧ l.off < 0x4000 ∧ l.off % 0x40 = 0 then
    if l.i < 24 ∨ l.i = 28 then 5#32 else 1#32
  else if l.win = 9 then
    if l.off = 0x180 then 0x80000000#32
    else if l.off = 0x184 then 0x00040000#32
    else if l.off = 0x188 then 0x80000001#32
    else if l.off = 0x18C then 0x00080004#32
    else if l.off = 0x190 then 0x80000002#32
    else if l.off = 0x194 then 0x0004000C#32
    else if 0x4000 ≤ l.off ∧ l.off < 0x6000 ∧ l.off % 0x40 = 4 ∧ 8 ≤ l.i ∧ l.i < 64 then 0x78640000#32
    else l.row.reset
  else if l.win = 20 then
    if l.off = 0x140 then 0x01010007#32
    else if l.off = 0x180 then 0x01020007#32
    else if 0x1000 ≤ l.off ∧ l.off % 0x20 = 4 then word (latReset l.i)
    else l.row.reset
  else if l.win = 21 ∧ l.off = 0x100 then 1#32
  else if l.win = 16 ∧ l.row.wide ∧ l.j = 1 then 0#32
  else l.row.reset

/-- Reset value of the register at an address; zero where there is none. [DESIGN CHOICE, assumption 4] -/
def resetVal (a : Nat) : Word := ((regAt a).map Loc.reset).getD 0

/-- The value the register file holds for an address. [DESIGN CHOICE, assumption 10] -/
def State.reg (s : State) (a : Nat) : Word := kvGet s.regs a (resetVal a)

/-- The register file with a value under an address, in its one form: no entry equals the reset value.
[DESIGN CHOICE, assumption 10] -/
def regsPut (rs : Kv Word) (a : Nat) (v : Word) : Kv Word :=
  if v = resetVal a then kvDel rs a else kvSet rs a v

/-- Store a value in the register file. [DESIGN CHOICE, assumption 10] -/
def State.setReg (s : State) (a : Nat) (v : Word) : State := { s with regs := regsPut s.regs a v }

/-- Change a register by a function of its value. -/
def State.modReg (s : State) (a : Nat) (f : Word → Word) : State := s.setReg a (f (s.reg a))

/-- Field [hi:lo] of a register, as a number. -/
def State.regFld (s : State) (a hi lo : Nat) : Nat := fld (s.reg a) hi lo

/-- Bit b of a register. -/
def State.regBit (s : State) (a b : Nat) : Bool := bitOf (s.reg a) b

/-- Change field [hi:lo] of a register. -/
def State.setFld (s : State) (a hi lo v : Nat) : State := s.setReg a (putFld (s.reg a) hi lo v)

/-- Count one more in a saturating 32-bit register. -/
def State.incReg (s : State) (a : Nat) : State := s.setReg a (satInc (s.reg a))

/-! ### Masters -/

/-- The core number of an application core's origin (R30). -/
def coreOf (m : Master) : Option Nat :=
  if 0x10 ≤ m.origin ∧ m.origin < 0x18 then some (m.origin - 0x10) else none

/-- The partition of a master; 0 for a master that is no core (R34). -/
def partitionOf (s : State) (m : Master) : Nat :=
  match coreOf m with
  | some c => s.regFld R.SYS_PART_MAP (2 * c + 1) (2 * c)
  | none => 0

/-- Life-cycle state (R105). -/
def lifeCycle (s : State) : Nat := s.regFld R.SYS_LC_STATE 2 0

/-- The master is a secure master (R30-R32). -/
def secureMaster (s : State) (m : Master) : Bool :=
  if m.origin ≤ 2 then true
  else match coreOf m with
    | some _ => m.priv == Priv.machine && partitionOf s m == 0
    | none =>
      if m.origin = 0x20 then s.regBit R.SYS_PF_GRANT 0
      else if m.origin = 0x30 then lifeCycle s == 0 || lifeCycle s == 1 || lifeCycle s == 4
      else false

/-- The master is an internal master (R615). -/
def internalMaster (s : State) (m : Master) : Bool :=
  m.origin ≤ 2 || (0x08 ≤ m.origin && m.origin ≤ 0x0C) || (0x10 ≤ m.origin && m.origin < 0x18) ||
  (0x40 ≤ m.origin && m.origin < 0x50) || (m.origin == 0x30 && secureMaster s m)

/-- The master is a PCIe function, so that its access is inbound (R22). -/
def inbound (m : Master) : Bool := 0x20 ≤ m.origin && m.origin < 0x28

/-- The debug port is closed (R32). -/
def debugClosed (s : State) (m : Master) : Bool := m.origin == 0x30 && lifeCycle s == 5

/-- The partition of the master grants the window (R35). -/
def windowGranted (s : State) (m : Master) (w : Nat) : Bool :=
  match coreOf m with
  | some _ =>
    let p := partitionOf s m
    p == 0 || s.regBit (R.SYS_PART_WIN p (w / 32)) (w % 32)
  | none => true

/-- A power domain is powered. -/
def powered (s : State) (d : Nat) : Bool := s.regBit R.PWR_PD_STATUS d

/-- A power domain is in BLOCK reset. -/
def inReset (s : State) (d : Nat) : Bool := s.pwr.inReset.contains d

/-- A domain's blocks act: powered and out of BLOCK reset. -/
def alive (s : State) (d : Nat) : Bool := powered s d && !inReset s d

/-- The keeper as a master. -/
def keeper : Master := ⟨1, .machine⟩

/-- The policy engine as a master. -/
def foxMaster : Master := ⟨8, .machine⟩

end Sys2Proof.Machine
end

