-- ==== Sys2Proof/Machine/Ops.lean ====
section
/-! DEFINITION. Named operations over memory, time, counters, outputs and queue primitives (04_queue_primitives.md,
R20, R288-R291). -/

namespace Sys2Proof.Machine

/-! ### Memory -/

/-- What a byte of memory that nothing has written reads as. DESIGN CHOICE (assumption 2). -/
def blankByte : Byte := 0

/-- One byte of a memory. [DESIGN CHOICE, assumption 2] -/
def memGet (l : List Host.Cell) (a : Nat) : Byte := kvGet l a blankByte

/-- A memory with one byte stored, in its one form: no entry equals what an unlisted address reads as.
[DESIGN CHOICE, assumption 2] -/
def memPut (l : List Host.Cell) (a : Nat) (v : Byte) : List Host.Cell :=
  if v = blankByte then kvDel l a else kvSet l a v

/-- The one form of a memory: addresses strictly rising, no blank entry. [DESIGN CHOICE, assumption 2] -/
def memWf (l : List Host.Cell) : Bool := kvSorted l && l.all fun e => decide (e.2 ≠ blankByte)

/-- n bytes of a memory from an address. -/
def memRead (l : List Host.Cell) (a n : Nat) : Bytes := (List.range n).map fun i => memGet l (a + i)

/-- A memory with a byte string stored from an address. -/
def memWrite (l : List Host.Cell) (a : Nat) : Bytes → List Host.Cell
  | [] => l
  | b :: bs => memWrite (memPut l a b) (a + 1) bs

/-- Bytes of fabric memory. -/
def State.read (s : State) (a n : Nat) : Bytes := memRead s.mem a n

/-- Store bytes into fabric memory. -/
def State.write (s : State) (a : Nat) (bs : Bytes) : State := { s with mem := memWrite s.mem a bs }

/-- Bytes of host memory, by host address (R25). -/
def State.hostRead (s : State) (a n : Nat) : Bytes := memRead s.hostMem a n

/-- Store bytes into host memory, by host address. -/
def State.hostWrite (s : State) (a : Nat) (bs : Bytes) : State := { s with hostMem := memWrite s.hostMem a bs }

/-- First address of the outbound window (R20, R25). [DEDUCED, assumption 88] -/
def outboundBase : Nat := 0x800000000000

/-- Bytes at an address as an internal master sees it: the outbound window reaches host memory (R25). -/
def State.readAny (s : State) (a n : Nat) : Bytes :=
  if outboundBase ≤ a then s.hostRead (a - outboundBase) n else s.read a n

/-- Store bytes where an internal master addresses them. -/
def State.writeAny (s : State) (a : Nat) (bs : Bytes) : State :=
  if outboundBase ≤ a then s.hostWrite (a - outboundBase) bs else s.write a bs

/-! ### Outputs, free values, counters -/

/-- Something leaves the module. [DEDUCED, assumption 11; DESIGN CHOICE, assumption 146] -/
def State.emit (s : State) (o : Output) : State := { s with out := s.out ++ [o] }

/-- Step the counter that makes the next free value fresh. [DESIGN CHOICE, assumption 8] -/
def State.tickFree (s : State) : State := { s with freeCtr := s.freeCtr + 1 }

/-- Key of a mailbox counter: window, selector, and 32-bit slot of the part it is shown in. -/
def ctrKey (w sel slot : Nat) : Nat := (w * 0x10000 + sel) * 16 + slot

/-- A mailbox counter. -/
def State.ctr (s : State) (w sel slot : Nat) : Nat := kvGet s.sys.ctr (ctrKey w sel slot) 0

/-- Add to a counter that wraps at 2^64 (R166, R458). -/
def State.addCtr (s : State) (w sel slot n : Nat) : State :=
  { s with sys := { s.sys with ctr := kvMod s.sys.ctr (ctrKey w sel slot) 0 fun c => (c + n) % 2 ^ 64 } }

/-- Count one in a saturating 32-bit counter. -/
def State.satCtr (s : State) (w sel slot : Nat) : State :=
  { s with sys := { s.sys with ctr := kvMod s.sys.ctr (ctrKey w sel slot) 0 fun c => min (c + 1) 0xFFFFFFFF } }

/-- Add to a counter that wraps at 2^32 (R166). -/
def State.wrapCtr (s : State) (w sel slot n : Nat) : State :=
  { s with sys := { s.sys with ctr := kvMod s.sys.ctr (ctrKey w sel slot) 0 fun c => (c + n) % 2 ^ 32 } }

/-! ### Time -/

/-- 2^-32 ns in a nanosecond. -/
def frac32 : Nat := 4294967296

/-- Nanoseconds in a second. -/
def giga : Nat := 1000000000

/-- A time base by number. -/
def State.tb (s : State) (n : Nat) : TimeBase :=
  match n with | 0 => s.tim.tb0 | 1 => s.tim.tb1 | 2 => s.tim.tb2 | _ => s.tim.tb3

/-- Replace a time base. -/
def State.setTb (s : State) (n : Nat) (b : TimeBase) : State :=
  match n with
  | 0 => { s with tim := { s.tim with tb0 := b } }
  | 1 => { s with tim := { s.tim with tb1 := b } }
  | 2 => { s with tim := { s.tim with tb2 := b } }
  | _ => { s with tim := { s.tim with tb3 := b } }

/-- A base in whole nanoseconds. -/
def State.tbNs (s : State) (n : Nat) : Nat := (s.tb n).val / frac32

/-- TB3 in nanoseconds, the time against which timers run. [DEDUCED, assumption 14] -/
def State.now (s : State) : Nat := s.tim.tb3.val / frac32

/-- TB3 in microseconds. [DEDUCED, assumption 14] -/
def State.nowUs (s : State) : Nat := s.now / 1000

/-- TB3 in milliseconds. [DEDUCED, assumption 14] -/
def State.nowMs (s : State) : Nat := s.now / 1000000

/-- The compact timestamp of an instant in nanoseconds on base n (R291). -/
def compactOf (n t : Nat) : Nat := n * 2 ^ 62 + (t / giga % 2 ^ 30) * 2 ^ 32 + t % giga

/-- The base a compact timestamp names. -/
def compactBase (c : Nat) : Nat := c / 2 ^ 62 % 4

/-- A compact timestamp is valid (R291). -/
def compactOk (c : Nat) : Bool := c % 2 ^ 32 < giga

/-- Distance of two instants. -/
def absDiff (a b : Nat) : Nat := if a ≤ b then b - a else a - b

/-- The instant, in nanoseconds of its base, that a compact timestamp names beside the base's present value; an instant
before 0 is no instant of the base and is not picked (R291). [DEDUCED, assumption 68] -/
def expand (nowNs c : Nat) : Nat :=
  let span := 2 ^ 30
  let sec := nowNs / giga
  let s0 := sec - sec % span + c / 2 ^ 32 % span
  let t (x : Nat) := x * giga + c % 2 ^ 32
  let near (a b : Nat) := if absDiff (t b) nowNs ≤ absDiff (t a) nowNs then b else a
  let up := near s0 (s0 + span)
  let best := if span ≤ s0 ∧ absDiff (t (s0 - span)) nowNs < absDiff (t up) nowNs then s0 - span else up
  t best

/-- The instant a compact timestamp names on its own base, now. [DEDUCED, assumption 68] -/
def State.expand (s : State) (c : Nat) : Nat := Machine.expand (s.tbNs (compactBase c)) c

/-- What a capture latches: the four bases at the instant `ago` nanoseconds back, in 2^-32 ns (R293). -/
def State.latch (s : State) (ago : Nat) : List Nat := (List.range 4).map fun n => (s.tb n).val - ago * frac32

/-- What the reception of a frame on port p latches: the capture less RX_LAT, as at the connector (R292, R293).
[DEDUCED, assumption 152] -/
def State.latchRx (s : State) (p ago : Nat) : List Nat :=
  (s.latch ago).map fun v => v - s.regFld (R.TIM_PORT_LAT p) 31 16 * 2 ^ 30

/-- A latched instant on base n, compact; 0 for a frame that was not received (R216, R375). -/
def latchCompact (l : List Nat) (n : Nat) : Nat :=
  match l[n]? with
  | some v => compactOf n (v / frac32)
  | none => 0

/-- Quality code of a base's timestamps (R290). -/
def State.quality (s : State) (n : Nat) : Nat :=
  if n = 3 then (if s.regBit R.TIM_TB3_STATUS 0 then 6 else 0)
  else
    let b := s.tb n
    if b.hold || b.foxHold then 4
    else if b.holdover then 3
    else if b.asymUnres then 5
    else if b.locked then 1
    else if b.sampled then 2
    else 0

/-- A full timestamp of 16 bytes at value v (2^-32 ns) of base n; captured ones have FRAC a multiple of 0x4000 (R289). -/
def State.fullStamp (s : State) (n v : Nat) (captured : Bool) : Bytes :=
  let ns := v / frac32
  let f := v % frac32 / 65536
  let f := if captured then f / 0x4000 * 0x4000 else f
  leBytes 8 (ns / giga) ++ leBytes 4 (ns % giga) ++ leBytes 2 f ++
    [byte ((s.tb n).gen % 256), byte (n * 64 + s.quality n * 8)]

/-! ### CAN channels (R213) -/

/-- Hidden state of a CAN channel. -/
def State.canCh (s : State) (n : Nat) : CanCh := kvGet s.bus.can n CanCh.start

/-- CAN_STATUS.STATE: 0 error active, 1 error passive, 2 bus-off, 3 off. -/
def State.canState (s : State) (n : Nat) : Nat :=
  let c := s.canCh n
  if !s.regBit (R.CAN_CFG n) 0 then 3 else if c.busOff then 2 else if 127 < c.tec ∨ 127 < c.rec_ then 1 else 0

/-! ### Queue primitives (04_queue_primitives.md) -/

/-- A queue primitive. -/
def State.queue (s : State) (q : Nat) : Queue := kvGet s.qs q Queue.empty

/-- Replace a queue primitive. -/
def State.setQueue (s : State) (q : Nat) (v : Queue) : State := { s with qs := kvSet s.qs q v }

/-- Owner window of a queue (R111). -/
def queueOwner (q : Nat) : Nat :=
  match q with
  | 0 => 10 | 1 => 3 | 2 => 21 | 3 => 10 | 4 => 24 | 5 => 0 | 6 => 0 | 7 => 4
  | _ => if q < 37 then 64 + (q - 8) else if q < 64 then 96 + (q - 40) else 54

/-- Domain that holds a queue's contents (R107, R125). -/
def queueDomain (q : Nat) : Nat :=
  if 64 ≤ q then (if q < 72 then 13 else 14) else domainOf (queueOwner q)

/-- Hold-class queues (R111). -/
def queueHold (q : Nat) : Bool := q == 1 || q == 2 || q == 3 || q == 7 || 64 ≤ q

/-- Entry size in bytes (R111). -/
def queueEntry (q : Nat) : Nat :=
  match q with
  | 0 => 16 | 1 => 32 | 2 => 64 | 3 => 32 | 4 => 8 | 5 => 16 | 6 => 32 | 7 => 16
  | _ => if q < 64 then 24 else 32

/-- Ring depth exponent K (R107, R111); 0 for the queues that are always spill queues. -/
def queueK (q : Nat) : Nat :=
  match q with
  | 0 => 0 | 1 => 0 | 2 => 0 | 3 => 8 | 4 => 4 | 5 => 10 | 6 => 8 | 7 => 8
  | _ => if q < 64 then 4 else 6

/-- A spill slot may be bound to the queue (R111, R116). -/
def spillCapable (q : Nat) : Bool := q == 5 || q == 6 || (64 ≤ q && q < 80)

/-- The enabled spill slot of a queue (R114). -/
def State.spillSlot (s : State) (q : Nat) : Option Nat :=
  (List.range 8).find? fun k => s.regBit (R.QMG_SPILL_BIND k) 31 && s.regFld (R.QMG_SPILL_BIND k) 6 0 == q

/-- Entry size in a spill region: rounded up to a power of two (R112). -/
def spillEntry (q : Nat) : Nat :=
  let e := queueEntry q
  if e ≤ 8 then 8 else if e ≤ 16 then 16 else if e ≤ 32 then 32 else 64

/-- Capacity of a queue (R112, R114). -/
def State.queueCap (s : State) (q : Nat) : Nat :=
  match s.spillSlot q with
  | some k => 32 + s.regFld (R.QMG_SPILL_REGION k) 24 16 * 1048576 / spillEntry q
  | none => 2 ^ queueK q

/-- Depth of a queue: every reserved item (R109). -/
def Queue.depth (v : Queue) : Nat := v.items.length

/-- The queue is full. -/
def State.queueFull (s : State) (q : Nat) : Bool := s.queueCap q ≤ (s.queue q).depth

/-- FLUSHING: an item from before the mark is not resolved (R121). -/
def Queue.flushing (v : Queue) : Bool := v.items.any (·.marked)

/-- QPi_STATUS as it reads: the live bits and the held ones (R129). -/
def State.queueStatus (s : State) (q : Nat) : Word :=
  let v := s.queue q
  let w := putBit (s.reg (R.QP_STATUS q)) 0 (v.depth == 0)
  putBit (putBit w 1 (s.queueFull q)) 6 v.flushing

/-- Set a held bit of QPi_STATUS. -/
def State.setQStat (s : State) (q b : Nat) : State := s.modReg (R.QP_STATUS q) fun w => putBit w b true

/-- THR sets when the depth reaches a threshold other than 0; the peak follows the depth (R118, R124). -/
def State.noteDepth (s : State) (q : Nat) : State :=
  let d := (s.queue q).depth
  let s := if (s.reg (R.QP_PEAK q)).toNat < d then s.setReg (R.QP_PEAK q) (satWord d) else s
  let t := (s.reg (R.QP_THRESH q)).toNat
  if 0 < t ∧ t ≤ d then s.setQStat q 2 else s

/-- Remove the item at the front, moving stages up (R108). -/
def Queue.pop (v : Queue) : Queue :=
  { v with
    items := v.items.tail
    head := v.head - 1
    mid := if v.head = 0 then v.mid - 1 else v.mid }

/-- Remove the item at index i, wherever it is held. -/
def Queue.drop (v : Queue) (i : Nat) : Queue :=
  { v with
    items := v.items.eraseIdx i
    head := if i < v.head then v.head - 1 else v.head
    mid := if v.head ≤ i ∧ i < v.head + v.mid then v.mid - 1 else v.mid }

/-- Move entries as far as the stages have room: the head stage fills from the middle, or straight from the tail while
the middle holds nothing; what the tail still holds goes to the middle (R108). [DEDUCED, assumption 138] -/
def Queue.settle (v : Queue) : Queue :=
  let n := v.items.length
  let h := if v.mid = 0 then min 16 n else min 16 (v.head + v.mid)
  { v with head := h, mid := if v.mid = 0 ∧ n ≤ 32 then 0 else n - h }

/-- Make room in a full tail stage before a producer's word (R108). [DEDUCED, assumption 138] -/
def Queue.roomTail (spill : Bool) (v : Queue) : Queue :=
  if spill ∧ 16 ≤ v.items.length - v.head - v.mid then v.settle else v

/-- Bring an item to an empty head stage before a consumer reads (R108). [DEDUCED, assumption 138] -/
def Queue.roomHead (spill : Bool) (v : Queue) : Queue := if spill ∧ v.head = 0 then v.settle else v

/-- Put a whole item at the end of a queue that has room, unmarked. -/
def State.append (s : State) (q : Nat) (ws : List Word) : State :=
  let v := (s.queue q).roomTail (s.spillSlot q).isSome
  let t := if v.items.isEmpty then s.now else v.timer
  (s.setQueue q { v with items := v.items ++ [(⟨ws, true, false, 0, s.now⟩ : QItem)], timer := t }).noteDepth q

/-- A hardware producer's whole item into a flag-class queue: ignored with OVERRUN when full (R106). -/
def State.pushFlag (s : State) (q : Nat) (ws : List Word) : State :=
  if s.queueFull q then (s.setQStat q 3).incReg (R.QP_OVR_CNT q) else s.append q ws

/-- A consumer takes the first item, if it is wholly written: the item, and the queue after it.
[DEDUCED, assumption 148] -/
def State.take? (s : State) (q : Nat) : Option (List Word × State) :=
  let v := (s.queue q).roomHead (s.spillSlot q).isSome
  match v.items with
  | i :: _ =>
    if i.done then some (i.words, s.setQueue q { v.pop with timer := s.now, stranded := false })
    else none
  | [] => none

/-- The first item, if it is wholly written. -/
def State.peek? (s : State) (q : Nat) : Option (List Word) :=
  match (s.queue q).items with
  | i :: _ => if i.done then some i.words else none
  | [] => none

end Sys2Proof.Machine
end

