-- ==== Sys2Proof/Machine/Loss.lean ====
section
/-! DEFINITION. What a BLOCK reset takes (R11, R125, R165, R209, R239, R319, R354, R392, R416, R455, R503, R527, R542,
R554). -/

namespace Sys2Proof.Machine

/-- The domain whose BLOCK reset loses a register of class B: of the queue it serves for the queue-primitive registers
(R125, R128), of its window otherwise. -/
def Loc.lossDomain (l : Loc) : Nat :=
  if l.win = 9 ∧ 0x4000 ≤ l.off ∧ l.off < 0x8000 then queueDomain l.i else domainOf l.win

/-- Registers left by a reset that takes those for which p holds. -/
def regsLose (p : Loc → Bool) (rs : Kv Word) : Kv Word :=
  rs.filter fun e => match regAt e.1 with | some l => !p l | none => true

/-- A queue whose contents the BLOCK reset of domain d takes (R125). -/
def State.queueLost (s : State) (d q : Nat) : Bool := queueDomain q == d || (d == 3 && (s.spillSlot q).isSome)

/-- Queue primitives after a BLOCK reset: emptied, pending pops cancelled; held producers stay and proceed (R123). -/
def State.loseQueues (s : State) (d : Nat) : State :=
  { s with qs := s.qs.map fun e =>
      if s.queueLost d e.1 then (e.1, { Queue.empty with held := e.2.held, skip := e.2.skip }) else e }

/-- Domain of a producer, by the origin that names it (R16, R30). -/
def producerDomain (o : Nat) : Nat :=
  if 0x10 ≤ o ∧ o < 0x14 then 6 else if 0x14 ≤ o ∧ o < 0x18 then 7
  else if 0x40 ≤ o ∧ o < 0x48 then 13 else if 0x48 ≤ o ∧ o < 0x50 then 14
  else if o = 0x0A then 15 else if o = 0x0B then 4 else if o = 0x08 ∨ o = 0x09 ∨ o = 0x0C then 2
  else if 0x20 ≤ o ∧ o < 0x28 then 9 else 1

/-- A queue's unfinished items of a producer whose domain is reset are closed with TRUNCATED and discarded (R123). -/
def State.closeItems (s : State) (d q : Nat) : State :=
  let v := s.queue q
  let cut := v.items.filter fun i => !i.done && producerDomain i.prod == d
  if cut.isEmpty then s
  else
    let v := (List.range v.items.length).foldr (fun k v =>
      match v.items[k]? with
      | some i => if !i.done && producerDomain i.prod == d then v.drop k else v
      | none => v) v
    let s := (s.setQueue q v).setQStat q 5
    cut.foldl (fun s _ => s.incReg (R.QP_TRUNC_CNT q)) s

/-- The policy engine's state after a BLOCK reset of PD2: every rule inactive without undo (R71). -/
def Fox.lose (f : Fox) : Fox :=
  { f with held := [], active := [], cnt := [], saved := [], below := [], paceLost := [], overAt := none, lastShed := none }

/-- The switch core after a BLOCK reset of PD3: no frame, no copy; operational gate lists restart; a pending change is
lost (R165). [DEDUCED, assumption 132] -/
def Swc.lose (c : Swc) : Swc :=
  { c with
    frames := [], queues := [], tx := [], rx := [], deficit := [], turn := [], credit := [], creditAt := []
    gcl := c.gcl.map fun e => (e.1, { e.2 with change := none, entry := 0 })
    cb := [] }

/-- The tables after a BLOCK reset of PD4: pending-learn entries and walks go, policer buckets refill (R209). -/
def Tbl.lose (t : Tbl) : Tbl :=
  { t with
    pend := [], walks := [], mgo := none
    pol := t.pol.map fun e =>
      (e.1, { e.2 with c := leAt e.2.rcd 4 3 * 8000000, e := leAt e.2.rcd 12 3 * 8000000 }) }

/-- The time bases after a BLOCK reset of PD15: sample records, pairings and peer delays go, and a HOLD ends without TB2
(R317, R319). [DEDUCED, assumption 135] -/
def State.loseTime (s : State) : State :=
  let s := [0, 1, 2].foldl (fun s n =>
    let b := s.tb n
    let asym := b.hold && s.regFld (R.TIM_TB_CFG n) 2 1 == 0
    s.setTb n { b with
      hold := false, pre := [], during := [], asymAlarm := false, asymUnres := b.asymUnres || asym }) s
  { s with tim := { s.tim with pd := [], sync := [], pps := none, ppsDone := false, ppsLost := false, zda := none } }

/-- The guards after a BLOCK reset of PD1: buckets restart full on their next use (R455). [DEDUCED, assumption 49] -/
def Grd.lose (g : Grd) : Grd := { g with bucket := [], run := [], load := none }

/-- A copy back at the head of its queue. [DEDUCED, assumption 65] -/
def Swc.requeue (c : Swc) (x : Copy) : Swc :=
  { c with queues := kvMod c.queues (x.port * 8 + x.tc) [] fun l => x :: l }

/-- The switch core after a BLOCK reset of the domain of ports' lines: their links go, and on CAN and LIN the copies on
the wire or in a response buffer return to their heads (R237, R239). [DEDUCED, assumption 65] -/
def State.loseLines (s : State) (d : Nat) : State :=
  let mine (p : Nat) : Bool := portLine p && portDomain p == d
  let back := (s.swc.tx.filter fun e => 64 ≤ e.1 && mine e.1).map (·.2.copy)
  let held := (s.bus.lin.filter fun e => mine (96 + e.1)).flatMap fun e =>
    (match e.2.slot with | some x => x.copy.toList | none => []) ++ e.2.bufs.filterMap (·.2.copy)
  let swc := { s.swc with
    tx := s.swc.tx.filter fun e => !(64 ≤ e.1 && mine e.1)
    link := kvKeep (fun p => !mine p) s.swc.link }
  let swc := (back ++ held).foldr (fun x (c : Swc) => c.requeue x) swc
  { s with
    swc := swc
    bus := { s.bus with
      can := kvKeep (fun n => !mine (64 + n)) s.bus.can
      lin := kvKeep (fun n => !mine (96 + n)) s.bus.lin
      rx := s.bus.rx.filter fun x => !mine (64 + x.ch)
      tx := s.bus.tx.filter fun x => !mine (64 + x.ch)
      gone := s.bus.gone ++ s.bus.tx.filter fun x => mine (64 + x.ch) } }

/-- The signal plane after a BLOCK reset of PD15: a load ends with `TRUNCATED`, and arming, switch and triggers go
(R279, R281). -/
def State.loseSig (s : State) : State :=
  let s := if s.sig.load.isSome then s.setReg R.SIG_LD_STAT 0x700 else s
  { s with sig := { s.sig with load := none, switch := none, deferred := [], due := [] } }

/-- The placement engine after a BLOCK reset of PD15: the model and the pending orders go; banks, open-span records and
LAST stay (R352, R354). -/
def Ple.lose (p : Ple) : Ple :=
  { p with
    orders := [], mode := 0, mot := Motion.rest, tm := 0, tSpd := none, tPos := none, taken := [], trig := false
    lastUpd := none, load := none, lost := p.lost + (p.orders.filter fun o => !o.silent).length }

/-- The queue manager's rings after a BLOCK reset of PD3: unfinished chains, moderation and pending completions go
(R392). -/
def Rng.lose (r : Rng) : Rng := { r with chain := [], cq := r.cq.map fun e => (e.1, CqSt.none) }

/-- The tables after a BLOCK reset of PD4; a mailbox command that waits completes with `TRUNCATED` (R203); `first` is
TBL_MCMD1, the command's TAG, before the reset. [DEDUCED, assumption 49] -/
def State.loseTables (s : State) (first : Word) : State :=
  let s := if s.tbl.mgo.isSome then
      ((s.setReg R.TBL_MSTAT 0x80000007).setReg R.TBL_CMD_LAST (word (fld first 15 0 * 65536 + 0xFFFF))).setReg
        R.TBL_CMD_OPEN 0xFFFFFFFF
    else s
  { s with tbl := s.tbl.lose }

/-- The cipher cluster after a BLOCK reset of PD5: slots, SA records and jobs go (R503). [DEDUCED, assumption 49] -/
def Cip.lose (c : Cip) : Cip := { c with slots := [], sas := [], scs := [], job := none, sets := [] }

/-- The ledger after a BLOCK reset of PD2: a set that waited or was being pushed is lost, its kind kept (R519, R527). -/
def Ldg.lose (l : Ldg) : Ldg :=
  { l with set := none, lost := match l.set with | some x => some x.kind | none => l.lost }

/-- Hidden state of the blocks in domain d after its BLOCK reset; `first` as for `loseTables`.
[DEDUCED, assumption 49] -/
def State.loseBlocks (s : State) (d : Nat) (first : Word) : State :=
  let s := { s with sys := { s.sys with mbox := kvKeep (fun w => domainOf w != d) s.sys.mbox } }
  match d with
  | 1 => { s with grd := s.grd.lose, key := { s.key with att := none } }
  | 2 =>
    let s := if s.upd.job.isSome then s.setReg R.UPD_CMD_STAT 0x700 else s
    { s with fox := s.fox.lose, ldg := s.ldg.lose, upd := { s.upd with job := none } }
  | 3 => { s with swc := { s.swc.lose with waiting := [] }, rng := s.rng.lose }
  | 4 => s.loseTables first
  | 5 => { s with cip := s.cip.lose }
  | 9 => { s with hbr := ⟨[], [], [], s.hbr.tag⟩ }
  | 10 | 11 | 12 | 13 | 14 => s.loseLines d
  | 15 => let s := s.loseTime.loseSig; { s with ple := s.ple.lose }
  | _ => s

/-- A BLOCK reset of domain d begins: what it takes is lost, and the domain is in reset until it leaves (R542). -/
def State.blockReset (s : State) (d : Nat) : State :=
  let first := s.reg (R.TBL_MCMD 1)
  let s := s.loseQueues d
  let s := (s.qs.map (·.1)).foldl (fun s q => s.closeItems d q) s
  let p (l : Loc) : Bool := l.row.keeps == .b &&
    (l.lossDomain == d || (d == 3 && l.win == 9 && 0x4000 ≤ l.off && l.off < 0x8000 && (s.spillSlot l.i).isSome))
  let s := { s with regs := regsLose p s.regs }
  let s := s.loseBlocks d first
  { s with pwr := { s.pwr with inReset := if inReset s d then s.pwr.inReset else s.pwr.inReset ++ [d] } }

end Sys2Proof.Machine
end

