-- ==== Sys2Proof/Machine/Flags.lean ====
section
/-! DEFINITION. Event status bits and the event queue (R44), interrupt lines and their delivery (R37-R43), the stop of
ALIVE_OUT (R434, R435, R450), and the fault pages (R438-R447). -/

namespace Sys2Proof.Machine

/-! ### Interrupt lines -/

/-- Address of a window's event status register; its enable register lies 4 above it. -/
def evtStatus (w : Nat) : Option Nat :=
  match w with
  | 1 => some R.PWR_EVT_STATUS | 2 => some R.FOX_EVT_STATUS | 3 => some R.AUD_EVT_STATUS
  | 4 => some R.LDG_EVT_STATUS | 5 => some R.ALV_EVT_STATUS | 6 => some R.GRD_EVT_STATUS
  | 8 => some R.SWC_EVT_STATUS | 9 => some R.QMG_RING_EVT_STATUS | 10 => some R.TBL_EVT_STATUS
  | 11 => some R.CLS_EVT_STATUS | 16 => some R.CIP_EVT_STATUS | 17 => some R.KEY_EVT_STATUS
  | 20 => some R.TIM_EVT_STATUS | 21 => some R.PLE_EVT_STATUS | 22 => some R.SIG_EVT_STATUS
  | 24 => some R.HBR_EVT_STATUS | 26 => some R.UPD_EVT_STATUS | 54 => some R.MEC_EVT_STATUS
  | _ =>
    if 96 ≤ w ∧ w < 120 then some (R.CAN_EVT_STATUS (w - 96))
    else if 120 ≤ w ∧ w < 128 then some (R.LIN_EVT_STATUS (w - 120))
    else none

/-- Queues a window owns (R111). -/
def queuesOf (w : Nat) : List Nat :=
  match w with
  | 0 => [5, 6] | 3 => [1] | 4 => [7] | 10 => [0, 3] | 21 => [2] | 24 => [4]
  | 54 => List.range' 64 16
  | _ =>
    if 64 ≤ w ∧ w < 93 then [8 + (w - 64)]
    else if 96 ≤ w ∧ w < 120 then [40 + (w - 96)]
    else []

/-- A queue asserts its owner's QUEUE line (R120). -/
def State.queueLine (s : State) (q : Nat) : Bool :=
  let st := s.reg (R.QP_STATUS q)
  let c := s.reg (R.QP_CFG q)
  (bitOf st 2 && bitOf c 28) || (bitOf st 3 && bitOf c 29) || (bitOf st 4 && bitOf c 30)

/-- Level of interrupt line w x 4 + kind (R37); low in a gated domain (R41). -/
def State.lineLevel (s : State) (w kind : Nat) : Bool :=
  powered s (domainOf w) &&
  match kind with
  | 0 =>
    let f := s.reg (fltReg w 0x20)
    bitOf f 8 && 1 ≤ fld f 14 12
  | 1 =>
    match evtStatus w with
    | some a => (s.reg a &&& s.reg (a + 4)) != 0
    | none => false
  | _ => (queuesOf w).any s.queueLine

/-- A PCIe function takes messages: enabled, with bus mastering, the link up (R43). [DEDUCED, assumption 86] -/
def State.fnReady (s : State) (f : Nat) : Bool := s.hbr.ready.contains f

/-- The error mailbox of the host bridge takes an error: the first is kept, others are counted (R410, R411). -/
def State.hbrCapture (s : State) (lo hi info : Word) : State :=
  if s.regBit R.HBR_ERR_STATUS 0 then s.incReg R.HBR_ERR_MERGED
  else
    (((s.setReg R.HBR_ERR_STATUS 1).setReg R.HBR_ERR_ADDR_LO lo).setReg R.HBR_ERR_ADDR_HI hi).setReg R.HBR_ERR_INFO info

/-- HBR_ERR_INFO of an error (R418). -/
def hbrInfo (origin : Nat) (outbound nonposted : Bool) (code size : Nat) : Word :=
  word (origin + (if outbound then 256 else 0) + (if nonposted then 512 else 0) + code * 4096 + min size 127 * 65536)

/-- Entries of a function's MSI-X table (R403). [DEDUCED, assumption 86] -/
def msixEntries (f : Nat) : Nat := if f = 0 then 576 else 64

/-- Capture a message whose vector lies beyond its function's table (R403); the spec states neither its address nor its
origin. [DESIGN CHOICE, assumption 85] -/
def State.badVector (s : State) : State :=
  let k := s.freeCtr
  let info := hbrInfo ((Config.freeWord (k + 2)).toNat % 256) true false 8 4
  ((s.tickFree.tickFree.tickFree.satCtr 24 1 7).hbrCapture (Config.freeWord k) (Config.freeWord (k + 1) &&& 0xFFFF#32) info)

/-- Post the message of an asserted line to its PCIe target, if its route names one that takes messages: what the state
becomes, and whether the message was refused for its vector (R41, R43, R403). [DEDUCED, assumption 84] -/
def State.postLine (s : State) (line : Nat) : State × Bool :=
  let r := s.reg (R.SYS_IRQ_ROUTE line)
  let f := fld r 28 26
  let sent := kvGet s.sys.irqSent line []
  if bitOf r 31 && fld r 30 29 == 2 && !sent.contains f then
    let s := { s with sys := { s.sys with irqSent := kvSet s.sys.irqSent line (f :: sent) } }
    if !s.fnReady f then (s, false)
    else if fld r 25 16 < msixEntries f then (s.emit (.msix f (fld r 25 16)), false)
    else (s.badVector, true)
  else (s, false)

/-- Insert into a sorted list of line numbers. -/
def lineIns (n : Nat) : List Nat → List Nat
  | [] => [n]
  | k :: l => if n < k then n :: k :: l else if n = k then k :: l else k :: lineIns n l

/-- Bring one line to its level; a rising edge posts its message (R41). The flag tells of a refused vector. -/
def State.moveLine (s : State) (w kind : Nat) : State × Bool :=
  let line := w * 4 + kind
  let up := s.sys.irqUp.contains line
  if s.lineLevel w kind then
    if up then (s, false) else ({ s with sys := { s.sys with irqUp := lineIns line s.sys.irqUp } }).postLine line
  else if up then ({ s with sys := { s.sys with
    irqUp := s.sys.irqUp.filter (· != line), irqSent := kvDel s.sys.irqSent line } }, false)
  else (s, false)

/-- An event-queue item (R44). [DEDUCED, assumption 35] -/
def eventItem (time w b seq : Nat) : List Word :=
  [word time, word (time / 2 ^ 32), word (w + 256 * b), word seq]

/-- Set bit b of a window's event status: whether it went from 0 to 1 while enabled, and then its item is offered to the
event queue; SEQ advances whether or not it is taken (R44). [DEDUCED, assumption 35] -/
def State.setEvent (s : State) (w b : Nat) : State × Bool :=
  match evtStatus w with
  | none => (s, false)
  | some a =>
    let was := s.regBit a b
    let s := s.setReg a (putBit (s.reg a) b true)
    if was || !s.regBit (a + 4) b || !powered s (domainOf w) then (s, false)
    else
      let n := (s.sys.evSeq + 1) % 2 ^ 32
      let s := { s with sys := { s.sys with evSeq := n } }
      (s.pushFlag 5 (eventItem (compactOf 3 s.now) w b n), true)

/-- Bring one line to its level, and raise the bridge's event ERR where its message had no such vector: a further refusal
is then only counted, since the event stands (R41, R403, R410). -/
def State.evalLine (s : State) (w kind : Nat) : State :=
  let (s, bad) := s.moveLine w kind
  if bad then
    let (s, up) := s.setEvent 24 0
    if up then ((s.moveLine 0 2).1.moveLine 24 1).1 else s
  else s

/-- Bring a window's three lines to their levels, lowest first (R43). -/
def State.evalWindow (s : State) (w : Nat) : State := ((s.evalLine w 0).evalLine w 1).evalLine w 2

/-- Bring the QUEUE line of a queue's owner to its level. -/
def State.evalQueue (s : State) (q : Nat) : State := s.evalLine (queueOwner q) 2

/-! ### Event bits -/

/-- Raise bit b of a window's event status (R44). [DEDUCED, assumption 35] -/
def State.raise (s : State) (w b : Nat) : State :=
  let (s, up) := s.setEvent w b
  if up then (s.evalQueue 5).evalLine w 1 else s

/-- An error for the bridge's error mailbox, with event ERR (R410). -/
def State.hbrError (s : State) (addr origin : Nat) (outbound nonposted : Bool) (code size : Nat) : State :=
  (s.hbrCapture (word addr) (word (addr / 2 ^ 32 % 65536)) (hbrInfo origin outbound nonposted code size)).raise 24 0

/-- Push a hardware producer's item into a flag-class queue and bring its owner's line to its level. -/
def State.push (s : State) (q : Nat) (ws : List Word) : State := (s.pushFlag q ws).evalQueue q

/-! ### Safe state and the alive signal -/

/-- Ordinal of a guarded port in the safe-state store (R429). -/
def portOrd (p : Nat) : Nat := if p < 64 then p else if p < 96 then p - 64 + 29 else p - 96 + 53

/-- The ports that have a guard (R421). -/
def guardedPorts : List Nat := List.range 29 ++ List.range' 64 24 ++ List.range' 96 8

/-- ALIVE_OUT toggles. -/
def State.toggling (s : State) : Bool := s.regBit R.ALV_STATUS 0

/-- The bytes of a safe-state slot; none while unused (R429). -/
def State.safeSlot (s : State) (p k : Nat) : Option Bytes :=
  let r := kvGet s.grd.safe (portOrd p * 4 + k) []
  let n := leAt r 0 2
  if n = 0 then none else some (slice r 8 n)

/-- The line of a port can carry a frame: powered, link up on Ethernet, enabled and not bus-off on CAN, enabled on LIN,
and not CLOSED (R435). -/
def State.portCanSend (s : State) (p : Nat) : Bool :=
  alive s (portDomain p) && !s.regBit (R.GRD_PSTAT p) 16 &&
  (if p < 64 then (kvGet? s.swc.link p).isSome
   else if p < 96 then s.canState (p - 64) ≤ 1
   else s.regBit (R.LIN_CFG (p - 96)) 0)

/-- CAN format of a stored bus frame: its first byte's FORMAT field (R216). -/
def busFormat (bs : Bytes) : Nat := byteAt bs 4 % 8

/-- The channel's present PROTO carries the slot's format (R217, R435). -/
def State.slotFits (s : State) (p : Nat) (bs : Bytes) : Bool :=
  if p < 64 then true
  else if p < 96 then busFormat bs ≤ s.regFld (R.CAN_CFG (p - 64)) 2 1
  else busFormat bs == 3

/-- A frame is in transmission on a port's line: a copy, or the gateway's own LIN response. -/
def State.lineBusy (s : State) (p : Nat) : Bool :=
  (kvGet? s.swc.tx p).isSome ||
  (96 ≤ p && match (kvGet s.bus.lin (p - 96) LinCh.start).slot with
    | some x => x.data.isSome
    | none => false)

/-- Send the set of one port: the slots in order, or count it in SAFE_LOST; a frame in transmission completes first
(R435). [DEDUCED, assumption 90] -/
def State.sendSafeSet (s : State) (p : Nat) : State :=
  let n := s.regFld (R.GRD_PCFG p) 2 0
  let mark (s : State) (wait : Bool) : State :=
    { s with grd := { s.grd with run := kvSet s.grd.run p ⟨s.now, wait⟩ } }
  if n = 0 then s
  else if !s.portCanSend p then mark (s.satCtr 6 (0x1000 + p) 11) false
  else if s.lineBusy p then mark s true
  else
    let slots := (List.range n).filterMap (s.safeSlot p)
    let bad := slots.any fun b => !s.slotFits p b
    let s := (slots.filter (s.slotFits p)).foldl
      (fun s b => (s.emit (.safeFrame p b)).satCtr 6 (0x1000 + p) 10) s
    mark (if bad then s.satCtr 6 (0x1000 + p) 11 else s) false

/-- A set that waits for the frame in transmission on its port is sent when that has left (R435).
[DEDUCED, assumption 90] -/
def State.safeWaits (s : State) (p : Nat) : State :=
  match kvGet? s.grd.run p with
  | some r => if r.waiting && !s.lineBusy p && !s.toggling then s.sendSafeSet p else s
  | none => s

/-- The guards are applied and ALIVE_OUT does not toggle: safe-state sets are to be sent (R435). -/
def State.safeDue (s : State) : Bool := s.regBit R.GRD_STATUS 0 && alive s 1 && !s.toggling

/-- Every guarded port sends its set (R435); before APPLY nothing is sent. [DEDUCED, assumption 90] -/
def State.sendSafeSets (s : State) : State :=
  if s.regBit R.GRD_STATUS 0 && alive s 1 then guardedPorts.foldl State.sendSafeSet s else s

/-- Record a stop cause: a cause other than 0 stands until ALIVE_OUT starts again, and the output is held low from its
next scheduled edge (R450); the guards enter SAFE and the safe-state sets are sent (R434, R435). -/
def State.aliveStop (s : State) (cause win src : Nat) : State :=
  let was := s.toggling
  let st := s.reg R.ALV_STATUS
  if !was && fld st 11 8 != 0 then s
  else
    let st := putFld (putFld (putFld st 11 8 cause) 23 16 (if cause = 1 then win else 0)) 28 24
      (if cause = 1 then src else 0)
    let s := s.setReg R.ALV_STATUS (putFld st 0 0 0)
    let s := { s with alv := { s.alv with half := none, ending := s.alv.ending || was } }
    let s := s.setReg R.ALV_STATUS (putBit (s.reg R.ALV_STATUS) 2 false)
    if was then
      let s := (s.incReg R.ALV_STOP_CNT).raise 5 0
      (s.raise 6 2).sendSafeSets
    else s

/-! ### Fault pages -/

/-- Every window number of R27. -/
def windows : List Nat := (List.range 128).filter winOk

/-- A BLOCK reset of domain d begins, and the interrupt lines of its windows follow (R41, R542). -/
def State.resetDomain (s : State) (d : Nat) : State :=
  (windows.filter fun w => domainOf w == d).foldl State.evalWindow (s.blockReset d)

/-- Decide a chip reset: it waits for its saves, and ALIVE_OUT is low from this instant (R448, R546). The first decided
stands (R453). -/
def State.decideChipReset (s : State) (cause win src : Nat) : State :=
  let s := match s.pwr.chip with
    | some _ => s
    | none => { s with pwr := { s.pwr with chip := some ⟨cause, win, src⟩ } }
  let low := s.toggling || s.alv.ending
  let s := if low then (s.emit (.alive false)) else s
  let s := { s with alv := { s.alv with half := none, ending := false, edgeAt := if low then s.now else s.alv.edgeAt } }
  s.setReg R.ALV_STATUS (putBit (putBit (s.reg R.ALV_STATUS) 0 false) 2 false)

/-- Raise the non-maskable trap of a window's FAULT line (R42). [DESIGN CHOICE, assumption 13] -/
def State.trap (s : State) (w : Nat) : State :=
  let r := s.reg (R.SYS_IRQ_ROUTE (w * 4))
  if fld r 30 29 = 1 then s.emit (.nmi false (fld r 28 26)) else s.emit (.nmi true 0)

/-- The domain a block-reset reaction resets: for the microengine control window that of the microengine in INFO0 (R441).
[DEDUCED, assumption 142] -/
def reactDomain (w info0 : Nat) : Nat :=
  if w = 54 then (if info0 % 16 < 8 then 13 else 14) else domainOf w

/-- Take the interrupt, trap, reset and stop-ALIVE effects of a reaction (R441). [DEDUCED, assumption 142] -/
def State.react (s : State) (w src code info0 : Nat) (resets : Bool) : State :=
  let k := code % 8
  let s := if k = 2 then s.trap w else s
  let s := if k = 3 && resets then s.resetDomain (reactDomain w info0) else s
  let s := if k = 4 && resets then s.decideChipReset 5 w src else s
  if 8 ≤ code && resets then s.aliveStop 1 w src else s

/-- The 32-byte item of a capture (R440). -/
def faultItem (time w src flags seq : Nat) (info : List Word) : List Word :=
  [word time, word (time / 2 ^ 32), word (w + 256 * src + 65536 * flags), info.getD 0 0, info.getD 1 0, info.getD 2 0,
    info.getD 3 0, word seq]

/-- Reaction code of a source (R438). -/
def State.reaction (s : State) (w src : Nat) : Nat :=
  s.regFld (fltReg w (8 + 4 * (src / 8))) (4 * (src % 8) + 3) (4 * (src % 8))

/-- Capture an occurrence: the event opens, its item goes into the fault-event queue and, for a strong reaction, into the
fault history; its reaction is taken (R440, R446). [DEDUCED, assumption 142] -/
def State.capture (s : State) (w src : Nat) (info : List Word) (forced again : Bool) : State :=
  let code := s.reaction w src
  let t := compactOf 3 s.now
  let taken := if again then code % 8 else code
  let first := src + 256 + (if forced then 512 else 0) + (if again then 1024 else 0) + 4096 * taken
  let s := s.setReg (fltReg w 0x20) (word first)
  let s := (List.range 4).foldl (fun s i => s.setReg (fltReg w (0x24 + 4 * i)) (info.getD i 0)) s
  let s := (s.setReg (fltReg w 0x34) (word t)).setReg (fltReg w 0x38) (word (t / 2 ^ 32))
  let s := s.setReg R.SYS_FLT_SEQ (s.reg R.SYS_FLT_SEQ + 1)
  let seq := (s.reg R.SYS_FLT_SEQ).toNat
  let flags := taken + (if forced then 16 else 0) + (if again then 32 else 0)
  let item := faultItem t w src flags seq info
  let s := s.push 6 item
  let s := { s with sys := { s.sys with open_ := kvSet s.sys.open_ w item } }
  let s := if 2 ≤ code % 8 ∨ 8 ≤ code then s.write (0x41400000 + seq % 32768 * 32) (ofWords item) else s
  (s.evalLine w 0).react w src code (info.getD 0 0).toNat (!again)

/-- Merge an occurrence into the open event, taking any stronger reaction (R442). [DEDUCED, assumption 142] -/
def State.merge (s : State) (w src : Nat) (info : List Word) : State :=
  let code := s.reaction w src
  let f := s.reg (fltReg w 0x20)
  let taken := fld f 15 12
  let s := s.incReg (fltReg w 0x3C)
  let k := code % 8
  let s := s.setReg (fltReg w 0x20)
    (putFld f 15 12 (max k (taken % 8) + (if 8 ≤ taken ∨ 8 ≤ code then 8 else 0)))
  let s := s.evalLine w 0
  let s := if taken % 8 < k then s.react w src k (info.getD 0 0).toNat true else s
  if 8 ≤ code && taken < 8 then s.aliveStop 1 w src else s

/-- A fault source occurs: its status bit sets; it is captured, or merged while an event is open (R439-R442). -/
def State.fault (s : State) (w src : Nat) (info : List Word) (forced : Bool := false) : State :=
  let s := s.modReg (fltReg w 0) fun v => putBit v src true
  if s.regBit (fltReg w 0x20) 8 then s.merge w src info else s.capture w src info forced false

end Sys2Proof.Machine
end

