-- ==== Sys2Proof/Machine/Frames.lean ====
section
/-! DEFINITION. Frames as bytes: Ethernet headers and the rule key (R172, R173, R196), egress edits, bus headers, their
checks and durations (R216, R217, R220), and IEEE 1722 messages (R227, R228). -/

namespace Sys2Proof.Machine

/-! ### Ethernet -/

/-- A VLAN tag stands at an offset. -/
def vlanAt (bs : Bytes) (o : Nat) : Bool := beAt bs o 2 == 0x8100 || beAt bs o 2 == 0x88A8

/-- Offset of the EtherType after all VLAN tags. -/
def afterTags : Nat → Bytes → Nat → Nat
  | 0, _, o => o
  | n + 1, bs, o => if vlanAt bs o then afterTags n bs (o + 4) else o

/-- The outer tag's control field, where the frame is tagged. -/
def outerTag (bs : Bytes) : Option Nat := if vlanAt bs 12 then some (beAt bs 14 2) else none

/-- EtherType after all VLAN tags. -/
def etherType (bs : Bytes) : Nat := beAt bs (afterTags 8 bs 12) 2

/-- Offset of the R-TAG's EtherType, where the frame has one (R161). -/
def rtagAt (bs : Bytes) : Option Nat :=
  let o := afterTags 8 bs 12
  if beAt bs o 2 = 0xF1C1 then some o else none

/-- Offset of the EtherType that names the payload, after VLAN tags and an R-TAG. -/
def payloadType (bs : Bytes) : Nat :=
  match rtagAt bs with
  | some o => o + 6
  | none => afterTags 8 bs 12

/-- The IP version of a frame and the offset of its IP header; version 0 for none. -/
def ipOf (bs : Bytes) : Nat × Nat :=
  let o := payloadType bs
  match beAt bs o 2 with
  | 0x0800 => (4, o + 2)
  | 0x86DD => (6, o + 2)
  | _ => (0, o + 2)

/-- Length of an IPv4 header. -/
def ihl (bs : Bytes) (o : Nat) : Nat := byteAt bs o % 16 * 4

/-- One's complement sum of the 16-bit words of a byte string. -/
def onesSum (bs : Bytes) : Nat :=
  (List.range ((bs.length + 1) / 2)).foldl (fun a i =>
    let v := a + beAt bs (2 * i) 2
    v % 65536 + v / 65536) 0

/-- The IP header is valid: version, length and, for IPv4, its checksum (R173). -/
def ipValid (bs : Bytes) : Bool :=
  match ipOf bs with
  | (4, o) =>
    byteAt bs o / 16 == 4 && 20 ≤ ihl bs o && o + ihl bs o ≤ bs.length && onesSum (slice bs o (ihl bs o)) == 0xFFFF
  | (6, o) => byteAt bs o / 16 == 6 && o + 40 ≤ bs.length
  | _ => false

/-- TTL or hop limit. -/
def hopLimit (bs : Bytes) : Nat :=
  match ipOf bs with
  | (4, o) => byteAt bs (o + 8)
  | (6, o) => byteAt bs (o + 7)
  | _ => 0

/-- IP destination address. -/
def ipDst (bs : Bytes) : Bytes :=
  match ipOf bs with
  | (4, o) => slice bs (o + 16) 4
  | (6, o) => slice bs (o + 24) 16
  | _ => []

/-- What the parser takes from the IP layer on: flags, protocol, DSCP, source, destination, ports, rest (R196). -/
structure IpKey where
  flags : Nat
  proto : Nat
  dscp : Nat
  src : Bytes
  dst : Bytes
  ports : Bytes
  rest : Bytes

/-- The transport header: ports, and the 8 bytes after it. -/
def l4Key (bs : Bytes) (proto o : Nat) : Nat × Bytes × Bytes :=
  match proto with
  | 6 => (8, slice bs o 4, slice bs (o + byteAt bs (o + 12) / 16 * 4) 8)
  | 17 => (16, slice bs o 4, slice bs (o + 8) 8)
  | _ => (0, List.replicate 4 0, slice bs o 8)

/-- The key from the payload's EtherType on. -/
def ipKey (bs : Bytes) : IpKey :=
  match ipOf bs with
  | (4, o) =>
    let p := byteAt bs (o + 9)
    let frag := beAt bs (o + 6) 2 % 8192 != 0
    let o4 := o + ihl bs o
    let (f, ports, rest) := if frag then (0, List.replicate 4 0, slice bs o4 8) else l4Key bs p o4
    ⟨2 + f + (if frag then 32 else 0), p, byteAt bs (o + 1) / 4, slice bs (o + 12) 4 ++ List.replicate 12 0,
      slice bs (o + 16) 4 ++ List.replicate 12 0, ports, rest⟩
  | (6, o) =>
    let ext := byteAt bs (o + 6) == 44
    let p := if ext then byteAt bs (o + 40) else byteAt bs (o + 6)
    let frag := ext && beAt bs (o + 42) 2 / 8 != 0
    let o4 := if ext then o + 48 else o + 40
    let (f, ports, rest) := if frag then (0, List.replicate 4 0, slice bs o4 8) else l4Key bs p o4
    ⟨4 + f + (if frag then 32 else 0), p, beAt bs o 2 / 16 % 256 / 4, slice bs (o + 8) 16, slice bs (o + 24) 16, ports,
      rest⟩
  | (_, o) =>
    let avtp := beAt bs (o - 2) 2 == 0x22F0
    ⟨0, 0, 0, List.replicate 16 0, List.replicate 16 0, List.replicate 4 0, slice bs (if avtp then o + 4 else o) 8⟩

/-- The rule key of a frame on port i with its resolved priority and VID (R196). -/
def ruleKey (bs : Bytes) (i pcp dei vid : Nat) : Bytes :=
  let sec := etherType bs == 0x88E5
  let k := ipKey bs
  let flags := (if (outerTag bs).isSome then 1 else 0) + (if (rtagAt bs).isSome then 64 else 0) +
    (if sec then 128 else k.flags)
  slice bs 0 12 ++ beBytes 2 (pcp * 8192 + dei * 4096 + vid) ++ beBytes 2 (etherType bs) ++ [byte i, byte flags] ++
    (if sec then List.replicate 46 0
     else [byte k.proto, byte k.dscp] ++ k.src ++ k.dst ++ k.ports ++ k.rest)

/-- A frame with its outer tag removed. -/
def dropTag (bs : Bytes) : Bytes := if vlanAt bs 12 then bs.take 12 ++ bs.drop 16 else bs

/-- A frame with its outer tag set. -/
def setTag (bs : Bytes) (vid pcp : Nat) : Bytes :=
  if vlanAt bs 12 then putBytes bs 14 (beBytes 2 (pcp * 8192 + beAt bs 14 2 / 4096 % 2 * 4096 + vid))
  else bs.take 12 ++ beBytes 2 0x8100 ++ beBytes 2 (pcp * 8192 + vid) ++ bs.drop 12

/-- A frame with its R-TAG removed (R162). -/
def dropRtag (bs : Bytes) : Bytes :=
  match rtagAt bs with
  | some o => bs.take o ++ bs.drop (o + 6)
  | none => bs

/-- TTL or hop limit counted down, the IPv4 checksum updated incrementally (R173). -/
def countHop (bs : Bytes) : Bytes :=
  match ipOf bs with
  | (4, o) =>
    let m := beAt bs (o + 8) 2
    let m' := m - 256
    let c := 65535 - beAt bs (o + 10) 2 + (65535 - m) + m'
    let c := c % 65536 + c / 65536
    let c := c % 65536 + c / 65536
    putBytes (putBytes bs (o + 8) [byte (byteAt bs (o + 8) - 1)]) (o + 10) (beBytes 2 (65535 - c))
  | (6, o) => putBytes bs (o + 7) [byte (byteAt bs (o + 7) - 1)]
  | _ => bs

/-- An Ethernet frame with its egress edits made for port p (R132, R172, R173). -/
def Edits.onEth (e : Edits) (p : Nat) (bs : Bytes) : Bytes :=
  let bs := if e.popRtag then dropRtag bs else bs
  let bs := if e.hop then countHop bs else bs
  let bs := match e.da with | some a => putBytes bs 0 (slice a 0 6) | .none => bs
  let bs := match e.sa with | some a => putBytes bs 6 (slice a 0 6) | .none => bs
  match e.tagOp with
  | 1 => dropTag bs
  | 2 => setTag bs e.vid e.pcp
  | 3 => if e.untag.testBit p then dropTag bs else setTag bs e.vid e.pcp
  | _ => bs

/-- An Ethernet frame padded to 60 bytes (R132). -/
def padEth (bs : Bytes) : Bytes := bs ++ List.replicate (60 - bs.length) 0

/-! ### Bus frames (R216) -/

/-- The fields of a stored bus frame. -/
structure BusHdr where
  id : Nat
  ide : Bool
  rtr : Bool
  format : Nat
  brs : Bool
  dlc : Nat
  len : Nat
  channel : Nat

/-- The header of a stored bus frame. -/
def busHdr (bs : Bytes) : BusHdr :=
  let w := leAt bs 0 4
  let f := byteAt bs 4
  ⟨w % 2 ^ 29, w / 2 ^ 29 % 2 == 1, w / 2 ^ 30 % 2 == 1, f % 8, f / 8 % 2 == 1, byteAt bs 7 % 16, leAt bs 12 2,
    byteAt bs 14⟩

/-- Payload of a stored bus frame. -/
def busData (bs : Bytes) : Bytes := slice bs 24 (leAt bs 12 2)

/-- FLAGS byte of a stored bus frame. -/
def busFlags (format : Nat) (brs esi sec sealed : Bool) : Nat :=
  format + (if brs then 8 else 0) + (if esi then 16 else 0) + (if sec then 32 else 0) + (if sealed then 64 else 0)

/-- A stored bus frame from its fields. -/
def mkBus (idw flags b5 b6 dlc af chan tag rx : Nat) (data : Bytes) : Bytes :=
  leBytes 4 idw ++ [byte flags, byte b5, byte b6, byte dlc] ++ leBytes 4 af ++ leBytes 2 data.length ++
    [byte chan, byte tag] ++ leBytes 8 rx ++ data

/-- Identifier word of a frame. -/
def idWord (id : Nat) (ide rtr : Bool) : Nat := id + (if ide then 2 ^ 29 else 0) + (if rtr then 2 ^ 30 else 0)

/-- Bytes that an FD DLC stands for. -/
def fdLen (dlc : Nat) : Nat :=
  if dlc ≤ 8 then dlc else match dlc with
    | 9 => 12 | 10 => 16 | 11 => 20 | 12 => 24 | 13 => 32 | 14 => 48 | _ => 64

/-- The DLC of an FD length. -/
def fdDlc (n : Nat) : Nat :=
  if n ≤ 8 then n else if n ≤ 12 then 9 else if n ≤ 16 then 10 else if n ≤ 20 then 11 else if n ≤ 24 then 12
  else if n ≤ 32 then 13 else if n ≤ 48 then 14 else 15

/-- FORMAT, LENGTH and DLC of a stored bus frame agree, and the payload is there (R216, R217). -/
def busAgrees (bs : Bytes) : Bool :=
  let h := busHdr bs
  24 ≤ bs.length && bs.length == 24 + h.len &&
  match h.format with
  | 0 => if h.rtr then h.len == 0 else h.len == min h.dlc 8
  | 1 => h.len == fdLen h.dlc
  | 2 => 1 ≤ h.len && h.len ≤ 2048
  | 3 => 1 ≤ h.len && h.len ≤ 8
  | 4 => 1 ≤ h.len && h.len ≤ 8192
  | _ => false

/-- A CAN channel implements a format (R210, R211). -/
def canCarries (n format : Nat) : Bool := format ≤ 1 || (format == 2 && 4 ≤ n && n ≤ 11)

/-- PROTO of a channel. -/
def State.canProto (s : State) (n : Nat) : Nat := s.regFld (R.CAN_CFG n) 2 1

/-- A CAN copy as its channel sends it, none where it fails the check of R217. -/
def State.canLine (s : State) (n : Nat) (bus : Bool) (bs : Bytes) : Option Bytes :=
  let h := busHdr bs
  let proto := s.canProto n
  if !bus || !busAgrees bs then none
  else
    let toClassic := h.format == 1 && h.len ≤ 8 && proto == 0 && s.regBit (R.CAN_CFG n) 9
    let format := if toClassic then 0 else h.format
    if 2 < format || proto < format || !canCarries n format then none
    else
      let brs := if format != 1 then false else match s.regFld (R.CAN_CFG n) 11 10 with
        | 1 => false | 2 => true | _ => h.brs
      let st := s.canState n
      let f := busFlags format brs (format == 1 && st == 1) (byteAt bs 4 / 32 % 2 == 1) (byteAt bs 4 / 64 % 2 == 1)
      some (putBytes bs 4 [byte f])

/-- Nominal bit time of a channel, in periods of 80 MHz. -/
def State.canNomBit (s : State) (n : Nat) : Nat :=
  let w := s.reg (R.CAN_NBT n)
  fld w 9 0 * (1 + fld w 17 10 + fld w 24 18)

/-- Data bit time of a channel for FD or XL, in periods of 80 MHz. -/
def State.canDataBit (s : State) (n : Nat) (xl : Bool) : Nat :=
  let w := s.reg (if xl then R.CAN_XBT n else R.CAN_DBT n)
  fld w 7 0 * (1 + fld w 15 8 + fld w 22 16)

/-- Reckoned duration of a CAN frame on a channel, in half nanoseconds (R220). -/
def State.canDuration (s : State) (n : Nat) (line : Bytes) : Nat :=
  let h := busHdr line
  let b := h.len
  let nom := s.canNomBit n
  match h.format with
  | 0 => if h.ide then (8 * b + 64 + (54 + 8 * b - 1) / 4) * nom * 25 else (8 * b + 44 + (34 + 8 * b - 1) / 4) * nom * 25
  | 1 =>
    let d := 5 + 8 * b + (4 + 8 * b) / 4 + (if b ≤ 16 then 27 else 32)
    (if h.ide then 57 else 34) * nom * 25 + d * (if h.brs then s.canDataBit n false else nom) * 25
  | _ => 44 * nom * 25 + ceilDiv ((116 + 8 * b) * 11) 10 * s.canDataBit n true * 25

/-! ### J1939 identifiers (R222) -/

/-- PGN of a 29-bit identifier: PDU1 without its destination. -/
def pgnOf (id : Nat) : Nat :=
  let p := id / 256 % 2 ^ 18
  if p / 256 % 256 < 240 then p - p % 256 else p

/-- A bus frame with the PDU1 destination address set (R182). -/
def Edits.onBus (e : Edits) (bs : Bytes) : Bytes :=
  match e.ps with
  | some a =>
    let h := busHdr bs
    if h.ide && h.id / 65536 % 256 < 240 then putBytes bs 1 [byte a] else bs
  | .none => bs

/-! ### IEEE 1722 tunnels (R227, R228) -/

/-- A message timestamp: an instant on one base seen on another, in nanoseconds. -/
def State.rebase (s : State) (c n : Nat) : Nat :=
  let t := s.expand c
  let now := s.tbNs (compactBase c)
  if now ≤ t then s.tbNs n + (t - now) else s.tbNs n - (now - t)

/-- The ACF message of a CAN or LIN frame; none for a format that IEEE 1722-2016 does not define.
[DEDUCED, assumption 63; PRESUMED, assumption 136] -/
def State.acfMessage (s : State) (brief : Bool) (tb : Nat) (bs : Bytes) : Option Bytes :=
  let h := busHdr bs
  let data := busData bs
  let pad := (4 - data.length % 4) % 4
  let stamp : Bytes := if brief then [] else beBytes 8 (s.rebase (leAt bs 16 8) tb)
  let mtv := if brief then 0 else 32
  let wrap (type_ : Nat) (rest : Bytes) : Bytes :=
    let q := (2 + rest.length) / 4
    beBytes 2 (type_ * 512 + q) ++ rest
  match h.format with
  | 0 | 1 =>
    let b := pad * 64 + mtv + (if h.rtr then 16 else 0) + (if h.ide then 8 else 0) + (if h.brs then 4 else 0) +
      (if h.format = 1 then 2 else 0) + byteAt bs 4 / 16 % 2
    some (wrap (if brief then 2 else 1) ([byte b, byte (h.channel % 32)] ++ stamp ++ beBytes 4 h.id ++ data ++
      List.replicate pad 0))
  | 3 =>
    let stamp := beBytes 8 (s.rebase (leAt bs 16 8) tb)
    some (wrap 3 ([byte (pad * 64 + 32 + (h.channel - 24) % 32), byte (h.id % 64)] ++ stamp ++ data ++
      List.replicate pad 0))
  | _ => none

/-- The enabled transmit tunnel of a stream. -/
def State.txTunnel (s : State) (stream : Nat) : Option Nat :=
  (List.range 256).find? fun n =>
    s.regBit (R.MEC_TXTUN n 0) 31 && s.regFld (R.MEC_TXTUN n 0) 15 0 == stream

/-- A bus copy scheduled on Ethernet port p, encapsulated; none where it is dropped. The entry's sequence number advances
(R227). [DESIGN CHOICE, assumption 62] -/
def State.encapsulate (s : State) (p stream : Nat) (bs : Bytes) : Option Bytes × State :=
  match s.txTunnel stream with
  | none => (none, s)
  | some n =>
    let w := s.reg (R.MEC_TXTUN n 0)
    match s.acfMessage (bitOf w 29) (fld w 25 24) bs with
    | none => (none, s)
    | some m =>
      let w2 := s.reg (R.MEC_TXTUN n 2)
      let da := leBytes 4 (s.reg (R.MEC_TXTUN n 1)).toNat ++ leBytes 2 (fld w2 15 0)
      let sid := leBytes 4 (s.reg (R.MEC_TXTUN n 3)).toNat ++ leBytes 4 (s.reg (R.MEC_TXTUN n 4)).toNat
      let seq := s.regFld (R.MEC_TXTUN n 5) 7 0
      let tag : Bytes := if bitOf w 28 then beBytes 2 0x8100 ++ beBytes 2 (fld w2 31 29 * 8192 + fld w2 27 16) else []
      let hdr : Bytes := if bitOf w 30 then
          [0x05#8, 0x80#8, byte seq, 0] ++ sid ++ List.replicate 8 0 ++ beBytes 2 m.length ++ [0, 0]
        else [0x82#8, byte (m.length / 256), byte m.length, byte seq] ++ List.replicate 8 0
      let s := s.setReg (R.MEC_TXTUN n 5) (word ((seq + 1) % 256))
      (some (da ++ beBytes 6 (Config.tunnelSource p).toNat ++ tag ++ beBytes 2 0x22F0 ++ hdr ++ m), s)

/-- A message found in a tunnel frame: a bus frame with its channel (0-23 CAN, 24-31 LIN), another type, or a malformed
one with the channel it names, if any. -/
inductive AcfItem where
  | frame (chan : Nat) (bs : Bytes)
  | skip
  | bad (chan : Option Nat)

/-- A CAN or LIN message of a tunnel frame as a stored bus frame; `rx` gives the Ethernet ingress timestamp
as a channel's RX_TIME. [DEDUCED, assumption 63] -/
def acfItem (type_ : Nat) (m : Bytes) (rx : Nat → Nat) : AcfItem :=
  let b := byteAt m 2
  let pad := b / 64
  let mtv := b / 32 % 2 == 1
  let time (chan off base : Nat) : Nat := if mtv then compactOf base (beAt m off 8) else rx chan
  match type_ with
  | 1 | 2 =>
    let body := if type_ = 1 then 12 else 4
    if m.length < body + 4 + pad then .bad (some (byteAt m 3 % 32))
    else
      let data := (m.drop (body + 4)).take (m.length - body - 4 - pad)
      let fd := b / 2 % 2 == 1
      let ide := b / 8 % 2 == 1
      let dlc := if fd then fdDlc data.length else data.length
      if (fd && fdLen dlc != data.length) || (!fd && 8 < data.length) then .bad (some (byteAt m 3 % 32))
      else
        .frame (byteAt m 3 % 32) (mkBus (idWord (beAt m body 4 % (if ide then 2 ^ 29 else 2 ^ 11)) ide (b / 16 % 2 == 1))
          (busFlags (if fd then 1 else 0) (b / 4 % 2 == 1) (b % 2 == 1) false false) 0 0 dlc 0 (byteAt m 3 % 32) 0
          (if type_ = 1 then time (byteAt m 3 % 32) 4 0 else rx (byteAt m 3 % 32)) data)
  | 3 =>
    if m.length < 13 + pad then .bad (some (24 + b % 32))
    else
      let data := (m.drop 12).take (m.length - 12 - pad)
      if data.isEmpty || 8 < data.length then .bad (some (24 + b % 32))
      else .frame (24 + b % 32) (mkBus (byteAt m 3 % 64) 3 0 0 1 0 (24 + b % 32) 0 (time (24 + b % 32) 4 0) data)
  | _ => .skip

/-- The messages of an ACF body, in order. -/
def acfItems : Nat → Bytes → (Nat → Nat) → List AcfItem
  | 0, _, _ => []
  | n + 1, bs, rx =>
    if bs.length < 4 then (if bs.isEmpty then [] else [.bad none])
    else
      let h := beAt bs 0 2
      let len := h % 512 * 4
      if len = 0 ∨ bs.length < len then [.bad none]
      else acfItem (h / 512) (bs.take len) rx :: acfItems n (bs.drop len) rx

/-- The messages of an Ethernet frame that a receive tunnel takes; malformed where it is no such frame. -/
def tunnelItems (bs : Bytes) (rx : Nat → Nat) : List AcfItem :=
  let o := payloadType bs
  if beAt bs o 2 != 0x22F0 then [.bad none]
  else
    let a := bs.drop (o + 2)
    match byteAt a 0 with
    | 0x82 =>
      let n := byteAt a 1 % 8 * 256 + byteAt a 2
      if a.length < 12 + n then [.bad none] else acfItems 512 ((a.drop 12).take n) rx
    | 0x05 =>
      let n := beAt a 20 2
      if a.length < 24 + n then [.bad none] else acfItems 512 ((a.drop 24).take n) rx
    | _ => [.bad none]

end Sys2Proof.Machine
end

