-- ==== Sys2Proof/Machine/Audit.lean ====
section
/-! DEFINITION. The change record: entries, the chain, the hold mark, refusals (R78, R80, R89-R99). -/

namespace Sys2Proof.Machine

/-- Entries the ring holds (R95). -/
def ringEntries : Nat := 262144

/-- Entries the pending buffer holds (R90). -/
def pendingMax : Nat := 512

/-- Entries not yet exported (R102). -/
def State.unexported (s : State) : Nat := (s.reg R.AUD_SEQ - s.reg R.AUD_EXP_SEQ).toNat

/-- The unexported count stands at or above the mark (R97). -/
def State.holding (s : State) : Bool := ringEntries - s.regFld R.AUD_CTRL 31 16 ≤ s.unexported

/-- The reserve is used up (R98). -/
def State.reserveOut (s : State) : Bool := ringEntries ≤ s.unexported

/-- A logged change can take its place in the pending buffer now (R90, R100, R103). [DEDUCED, assumption 24] -/
def State.auditReady (s : State) : Bool :=
  decide (s.aud.pend.length < pendingMax) && !inReset s 2 && !s.aud.writeFail

/-- PRIV byte of a master (R92). -/
def privByte (s : State) (m : Master) (rej safety : Bool) : Nat :=
  let p := match coreOf m with
    | some _ => (match m.priv with | .user => 0 | .supervisor => 1 | .machine => 3) * 64 + partitionOf s m * 16
    | none => 128
  p + (if rej then 8 else 0) + (if safety then 4 else 0)

/-- Bytes 0-25 of an entry (R91). -/
def entryBody (time origin priv target : Nat) (old new seq : Word) : Bytes :=
  leBytes 8 time ++ [byte origin, byte priv] ++ leBytes 4 target ++ leBytes 4 old.toNat ++ leBytes 4 new.toNat ++
    leBytes 4 seq.toNat

/-- The chain value after an entry (R94). -/
def chainNext (h : BitVec 256) (body : Bytes) : BitVec 256 :=
  BitVec.ofNat 256 (beVal (sha256 (beBytes 32 h.toNat ++ body)))

/-- Put one entry into the pending buffer: it takes the next sequence number and extends the chain (R90, R94). -/
def State.putEntry (s : State) (origin priv target : Nat) (old new : Word) : State :=
  let held := s.holding
  let out := s.reserveOut
  let seq := s.reg R.AUD_SEQ
  let t := compactOf 3 s.now
  let body := entryBody t origin priv target old new seq
  let h := chainNext s.aud.head body
  let e := body ++ (beBytes 32 h.toNat).take 6
  let s := { s with aud := { s.aud with pend := s.aud.pend ++ [e], head := h, headTime := t } }
  let s := s.setReg R.AUD_SEQ (seq + 1)
  let s := if s.holding && !held then s.raise 3 0 else s
  if s.reserveOut && !out then s.raise 3 1 else s

/-- Write the GAP record of the changes that went unlogged (R98). -/
def State.putGap (s : State) : State :=
  let n := s.aud.gap
  let s := { s with aud := { s.aud with gap := 0 } }
  (s.putEntry 0x0C 0x84 0xA0000001 0 (satWord n)).raise 3 2

/-- Make an entry; with the reserve used up the change goes unlogged and is counted (R98). -/
def State.addEntry (s : State) (origin priv target : Nat) (old new : Word) : State :=
  if s.reserveOut then
    let s := { s with aud := { s.aud with gap := s.aud.gap + 1 } }
    (s.incReg R.AUD_UNLOGGED_CNT).fault 3 1 []
  else
    let s := if 0 < s.aud.gap then s.putGap else s
    if s.reserveOut then
      let s := { s with aud := { s.aud with gap := s.aud.gap + 1 } }
      (s.incReg R.AUD_UNLOGGED_CNT).fault 3 1 []
    else s.putEntry origin priv target old new

/-- A change to a register is a safety change (R97). -/
def safetyWrite (m : Master) (a : Nat) : Bool :=
  m.origin ≤ 2 || m.origin == 8 || m.origin == 0xB ||
  (match winOf a with
   | some (w, off) => w == 3 || w == 5 || (faultOff w ≤ off && off < faultOff w + 0x100)
   | none => false)

/-- The entry of an accepted write to a logged register (R89). -/
def State.logWrite (s : State) (m : Master) (a : Nat) (old new : Word) : State :=
  s.addEntry m.origin (privByte s m false (safetyWrite m a)) a old new

/-- The entry of a change the policy engine makes (R70). -/
def State.logFox (s : State) (a : Nat) (old new : Word) : State := s.logWrite foxMaster a old new

/-- A security event (R93, R500). -/
def State.logSecurity (s : State) (m : Master) (code : Nat) (old new : Word) : State :=
  s.addEntry m.origin (privByte s m false true) (0xE0000000 + code % 2 ^ 24) old new

/-- An update step (R93, R610). -/
def State.logUpdate (s : State) (m : Master) (code : Nat) (old new : Word) : State :=
  s.addEntry m.origin (privByte s m false (m.origin ≤ 2)) (0xD0000000 + code % 2 ^ 24) old new

/-- A table command (R93). -/
def State.logTable (s : State) (m : Master) (table op ring status affected : Nat) (crc : Word) : State :=
  s.addEntry m.origin (privByte s m false (m.origin == 0xB || m.origin ≤ 2))
    (0xC0000000 + table * 2 ^ 24 + op * 2 ^ 16 + ring) (word (status + min affected 65535 * 65536)) crc

/-- The entry of a refusal, at most one per origin in a millisecond of TB3 (R80). [DEDUCED, assumption 24 and 30] -/
def State.logReject (s : State) (m : Master) (a : Nat) (old new : Word) : State :=
  if s.aud.rejMs.contains (m.origin, s.nowMs) then s.incReg R.AUD_REJ_SUPPR
  else
    let keep := s.aud.rejMs.filter fun e => e.2 == s.nowMs
    let s := { s with aud := { s.aud with rejMs := keep ++ [(m.origin, s.nowMs)] } }
    s.addEntry m.origin (privByte s m true true) a old new

/-- A refused write: the register keeps its value, LOCK_VIOL is set, the refusal is counted and recorded (R78, R447).
[DEDUCED, assumption 22 and 24] -/
def State.refuse (s : State) (m : Master) (a : Nat) (old new : Word) : State :=
  let w := match winOf a with | some (w, _) => w | none => 0
  let s := s.fault w 0 [word a, word (m.origin + 256 * privByte s m true true), new, 0]
  (s.incReg R.SYS_REJ_CNT).logReject m a old new

/-- A change the hold mark refuses: counted, no entry (R97). -/
def State.holdRefuse (s : State) : State := s.incReg R.AUD_HOLD_CNT

/-- The RESTART record (R93, R99). -/
def State.putRestart (s : State) (kind : Nat) (gap : Bool) : State :=
  s.addEntry 0x0C 0x84 0xA0000002 (word kind) (if gap then 1 else 0)

end Sys2Proof.Machine
end

