-- ==== Sys2Proof/Machine/Tables.lean ====
section
/-! DEFINITION. The forwarding tables: hashing, cuckoo insertion, walks, learning, the address-claim tracker, policers
(06_tables_and_learning.md R174-R201). -/

namespace Sys2Proof.Machine

/-! ### The tables and their records (R200) -/

/-- Bytes of a record's body (R200). -/
def bodyLen (t : Nat) : Nat :=
  match t with
  | 0 => 32 | 1 => 4 | 2 => 16 | 3 => 24 | 4 => 16 | 5 => 16 | 6 => 24 | 7 => 36 | 8 => 16 | 9 => 132 | _ => 32

/-- Bytes of a record: header, body, padding to a multiple of 8 (R200). -/
def recLen (t : Nat) : Nat := 8 + (bodyLen t + 7) / 8 * 8

/-- Hashed tables (R175). -/
def hashed (t : Nat) : Bool := t == 2 || t == 4 || t == 6 || t == 7

/-- Banked tables (R200). -/
def banked (t : Nat) : Bool := t == 0 || t == 1 || t == 2 || t == 3 || t == 5 || t == 9

/-- Opcodes a table permits (R200). -/
def opPermitted (t op : Nat) : Bool :=
  if op = 0 ∨ 10 < t then false
  else if op ≤ 4 then true
  else match t with
    | 2 => op == 7
    | 4 => op ≤ 7
    | 6 => op == 6 || op == 7
    | 7 => op == 6 || op == 7
    | 8 => op == 6
    | _ => false

/-- Number of indices of a direct table, or of slots of a hashed one (R182-R197, R205). -/
def tableSize (t : Nat) : Nat :=
  match t with
  | 0 => 65536 | 1 => 65536 | 2 => 16384 | 3 => 4096 | 4 => 32768 | 5 => 4096 | 6 => 16384 | 7 => 4096
  | 8 => 1024 | 9 => 4096 | _ => 8192

/-- The entries of a table, in the bank a command addresses; policers give their records. -/
def Tbl.table (x : Tbl) (t : Nat) (shadow : Bool) : Kv Bytes :=
  let b := if shadow then x.shd else x.act
  match t with
  | 0 => b.stream | 1 => b.busId | 2 => b.ext | 3 => b.vlan | 4 => x.mac | 5 => b.group | 6 => x.v4 | 7 => x.v6
  | 8 => x.track | 9 => b.rules | _ => x.pol.map fun e => (e.1, e.2.rcd)

/-- Replace the entries of a bank's table. -/
def Bank.setTable (b : Bank) (t : Nat) (m : Kv Bytes) : Bank :=
  match t with
  | 0 => { b with stream := m } | 1 => { b with busId := m } | 2 => { b with ext := m }
  | 3 => { b with vlan := m } | 5 => { b with group := m } | 9 => { b with rules := m } | _ => b

/-- Replace the entries of a table other than the policers'. -/
def Tbl.setTable (x : Tbl) (t : Nat) (shadow : Bool) (m : Kv Bytes) : Tbl :=
  match t with
  | 4 => { x with mac := m } | 6 => { x with v4 := m } | 7 => { x with v6 := m } | 8 => { x with track := m }
  | _ => if shadow then { x with shd := x.shd.setTable t m } else { x with act := x.act.setTable t m }

/-- Replace the entries of a table of the machine. -/
def State.setTable (s : State) (t : Nat) (shadow : Bool) (m : Kv Bytes) : State :=
  { s with tbl := s.tbl.setTable t shadow m }

/-- Replace the hidden state of the tables. -/
def State.setTbl (s : State) (x : Tbl) : State := { s with tbl := x }

/-- A write to a shadow structure: SIG_RI_ARM.OK clears and a pending switch is cancelled (R274, R279). -/
def State.shadowWritten (s : State) : State :=
  let s := s.modReg R.SIG_RI_ARM fun w => putBit w 0 false
  if s.sig.switch.isSome then
    (({ s with sig := { s.sig with switch := none } }).modReg R.SIG_EPOCH_CTRL fun w => putBit w 0 false).raise 22 3
  else s

/-! ### Hashed entries (R174-R178, R187, R192, R616) -/

/-- Key length (R175). -/
def keyLen (t : Nat) : Nat := if t = 7 then 20 else 8

/-- Offset of the word that holds VALID and GEN. -/
def flagOff (t : Nat) : Nat := match t with | 6 => 16 | 7 => 28 | _ => 8

/-- Bit of GEN in that word. -/
def genBit (t : Nat) : Nat := if t = 6 ∨ t = 7 then 28 else 29

/-- Offset of the word that holds MOVE_GEN in [23:16]. -/
def moveOff (t : Nat) : Nat := match t with | 6 => 20 | 7 => 32 | _ => 8

/-- Key of an entry. -/
def keyOf (t : Nat) (e : Bytes) : Bytes := slice e 0 (keyLen t)

/-- Seed generation of an entry. -/
def genOf (t : Nat) (e : Bytes) : Nat := (leAt e (flagOff t) 4 / 2 ^ genBit t) % 2

/-- MOVE_GEN of an entry. -/
def moveGen (t : Nat) (e : Bytes) : Nat := leAt e (moveOff t + 2) 1

/-- An entry with its generation set. -/
def withGen (t g : Nat) (e : Bytes) : Bytes :=
  putBytes e (flagOff t) (leBytes 4 (putFld (word (leAt e (flagOff t) 4)) (genBit t) (genBit t) g).toNat)

/-- An entry with its MOVE_GEN set. -/
def withMove (t n : Nat) (e : Bytes) : Bytes := putBytes e (moveOff t + 2) [byte n]

/-- Buckets of a hashed table (R175). -/
def buckets (t : Nat) : Nat := match t with | 2 => 4096 | 4 => 8192 | 6 => 4096 | _ => 1024

/-- Prefix length in an LPM key (R175). -/
def prefixLen (t : Nat) (key : Bytes) : Nat := byteAt key (if t = 7 then 16 else 4)

/-- Address of SEED0 of the hash control block that governs a key (R205). -/
def hcbOf (t : Nat) (key : Bytes) : Nat :=
  match t with
  | 2 => R.HCB_EXT_SEED0 | 4 => R.HCB_MAC_SEED0
  | 6 => R.HCB_V4_SEED0 (prefixLen t key) | _ => R.HCB_V6_SEED0 (prefixLen t key)

/-- Candidate buckets of a key under generation g (R175). -/
def State.buckets (s : State) (t g : Nat) (key : Bytes) : Nat × Nat :=
  let seed := s.reg (hcbOf t key + 4 * g)
  ((crc32c seed key).toNat % Machine.buckets t, (crc32c (~~~ seed) key).toNat % Machine.buckets t)

/-- Active generation, and whether the other is probed too (R176). -/
def State.hctrl (s : State) (t : Nat) (key : Bytes) : Nat × Bool :=
  let h := s.reg (hcbOf t key + 8)
  (fld h 0 0, bitOf h 1)

/-- Buckets a lookup probes (R176). -/
def State.probes (s : State) (t : Nat) (key : Bytes) : List Nat :=
  let (g, sh) := s.hctrl t key
  let (a, b) := s.buckets t g key
  let l := [a, b]
  if sh then let (c, d) := s.buckets t (1 - g) key; l ++ [c, d] else l

/-- The slot whose entry has the key, in one bucket. -/
def inBucket (t : Nat) (m : Kv Bytes) (key : Bytes) (b : Nat) : Option Nat :=
  (List.range' (4 * b) 4).find? fun k => match kvGet? m k with | some e => keyOf t e == key | none => false

/-- A lookup (R176): the slot of the entry whose key matches in a probed bucket. -/
def State.lookup (s : State) (t : Nat) (m : Kv Bytes) (key : Bytes) : Option Nat :=
  (s.probes t key).findSome? (inBucket t m key)

/-- The lowest free way of a bucket. -/
def freeWay (m : Kv Bytes) (b : Nat) : Option Nat :=
  (List.range' (4 * b) 4).find? fun k => (kvGet? m k).isNone

/-- A relocation moves an entry from one slot to another with MOVE_GEN incremented (R178). -/
def relocate (t : Nat) (m : Kv Bytes) (src dst : Nat) : Kv Bytes :=
  match kvGet? m src with
  | some e => kvDel (kvSet m dst (withMove t ((moveGen t e + 1) % 256) e)) src
  | none => m

/-- What a relocation does to an active walk (R181): a move to a slot before the cursor is carried.
[DEDUCED, assumption 53] -/
def Walk.note (k : Walk) (e : Bytes) (src dst : Nat) : Walk :=
  if k.cursor ≤ src ∧ dst < k.cursor then
    if k.carry.length < 256 then { k with carry := k.carry ++ [e] } else { k with ovf := true }
  else k

/-- The search for a path of victims: it ends at a bucket with a free way (R177). -/
def State.cuckoo (s : State) (t : Nat) (m : Kv Bytes) : Nat → Nat → List Nat → Option (List Nat × Nat)
  | 0, _, _ => none
  | n + 1, b, path =>
    let way := (s.tbl.seq + path.length) % 4
    let slot := 4 * b + way
    match kvGet? m slot with
    | none => none
    | some y =>
      let (p, q) := s.buckets t (genOf t y) (keyOf t y)
      let b' := if b = p then q else p
      let path := path ++ [slot]
      match freeWay m b' with
      | some f => some (path, f)
      | none => s.cuckoo t m n b' path

/-- The relocations that empty the first slot of a path, the last victim first: (source, destination) pairs (R177). -/
def pathMoves (path : List Nat) (free : Nat) : List (Nat × Nat) :=
  (path.zip (path.tail ++ [free])).reverse

/-- Run relocations over a table and its walk. -/
def runMoves (t : Nat) (mv : List (Nat × Nat)) (m : Kv Bytes) (w : Option Walk) : Kv Bytes × Option Walk :=
  mv.foldl (fun (x : Kv Bytes × Option Walk) (p : Nat × Nat) =>
    let e := kvGet x.1 p.1 []
    let x1 := relocate t x.1 p.1 p.2
    (x1, x.2.map fun k => k.note (withMove t ((moveGen t e + 1) % 256) e) p.1 p.2)) (m, w)

/-- Where a new key goes under generation g: into a free way of a candidate bucket, or along a path (R177). -/
def State.place (s : State) (t g : Nat) (m : Kv Bytes) (key : Bytes) : Option (Nat × List (Nat × Nat)) :=
  let (b0, b1) := s.buckets t g key
  match freeWay m b0 with
  | some k => some (k, [])
  | none =>
    match freeWay m b1 with
    | some k => some (k, [])
    | none =>
      match s.cuckoo t m 32 b0 [] with
      | some (path, free) => some (path.headD 0, pathMoves path free)
      | none => none

/-- Length-presence filter slots a prefix covers (R193). -/
def filterSlots (t : Nat) (key : Bytes) : List Nat :=
  let top := beAt key 0 2 / 16
  let l := prefixLen t key
  if l < 12 then List.range' top (2 ^ (12 - l)) else [top]

/-- Set a length in the filter slots of a prefix (R193). -/
def filterAdd (t : Nat) (f : Kv Nat) (key : Bytes) : Kv Nat :=
  (filterSlots t key).foldl (fun f k => kvMod f k 0 fun v => v ||| 2 ^ prefixLen t key) f

/-- Note a key in the filter of an LPM table. -/
def Tbl.noteLen (x : Tbl) (t : Nat) (key : Bytes) : Tbl :=
  if t = 6 then { x with filter4 := filterAdd t x.filter4 key }
  else if t = 7 then { x with filter6 := filterAdd t x.filter6 key }
  else x

/-- Key of a table's walk, by bank. -/
def walkKey (t : Nat) (shadow : Bool) : Nat := t + (if shadow then 16 else 0)

/-- Run relocations over a table, its active walk keeping up; a carry list that overflows counts once (R181).
[DEDUCED, assumption 53] -/
def State.walkMoves (s : State) (t : Nat) (shadow : Bool) (mv : List (Nat × Nat)) (m : Kv Bytes) : Kv Bytes × State :=
  let w0 := kvGet? s.tbl.walks (walkKey t shadow)
  let (m, w) := runMoves t mv m w0
  match w with
  | none => (m, s)
  | some k =>
    let s := s.setTbl { s.tbl with walks := kvSet s.tbl.walks (walkKey t shadow) k }
    (m, if k.ovf && !(w0.map (·.ovf)).getD false then (s.satCtr 10 1 6).raise 10 3 else s)

/-- Insert an entry into a hashed table under generation g: status, slot, machine (R177). -/
def State.hashInsert (s : State) (t g : Nat) (shadow replace : Bool) (e : Bytes) : Nat × Nat × State :=
  let m := s.tbl.table t shadow
  let key := keyOf t e
  match s.lookup t m key with
  | some k =>
    if replace then
      let old := kvGet m k []
      let e' := withMove t (moveGen t old) (withGen t (genOf t old) e)
      (0, k, (s.setTable t shadow (kvSet m k e')))
    else (2, k, s)
  | none =>
    match s.place t g m key with
    | some (k, mv) =>
      let (m, s) := s.walkMoves t shadow mv m
      let m := kvSet m k (withMove t 0 (withGen t g e))
      (0, k, s.setTbl ((s.tbl.setTable t shadow m).noteLen t key))
    | none => (3, 0, (s.satCtr 10 1 5).raise 10 0)

/-! ### Lookups the classifier makes -/

/-- The stream entry of a handle in a bank. -/
def Bank.streamOf (b : Bank) (h : Nat) : Bytes := kvGet b.stream h (List.replicate 32 0)

/-- A VLAN entry (R185). -/
def Bank.vlanOf (b : Bank) (v : Nat) : Bytes := kvGet b.vlan v (List.replicate 24 0)

/-- Port indices set in a 16-byte bitmap, ascending. -/
def portsOf (bs : Bytes) : List Nat := (List.range 128).filter fun p => byteAt bs (p / 8) / 2 ^ (p % 8) % 2 == 1

/-- Key of a MAC entry (R175). -/
def macKey (mac : Bytes) (fid : Nat) : Bytes := slice mac 0 6 ++ leBytes 2 (fid % 4096)

/-- An IPv4 or IPv6 address masked to a length, as its packed key (R175). -/
def lpmKey (t : Nat) (addr : Bytes) (l : Nat) : Bytes :=
  let n := if t = 7 then 16 else 4
  let a := beAt addr 0 n
  let b := 8 * n
  beBytes n (a / 2 ^ (b - l) * 2 ^ (b - l)) ++ [byte l, 0, 0, 0]

/-- Longest-prefix match through the length-presence filter (R193). -/
def State.lpm (s : State) (t : Nat) (addr : Bytes) : Option Bytes :=
  let f := kvGet (if t = 7 then s.tbl.filter6 else s.tbl.filter4) (beAt addr 0 2 / 16) 0
  let m := s.tbl.table t false
  let top := if t = 7 then 128 else 32
  ((List.range (top + 1)).reverse.filter fun l => f.testBit l).findSome? fun l =>
    (s.lookup t m (lpmKey t addr l)).bind fun k => kvGet? m k

/-! ### Learning (R188-R190) -/

/-- A learn notification (R189). -/
def learnItem (mac : Bytes) (fid kind port other flags us : Nat) : List Word :=
  toWords (slice mac 0 6 ++ leBytes 2 fid ++ [byte kind, byte port, byte other, byte flags] ++ leBytes 4 us)

/-- Queue a learn notification. -/
def State.notify (s : State) (mac : Bytes) (fid kind port other flags : Nat) : State :=
  s.push 0 (learnItem mac fid kind port other flags s.nowUs)

/-- A sighting of a station on a port (R190). [DEDUCED, assumption 150] -/
def State.learn (s : State) (mac : Bytes) (fid p : Nat) : State :=
  match s.lookup 4 s.tbl.mac (macKey mac fid) with
  | some k =>
    let e := kvGet s.tbl.mac k []
    let w := word (leAt e 8 4)
    if !bitOf w 26 && fld w 6 0 == p then
      s.setTbl { s.tbl with mac := kvSet s.tbl.mac k (putBytes e 8 (leBytes 4 (putBit w 28 true).toNat)) }
    else if kvGet? s.tbl.movedMs k == some s.nowMs then s
    else
      let s := s.setTbl { s.tbl with movedMs := kvSet s.tbl.movedMs k s.nowMs }
      (s.notify mac fid 3 p (if bitOf w 26 then 0x7F else fld w 6 0) (fld w 30 30)).satCtr 10 1 2
  | none =>
    match s.tbl.pend.findIdx? fun q => q.mac == mac && q.fid == fid with
    | some i =>
      match s.tbl.pend[i]? with
      | some q =>
        if q.last = p then s
        else
          let s := s.setTbl { s.tbl with pend := s.tbl.pend.set i { q with last := p } }
          (s.notify mac fid 2 p q.last 0).satCtr 10 1 1
      | none => s
    | none =>
      if 64 ≤ s.tbl.pend.length then
        if s.tbl.limitMs = some s.nowMs then s
        else
          let s := s.setTbl { s.tbl with limitMs := some s.nowMs }
          (s.notify mac fid 4 p 0x7F 0).satCtr 10 1 3
      else
        let life := s.regFld R.TBL_LEARN_CFG 7 0 * 1000000
        let s := s.setTbl { s.tbl with pend := s.tbl.pend ++ [⟨mac, fid, p, p, s.now + life⟩] }
        (s.notify mac fid 1 p 0x7F 0).satCtr 10 1 0

/-- Free the pending entries that pass. -/
def State.freePending (s : State) (p : Pending → Bool) : State :=
  s.setTbl { s.tbl with pend := s.tbl.pend.filter fun q => !p q }

/-! ### The address-claim tracker (R194, R195) -/

/-- A tracker slot's record. -/
def Tbl.slot (x : Tbl) (c t : Nat) : Bytes := kvGet x.track (c * 256 + t) (List.replicate 8 0 ++ [0xFE#8] ++ List.replicate 7 0)

/-- STATE of a tracker record: 0 FREE, 1 CLAIMED, 2 LOST, 3 CANNOT_CLAIM, 4 WAITING. -/
def trackState (e : Bytes) : Nat := byteAt e 9

/-- The slot that holds a source address: the reverse map (R194). -/
def Tbl.slotOfSa (x : Tbl) (c sa : Nat) : Option Nat :=
  if sa = 0xFE then none
  else (List.range 256).find? fun t => trackState (x.slot c t) != 0 && byteAt (x.slot c t) 8 == sa

/-- A record with address, state and time set. -/
def trackPut (e : Bytes) (sa st ms : Nat) : Bytes :=
  putBytes (putBytes e 8 [byte sa, byte st]) 12 (leBytes 4 ms)

/-- An Address Claimed message seen on channel c (R195). -/
def State.claim (s : State) (c sa name : Nat) : State :=
  let x := s.tbl
  let used (t : Nat) := trackState (x.slot c t) != 0
  let own := (List.range 256).find? fun t => used t && leAt (x.slot c t) 0 8 == name
  let free := (List.range 256).find? fun t => !used t && byteAt (x.slot c t) 10 % 2 == 0
  match (match own with | some t => some t | none => free) with
  | none => (s.satCtr 10 1 7).raise 10 1
  | some t =>
    let e := putBytes (x.slot c t) 0 (leBytes 8 name)
    let was := byteAt e 8
    let ms := s.nowMs
    let holder := x.slotOfSa c sa
    let put (tr : Kv Bytes) (k : Nat) (v : Bytes) := kvSet tr (c * 256 + k) v
    let (tr, changed) :=
      if sa = 0xFE then (put x.track t (trackPut e 0xFE 3 ms), was != 0xFE)
      else match holder with
        | some o =>
          if o = t then (put x.track t (trackPut e sa 1 ms), was != sa)
          else
            let eo := x.slot c o
            if name < leAt eo 0 8 then
              (put (put x.track o (putBytes eo 8 [0xFE#8, 2#8])) t (trackPut e sa 1 ms), true)
            else (put x.track t (trackPut e 0xFE 2 ms), was != 0xFE)
        | none => (put x.track t (trackPut e sa 1 ms), was != sa)
    let s := s.setTbl { x with track := tr }
    if changed then s.raise 10 2 else s

/-! ### Policers (R198) -/

/-- Token units in a byte: a rate of 1 kbit/s adds one unit in a nanosecond. -/
def tokenByte : Nat := 8000000

/-- Refill both buckets up to now. [DEDUCED, assumption 52] -/
def Policer.refill (p : Policer) (now : Nat) : Policer :=
  let dt := now - p.at_
  let cir := leAt p.rcd 0 3
  let cbs := leAt p.rcd 4 3 * tokenByte
  let eir := leAt p.rcd 8 3
  let ebs := leAt p.rcd 12 3 * tokenByte
  let c := p.c + dt * cir
  let spare := if leAt p.rcd 16 1 / 8 % 2 = 1 then c - cbs else 0
  { p with c := min c cbs, e := min (p.e + dt * eir + spare) ebs, at_ := now }

/-- Meter a frame of n bytes: colour 0 green, 1 yellow, 2 red, and whether it is dropped (R198).
[DEDUCED, assumption 52] -/
def Policer.meter (p : Policer) (now n : Nat) : Nat × Bool × Policer :=
  let p := p.refill now
  let w4 := leAt p.rcd 16 1
  let need := n * tokenByte
  if w4 % 2 = 1 then (2, true, p)
  else if need ≤ p.c then (0, false, { p with c := p.c - need })
  else if need ≤ p.e then (1, w4 / 4 % 2 == 1, { p with e := p.e - need })
  else (2, true, if w4 / 2 % 2 = 1 then { p with rcd := putBytes p.rcd 16 [byte (w4 + 1)] } else p)

/-- A record as it reads: words 5-6 show the tokens in bytes (R198). -/
def Policer.shown (p : Policer) : Bytes :=
  putBytes p.rcd 20 (leBytes 4 (p.c / tokenByte) ++ leBytes 4 (p.e / tokenByte))

/-- Write a policer record: the first write fills both buckets, a later one clips them (R198).
[DEDUCED, assumption 52] -/
def Policer.write (old : Option Policer) (now : Nat) (rcd : Bytes) : Policer :=
  let r := putBytes rcd 16 [byte (byteAt rcd 16 / 2 % 8 * 2)]
  let cbs := leAt r 4 3 * tokenByte
  let ebs := leAt r 12 3 * tokenByte
  match old with
  | some p =>
    if p.written then
      let p := p.refill now
      ⟨r, min p.c cbs, min p.e ebs, now, true⟩
    else ⟨r, cbs, ebs, now, true⟩
  | none => ⟨r, cbs, ebs, now, true⟩

end Sys2Proof.Machine
end

