-- ==== Sys2Proof/Machine/Guard.lean ====
section
/-! DEFINITION. The guard of an external port (13_guards_and_faults.md R421-R427, R457-R459). -/

namespace Sys2Proof.Machine

/-- A copy as its guard sees it: ingress port, stream, bytes before MACsec, and the guarded length (R421, R423). -/
structure Judged where
  ingress : Nat
  stream : Nat
  bytes : Bytes
  glen : Nat

/-- Map index of a channel's port: c for Cc, 24 + n for Ln (R429). -/
def guardMap (p : Nat) : Nat := if p < 96 then p - 64 else 24 + (p - 96)

/-- The pairs of a channel: word 0, word 1. -/
def State.guardPairs (s : State) (p : Nat) : List (Word × Word) :=
  ((List.range 64).map fun i => kvGet s.grd.pairs (guardMap p * 64 + i) []).map fun r => (wordAt r 0, wordAt r 1)

/-- A bus copy matches a pair (R422). -/
def pairHits (h : BusHdr) (x : Word × Word) : Bool :=
  bitOf x.1 31 && bitOf x.1 30 == h.ide && (h.id &&& fld x.2 28 0) == fld x.1 28 0

/-- An 11-bit identifier: base format, an XL priority ID, or a LIN frame ID. -/
def shortId (h : BusHdr) : Bool := !h.ide || h.format == 2 || h.format == 3

/-- A guard rule record matches an Ethernet copy (R423). -/
def ethRuleHits (bs r : Bytes) : Bool :=
  let f := byteAt r 10
  f % 2 == 1 &&
  (f / 4 % 2 == 0 || slice bs 6 6 == slice r 0 6) &&
  (f / 8 % 2 == 0 || etherType bs == beAt r 6 2) &&
  (f / 16 % 2 == 0 || (if f / 32 % 2 = 1 then (outerTag bs).isNone
    else (outerTag bs).any fun t => t % 4096 == leAt r 8 2 % 4096))

/-- The lowest rule of an Ethernet port that a copy matches. -/
def State.ethRule (s : State) (p : Nat) (bs : Bytes) : Option Bytes :=
  ((List.range 64).map fun i => kvGet s.grd.rules (p * 64 + i) []).find? (ethRuleHits bs)

/-- The copy's identifier or addressing is allowed (R422, R423). -/
def State.idAllowed (s : State) (p : Nat) (bs : Bytes) : Bool :=
  if p < 64 then (s.ethRule p bs).isSome
  else
    let h := busHdr bs
    (shortId h && byteAt (kvGet s.grd.idMap (guardMap p) []) (h.id % 2048 / 8) / 2 ^ (h.id % 8) % 2 == 1) ||
    (s.guardPairs p).any fun x => bitOf x.1 29 && pairHits h x

/-- The copy is of actuation class (R422, R423). -/
def State.actClass (s : State) (p : Nat) (bs : Bytes) : Bool :=
  if p < 64 then (s.ethRule p bs).any fun r => byteAt r 10 / 2 % 2 == 1
  else (s.guardPairs p).any fun x => bitOf x.2 31 && pairHits (busHdr bs) x

/-- The source-address lock passes a copy (R424). -/
def State.saOk (s : State) (p : Nat) (bs : Bytes) : Bool :=
  let cfg := s.reg (R.GRD_PCFG p)
  let h := busHdr bs
  let mode := fld cfg 17 16
  if p < 64 || 96 ≤ p || mode == 0 || shortId h then true
  else
    let sa := h.id % 256
    let pgn := pgnOf h.id
    let claim := pgn == 0xEE00
    let slot := s.tbl.slot (p - 64) (fld cfg 31 24)
    let own := if mode = 1 then
        (List.range 4).any fun k => s.regFld (R.GRD_SA p) (8 * k + 7) (8 * k) != 0xFF &&
          s.regFld (R.GRD_SA p) (8 * k + 7) (8 * k) == sa
      else trackState slot == 1 && byteAt slot 8 == sa
    own || ((claim || pgn == 0xEA00) && sa == 0xFE) ||
      (mode != 1 && claim && leAt bs 24 8 == leAt slot 0 8)

/-- A port's buckets, full before their first use (R426, R455). -/
def State.bucketOf (s : State) (p : Nat) : Bucket :=
  let fmax := s.regFld (R.GRD_FRATE p) 31 20 * giga
  let bmax := s.regFld (R.GRD_BBURST p) 23 0 * giga
  match kvGet? s.grd.bucket p with
  | none => ⟨fmax, bmax, s.now⟩
  | some b =>
    let dt := s.now - b.at_
    ⟨min fmax (b.f + dt * s.regFld (R.GRD_FRATE p) 19 0), min bmax (b.b + dt * (s.regFld (R.GRD_BRATE p) 21 0 * 8000)),
      s.now⟩

/-- A limit of zero passes no copy (R454). -/
def State.ratesZero (s : State) (p : Nat) : Bool :=
  s.regFld (R.GRD_FRATE p) 19 0 == 0 || s.regFld (R.GRD_FRATE p) 31 20 == 0

/-- The byte limits of a port pass no copy. -/
def State.bytesZero (s : State) (p : Nat) : Bool :=
  s.regFld (R.GRD_BRATE p) 21 0 == 0 || s.regFld (R.GRD_BBURST p) 23 0 == 0

/-- Cause for which the guard of a port refuses a copy: 1 NOT_APPLIED, 2 CLOSED, 3 STOPPED, 4 ID, 5 SA, 6 ACT, 7 FRATE,
8 BRATE; none where it passes (R421, R459). -/
def State.guardCause (s : State) (p : Nat) (c : Judged) : Option Nat :=
  let svc := p == 28 && c.ingress == 59
  if !s.regBit R.GRD_STATUS 0 then (if svc then none else some 1)
  else if s.regBit (R.GRD_PSTAT p) 16 then some 2
  else if !s.toggling && !svc then some 3
  else if !s.idAllowed p c.bytes then some 4
  else if 32 ≤ c.ingress && c.ingress < 60 && !s.saOk p c.bytes then some 5
  else
    let b := s.bucketOf p
    if s.actClass p c.bytes && s.regFld (R.GRD_ACT p) 15 0 ≤ s.regFld (R.GRD_PSTAT p) 15 0 then some 6
    else if b.f < giga || s.ratesZero p then some 7
    else if b.b < c.glen * giga || s.bytesZero p then some 8
    else none

/-- Slot of a refusal cause in the port's counters (R458). -/
def causeSlot (k : Nat) : Nat :=
  match k with | 1 => 2 | 2 => 9 | 3 => 3 | 4 => 4 | 5 => 5 | 6 => 6 | 7 => 7 | _ => 8

/-- A refused copy is counted, and fault source REFUSE occurs, with cause ACT ACT_LIMIT too (R427, R459, R463). -/
def State.guardRefuse (s : State) (p k : Nat) (c : Judged) : State :=
  let id := if p < 64 then etherType c.bytes else (busHdr c.bytes).id
  let s := s.satCtr 6 (0x1000 + p) (causeSlot k)
  let s := s.raise 6 0
  let s := if k = 6 then s.raise 6 1 else s
  let s := s.fault 6 1 [word (p + k * 256), word id, word (c.stream + c.ingress * 65536), word c.glen]
  if k = 6 then s.fault 6 2 [] else s

/-- Judge a copy at the guard of its port: the cause of a refusal, and the machine after (R421, R427). A refused copy
consumes no tokens and no budget. -/
def State.guard (s : State) (p : Nat) (c : Judged) : Option Nat × State :=
  match s.guardCause p c with
  | some k => (some k, s.guardRefuse p k c)
  | none =>
    let s := s.addCtr 6 (0x1000 + p) 0 1
    if !s.regBit R.GRD_STATUS 0 then (none, s)
    else
      let b := s.bucketOf p
      let s := { s with grd := { s.grd with
        bucket := kvSet s.grd.bucket p { b with f := b.f - giga, b := b.b - c.glen * giga } } }
      let used := s.regFld (R.GRD_PSTAT p) 15 0
      (none, if s.actClass p c.bytes then s.setFld (R.GRD_PSTAT p) 15 0 (used + 1) else s)

end Sys2Proof.Machine
end

