-- ==== Sys2Proof/Machine/Aes.lean ====
section
/-! DEFINITION. The ciphers the spec names: AES (FIPS 197) with GCM, CTR, CMAC and key wrap, and the SP 800-108 key
derivation of R494. -/

namespace Sys2Proof.Machine

/-- Entries 0-31 of the AES substitution box. -/
def sbox0 : List Nat := [0x63, 0x7C, 0x77, 0x7B, 0xF2, 0x6B, 0x6F, 0xC5,
  0x30, 0x01, 0x67, 0x2B, 0xFE, 0xD7, 0xAB, 0x76,
  0xCA, 0x82, 0xC9, 0x7D, 0xFA, 0x59, 0x47, 0xF0,
  0xAD, 0xD4, 0xA2, 0xAF, 0x9C, 0xA4, 0x72, 0xC0]

/-- Entries 32-63 of the AES substitution box. -/
def sbox1 : List Nat := [0xB7, 0xFD, 0x93, 0x26, 0x36, 0x3F, 0xF7, 0xCC,
  0x34, 0xA5, 0xE5, 0xF1, 0x71, 0xD8, 0x31, 0x15,
  0x04, 0xC7, 0x23, 0xC3, 0x18, 0x96, 0x05, 0x9A,
  0x07, 0x12, 0x80, 0xE2, 0xEB, 0x27, 0xB2, 0x75]

/-- Entries 64-95 of the AES substitution box. -/
def sbox2 : List Nat := [0x09, 0x83, 0x2C, 0x1A, 0x1B, 0x6E, 0x5A, 0xA0,
  0x52, 0x3B, 0xD6, 0xB3, 0x29, 0xE3, 0x2F, 0x84,
  0x53, 0xD1, 0x00, 0xED, 0x20, 0xFC, 0xB1, 0x5B,
  0x6A, 0xCB, 0xBE, 0x39, 0x4A, 0x4C, 0x58, 0xCF]

/-- Entries 96-127 of the AES substitution box. -/
def sbox3 : List Nat := [0xD0, 0xEF, 0xAA, 0xFB, 0x43, 0x4D, 0x33, 0x85,
  0x45, 0xF9, 0x02, 0x7F, 0x50, 0x3C, 0x9F, 0xA8,
  0x51, 0xA3, 0x40, 0x8F, 0x92, 0x9D, 0x38, 0xF5,
  0xBC, 0xB6, 0xDA, 0x21, 0x10, 0xFF, 0xF3, 0xD2]

/-- Entries 128-159 of the AES substitution box. -/
def sbox4 : List Nat := [0xCD, 0x0C, 0x13, 0xEC, 0x5F, 0x97, 0x44, 0x17,
  0xC4, 0xA7, 0x7E, 0x3D, 0x64, 0x5D, 0x19, 0x73,
  0x60, 0x81, 0x4F, 0xDC, 0x22, 0x2A, 0x90, 0x88,
  0x46, 0xEE, 0xB8, 0x14, 0xDE, 0x5E, 0x0B, 0xDB]

/-- Entries 160-191 of the AES substitution box. -/
def sbox5 : List Nat := [0xE0, 0x32, 0x3A, 0x0A, 0x49, 0x06, 0x24, 0x5C,
  0xC2, 0xD3, 0xAC, 0x62, 0x91, 0x95, 0xE4, 0x79,
  0xE7, 0xC8, 0x37, 0x6D, 0x8D, 0xD5, 0x4E, 0xA9,
  0x6C, 0x56, 0xF4, 0xEA, 0x65, 0x7A, 0xAE, 0x08]

/-- Entries 192-223 of the AES substitution box. -/
def sbox6 : List Nat := [0xBA, 0x78, 0x25, 0x2E, 0x1C, 0xA6, 0xB4, 0xC6,
  0xE8, 0xDD, 0x74, 0x1F, 0x4B, 0xBD, 0x8B, 0x8A,
  0x70, 0x3E, 0xB5, 0x66, 0x48, 0x03, 0xF6, 0x0E,
  0x61, 0x35, 0x57, 0xB9, 0x86, 0xC1, 0x1D, 0x9E]

/-- Entries 224-255 of the AES substitution box. -/
def sbox7 : List Nat := [0xE1, 0xF8, 0x98, 0x11, 0x69, 0xD9, 0x8E, 0x94,
  0x9B, 0x1E, 0x87, 0xE9, 0xCE, 0x55, 0x28, 0xDF,
  0x8C, 0xA1, 0x89, 0x0D, 0xBF, 0xE6, 0x42, 0x68,
  0x41, 0x99, 0x2D, 0x0F, 0xB0, 0x54, 0xBB, 0x16]

/-- The AES substitution box. -/
def sbox : List Nat := sbox0 ++ sbox1 ++ sbox2 ++ sbox3 ++ sbox4 ++ sbox5 ++ sbox6 ++ sbox7

/-- Substitute a byte. -/
def subByte (b : Byte) : Byte := byte (sbox.getD b.toNat 0)

/-- Substitute a byte the other way. -/
def invSubByte (b : Byte) : Byte := byte ((sbox.idxOf? b.toNat).getD 0)

/-- Exclusive or of two byte strings, as long as the shorter. -/
def xorBytes (a b : Bytes) : Bytes := (a.zip b).map fun (x, y) => x ^^^ y

/-- Multiply by x in the field of AES. -/
def xtime (b : Byte) : Byte := (b <<< 1) ^^^ (if b.getLsbD 7 then 0x1B else 0)

/-- Multiply in the field of AES, the left factor below 16. -/
def gmul (k : Nat) (b : Byte) : Byte :=
  (if k.testBit 0 then b else 0) ^^^ (if k.testBit 1 then xtime b else 0) ^^^
  (if k.testBit 2 then xtime (xtime b) else 0) ^^^ (if k.testBit 3 then xtime (xtime (xtime b)) else 0)

/-- Multiply one column by the circulant of four factors. -/
def mixColumn (f : List Nat) (c : Bytes) : Bytes :=
  (List.range 4).map fun i =>
    (List.range 4).foldl (fun acc j => acc ^^^ gmul (f.getD ((j + 4 - i) % 4) 0) (c.getD j 0)) 0

/-- The four columns of a block. -/
def columns (b : Bytes) : List Bytes := (List.range 4).map fun i => slice b (4 * i) 4

/-- Rotate the rows of a block left by k times their number. -/
def shiftRows (k : Nat) (b : Bytes) : Bytes :=
  (List.range 16).map fun i => b.getD ((i + 4 * (k * (i % 4))) % 16) 0

/-- Round keys of a key, as 16-byte blocks (FIPS 197 section 5.2). -/
def roundKeys (key : Bytes) : List Bytes :=
  let nk := key.length / 4
  let total := 4 * (nk + 7)
  let w0 := (List.range nk).map fun i => slice key (4 * i) 4
  let ws := (List.range (total - nk)).foldl (fun (x : List Bytes × Byte) k =>
    let (ws, rcon) := x
    let i := nk + k
    let t := ws.getD (i - 1) []
    let (t, rcon) :=
      if i % nk = 0 then
        let r := (t.drop 1 ++ t.take 1).map subByte
        (xorBytes r [rcon, 0, 0, 0], xtime rcon)
      else if 6 < nk ∧ i % nk = 4 then (t.map subByte, rcon)
      else (t, rcon)
    (ws ++ [xorBytes (ws.getD (i - nk) []) t], rcon)) (w0, 1)
  (List.range (total / 4)).map fun i => (ws.1.drop (4 * i)).take 4 |>.flatten

/-- Encrypt one block. -/
def aesEnc (key block : Bytes) : Bytes :=
  match roundKeys key with
  | [] => block
  | k0 :: ks =>
    let n := ks.length
    (ks.zipIdx).foldl (fun s (k, i) =>
      let s := shiftRows 1 (s.map subByte)
      let s := if i + 1 = n then s else (columns s).flatMap (mixColumn [2, 3, 1, 1])
      xorBytes s k) (xorBytes block k0)

/-- Decrypt one block. -/
def aesDec (key block : Bytes) : Bytes :=
  match (roundKeys key).reverse with
  | [] => block
  | k0 :: ks =>
    let n := ks.length
    (ks.zipIdx).foldl (fun s (k, i) =>
      let s := xorBytes ((shiftRows 3 s).map invSubByte) k
      if i + 1 = n then s else (columns s).flatMap (mixColumn [14, 11, 13, 9])) (xorBytes block k0)

/-- A byte string in blocks of 16, the last one as long as it is. -/
def blocks16 (bs : Bytes) : List Bytes := (List.range ((bs.length + 15) / 16)).map fun i => (bs.drop (16 * i)).take 16

/-! ### CMAC (SP 800-38B) -/

/-- Double a block in the field of CMAC. -/
def cmacDouble (b : Bytes) : Bytes :=
  let n := beVal b
  let d := n * 2 % 2 ^ 128
  beBytes 16 (if n.testBit 127 then Nat.xor d 0x87 else d)

/-- AES-CMAC of a message: 16 bytes. -/
def cmac (key msg : Bytes) : Bytes :=
  let k1 := cmacDouble (aesEnc key (List.replicate 16 0))
  let k2 := cmacDouble k1
  let bl := blocks16 msg
  let last := bl.getLast?.getD []
  let last := if last.length = 16 then xorBytes last k1
    else xorBytes (last ++ [0x80#8] ++ List.replicate (15 - last.length) 0) k2
  let c := bl.dropLast.foldl (fun c b => aesEnc key (xorBytes c b)) (List.replicate 16 0)
  aesEnc key (xorBytes c last)

/-! ### CTR and GCM (SP 800-38A, SP 800-38D) -/

/-- A counter block with its last 32 bits advanced. -/
def inc32 (b : Bytes) (n : Nat) : Bytes := b.take 12 ++ beBytes 4 ((beVal (b.drop 12) + n) % 2 ^ 32)

/-- Key stream applied to a byte string, the first block as given; `wide` counts over all 128 bits (SP 800-38A), else over
the last 32 (SP 800-38D). -/
def ctrMode (key ctr data : Bytes) (wide : Bool) : Bytes :=
  ((blocks16 data).zipIdx).flatMap fun (b, i) =>
    xorBytes b (aesEnc key (if wide then beBytes 16 ((beVal ctr + i) % 2 ^ 128) else inc32 ctr i))

/-- Product in the field of GHASH, blocks as numbers with the first bit highest. -/
def ghashMul (x y : Nat) : Nat :=
  ((List.range 128).foldl (fun (zv : Nat × Nat) i =>
    let z := if x.testBit (127 - i) then Nat.xor zv.1 zv.2 else zv.1
    let v := if zv.2.testBit 0 then Nat.xor (zv.2 / 2) (0xE1 * 2 ^ 120) else zv.2 / 2
    (z, v)) (0, y)).1

/-- A byte string padded with zeros to whole blocks. -/
def pad16 (b : Bytes) : Bytes := b ++ List.replicate ((16 - b.length % 16) % 16) 0

/-- GHASH of a byte string of whole blocks under h. -/
def ghash (h : Nat) (bs : Bytes) : Nat := (blocks16 bs).foldl (fun y b => ghashMul (Nat.xor y (beVal b)) h) 0

/-- The tag of GCM for a 12-byte IV. -/
def gcmTag (key iv aad ct : Bytes) : Bytes :=
  let h := beVal (aesEnc key (List.replicate 16 0))
  let s := ghash h (pad16 aad ++ pad16 ct ++ beBytes 8 (8 * aad.length) ++ beBytes 8 (8 * ct.length))
  xorBytes (beBytes 16 s) (aesEnc key (iv ++ [0, 0, 0, 1]))

/-- GCM encryption: ciphertext and 16-byte tag. -/
def gcmEnc (key iv aad pt : Bytes) : Bytes × Bytes :=
  let ct := ctrMode key (iv ++ [0, 0, 0, 2]) pt false
  (ct, gcmTag key iv aad ct)

/-- GCM decryption; none where the tag does not match. -/
def gcmDec (key iv aad ct tag : Bytes) : Option Bytes :=
  if gcmTag key iv aad ct = tag then some (ctrMode key (iv ++ [0, 0, 0, 2]) ct false) else none

/-! ### Key wrap (RFC 3394) -/

/-- The initial value of key wrap. -/
def wrapIv : Bytes := List.replicate 8 0xA6

/-- Wrap a key of whole 8-byte parts. -/
def keyWrap (kek p : Bytes) : Bytes :=
  let n := p.length / 8
  let r0 := (List.range n).map fun i => slice p (8 * i) 8
  let (a, r) := (List.range (6 * n)).foldl (fun (x : Bytes × List Bytes) k =>
    let i := k % n
    let b := aesEnc kek (x.1 ++ x.2.getD i [])
    (xorBytes (b.take 8) (beBytes 8 (k + 1)), x.2.set i (b.drop 8))) (wrapIv, r0)
  a ++ r.flatten

/-- Unwrap a key; none where its integrity check fails. -/
def keyUnwrap (kek c : Bytes) : Option Bytes :=
  let n := c.length / 8 - 1
  let r0 := (List.range n).map fun i => slice c (8 * (i + 1)) 8
  let (a, r) := (List.range (6 * n)).reverse.foldl (fun (x : Bytes × List Bytes) k =>
    let i := k % n
    let b := aesDec kek (xorBytes x.1 (beBytes 8 (k + 1)) ++ x.2.getD i [])
    (b.take 8, x.2.set i (b.drop 8))) (c.take 8, r0)
  if a = wrapIv then some r.flatten else none

/-! ### Derivation (R494) -/

/-- HMAC-SHA-256 in counter mode: the first `bits` / 8 bytes. -/
def kdf (kIn label context : Bytes) (bits : Nat) : Bytes :=
  ((List.range ((bits + 255) / 256)).flatMap fun i =>
    hmac sha256 64 kIn (beBytes 4 (i + 1) ++ label ++ [0] ++ context ++ beBytes 4 bits)).take (bits / 8)

/-- The bytes of an ASCII string. -/
def ascii (t : String) : Bytes := t.toList.map fun c => byte c.toNat

end Sys2Proof.Machine
end

