-- ==== Sys2Proof/Machine/Cipher.lean ====
section
/-! DEFINITION. The cipher cluster on frames: key slots, MACsec and sealed CAN frames (14_security.md R466-R486). -/

namespace Sys2Proof.Machine

/-- Replace the hidden state of the cluster. -/
def State.setCip (s : State) (x : Cip) : State := { s with cip := x }

/-! ### Slots (R468-R471) -/

/-- A slot before any LOAD: `EMPTY`. -/
def Slot.empty : Slot := ⟨[], 0, 0⟩

/-- A key slot. -/
def State.slotOf (s : State) (n : Nat) : Slot := kvGet s.cip.slots n Slot.empty

/-- STATE of a slot: 0 `EMPTY`, 1 `LOADED`, 2 `REVOKED`. -/
def State.slotState (s : State) (n : Nat) : Nat := fld (s.slotOf n).attr 31 30

/-- Replace a slot. -/
def State.setSlot (s : State) (n : Nat) (v : Slot) : State :=
  s.setCip { s.cip with slots := if v = Slot.empty then kvDel s.cip.slots n else kvSet s.cip.slots n v }

/-- A slot is `LOADED` with a bit of USE (R471). -/
def State.slotUse (s : State) (n use : Nat) : Bool := s.slotState n == 1 && bitOf (s.slotOf n).attr use

/-- A cluster function is on: its bit of CIP_CTRL, in a domain that acts. [DEDUCED, assumption 154] -/
def State.cipOn (s : State) (b : Nat) : Bool := s.regBit R.CIP_CTRL b && alive s 5

/-! ### MACsec (R478-R480) -/

/-- Key of an SA record. -/
def saKey (p : Nat) (rx : Bool) (sc an : Nat) : Nat := ((p * 2 + rx.toNat) * 8 + sc) * 8 + an

/-- The SecY of a port is enabled. -/
def State.secyOn (s : State) (p : Nat) : Bool := p < 29 && s.regBit (R.CIP_SECY_CFG p) 0

/-- PROTECT and KEY_SLOT of a copy, fixed at classification; slot 512 is none (R479). -/
def State.protOf (s : State) (p protect slot : Nat) : Nat × Nat :=
  if s.secyOn p then
    match kvGet? s.cip.sas (saKey p false 0 (s.regFld (R.CIP_SECY_CFG p) 17 16)) with
    | some r => (1, if r.valid then r.slot else 512)
    | none => (1, 512)
  else if protect = 1 then (1, 512)
  else if protect = 2 ∧ 64 ≤ p ∧ p < 88 then (2, slot)
  else (0, 0)

/-- Transmit SCI of a port. -/
def State.txSci (s : State) (p : Nat) : Nat :=
  (s.reg (R.CIP_SECY_SCI_LO p)).toNat + (s.reg (R.CIP_SECY_SCI_HI p)).toNat * 2 ^ 32

/-- The suite of a port uses extended packet numbers. -/
def State.xpn (s : State) (p : Nat) : Bool := 2 ≤ s.regFld (R.CIP_SECY_CFG p) 9 8

/-- The 12-byte IV of IEEE 802.1AE. [PRESUMED, assumption 136] -/
def macsecIv (xpn : Bool) (sci : Nat) (r : SaRec) (pn : Nat) : Bytes :=
  if xpn then xorBytes r.salt (beBytes 4 r.ssci ++ beBytes 8 pn) else beBytes 8 sci ++ beBytes 4 pn

/-- SecTAG bytes after the EtherType's first: TCI and AN, SL, PN, SCI. [PRESUMED, assumption 136] -/
def secTag (an pn dataLen : Nat) (inclSci es conf : Bool) (sci : Nat) : Bytes :=
  let tci := (if es && !inclSci then 64 else 0) + (if inclSci then 32 else 0) + (if conf then 12 else 0) + an
  [0x88#8, 0xE5#8, byte tci, byte (if dataLen < 48 then dataLen else 0)] ++ beBytes 4 (pn % 2 ^ 32) ++
    (if inclSci then beBytes 8 sci else [])

/-- Bytes MACsec adds to a frame on a port. -/
def State.macsecGrowth (s : State) (p : Nat) : Nat := if s.regBit (R.CIP_SECY_CFG p) 5 then 32 else 24

/-- The transmit SA of a port that names a slot: its association number. -/
def State.txAnOf (s : State) (p slot : Nat) : Option Nat :=
  (List.range 4).find? fun an => match kvGet? s.cip.sas (saKey p false 0 an) with
    | some r => r.slot == slot
    | none => false

/-- Protect a frame on a slot's SA: the next packet number is taken in order of transmission; none where the key or the
packet numbers are gone (R471, R479). [DEDUCED, assumption 154] -/
def State.macsecTx (s : State) (p slot : Nat) (bs : Bytes) : Option Bytes × State :=
  match s.txAnOf p slot with
  | none => (none, s.satCtr 16 1 4)
  | some an =>
    let k := saKey p false 0 an
    let r := kvGet s.cip.sas k ⟨false, 0, 0, 0, [], false⟩
    if !s.slotUse slot 0 || !s.cipOn 0 then (none, s.satCtr 16 1 4)
    else if (if s.xpn p then 2 ^ 64 else 2 ^ 32) ≤ r.pn then
      (none, ((s.satCtr 16 (0x1000 + p) 10).raise 16 4).satCtr 16 1 4)
    else
      let cfg := s.reg (R.CIP_SECY_CFG p)
      let sci := s.txSci p
      let data := bs.drop 12
      let tag := secTag an r.pn data.length (bitOf cfg 5) (bitOf cfg 6) (bitOf cfg 7) sci
      let key := (s.slotOf slot).key
      let iv := macsecIv (s.xpn p) sci r r.pn
      let hdr := bs.take 12 ++ tag
      let body := if bitOf cfg 7 then let (c, t) := gcmEnc key iv hdr data; c ++ t
        else data ++ gcmTag key iv (hdr ++ data) []
      let thr := (s.reg (R.CIP_SECY_PN_THR p 0)).toNat + (s.reg (R.CIP_SECY_PN_THR p 1)).toNat * 2 ^ 32
      let hit := thr != 0 && decide (thr ≤ r.pn + 1) && !r.thresh
      let s := s.setCip { s.cip with sas := kvSet s.cip.sas k { r with pn := r.pn + 1, thresh := r.thresh || hit } }
      let s := if hit then s.raise 16 0 else s
      (some (hdr ++ body), s.addCtr 16 (0x1000 + p) 0 1)

/-- What macsec_rx does with a frame: dropped, or passed on as these bytes; `prot` says that it carried a SecTAG. -/
structure MacsecIn where
  frame : Option Bytes
  prot : Bool

/-- The whole packet number of a received frame: extended from LOWEST_PN under XPN. -/
def pnOf (xpn : Bool) (lowest pn32 : Nat) : Nat :=
  if !xpn then pn32
  else
    let hi := lowest / 2 ^ 32
    let up := if lowest % 2 ^ 32 / 2 ^ 31 = 1 ∧ pn32 < 2 ^ 31 then 1 else 0
    (hi + up) * 2 ^ 32 + pn32

/-- The receive SC of a port with an SCI. -/
def State.rxSc (s : State) (p sci : Nat) : Option Nat :=
  (List.range 8).find? fun c => kvGet? s.cip.scs (p * 8 + c) == some sci

/-- A frame received on a port with an enabled SecY (R480). [DEDUCED, assumption 154] -/
def State.macsecRx (s : State) (p : Nat) (bs : Bytes) : MacsecIn × State :=
  let cfg := s.reg (R.CIP_SECY_CFG p)
  let strict := fld cfg 3 2 == 2
  if beAt bs 12 2 != 0x88E5 then
    if strict && beAt bs 12 2 != 0x888E then (⟨none, false⟩, s.satCtr 16 (0x1000 + p) 8)
    else (⟨some bs, false⟩, s)
  else
    let tci := byteAt bs 14
    let an := tci % 4
    let explicit := tci / 32 % 2 == 1
    let sci := if explicit then some (beAt bs 20 8) else if tci / 64 % 2 = 1 then some (beAt bs 6 6 * 65536 + 1) else none
    let hlen := if explicit then 28 else 20
    let sa := (sci.bind (s.rxSc p)).bind fun c => (kvGet? s.cip.sas (saKey p true c an)).bind fun r =>
      if r.valid then some (saKey p true c an, r) else none
    match sa with
    | none =>
      if strict then (⟨none, true⟩, s.satCtr 16 (0x1000 + p) 7) else (⟨some bs, true⟩, s)
    | some (k, r) =>
      let pn := pnOf (s.xpn p) r.pn (beAt bs 16 4)
      if bitOf cfg 4 && pn < r.pn then (⟨none, true⟩, s.satCtr 16 (0x1000 + p) 6)
      else if !s.slotUse r.slot 1 || !s.cipOn 0 then (⟨none, true⟩, s.satCtr 16 1 5)
      else
        let key := (s.slotOf r.slot).key
        let hdr := bs.take hlen
        let body := bs.drop hlen
        let data := body.take (body.length - 16)
        let icv := body.drop (body.length - 16)
        let iv := macsecIv (s.xpn p) (sci.getD 0) r pn
        let enc := tci / 8 % 2 == 1
        let good := if enc then gcmDec key iv hdr data icv
          else if gcmTag key iv (hdr ++ data) [] = icv then some data else none
        let keep (s : State) : State :=
          let low := max r.pn (pn + 1 - (s.reg (R.CIP_SECY_WINDOW p)).toNat)
          s.setCip { s.cip with sas := kvSet s.cip.sas k { r with pn := low } }
        match good with
        | some d => (⟨some (bs.take 12 ++ d), true⟩, (keep s).addCtr 16 (0x1000 + p) 2 1)
        | none =>
          if strict || enc then (⟨none, true⟩, s.satCtr 16 (0x1000 + p) 4)
          else (⟨some (bs.take 12 ++ data), true⟩, (keep s).satCtr 16 (0x1000 + p) 5)

/-! ### Sealed CAN frames (R482-R486) -/

/-- A freshness counter. -/
def State.fvOf (s : State) (i : Nat) : Nat := kvGet s.cip.fv i 0

/-- Store a freshness counter; passing a multiple of 2^16 saves it (R486). -/
def State.setFv (s : State) (i v : Nat) : State :=
  let old := s.fvOf i
  let s := s.setCip { s.cip with fv := kvSet s.cip.fv i (v % 2 ^ 64) }
  if old / 65536 = v / 65536 then s else s.setCip { s.cip with saved := kvSet s.cip.saved i (v % 2 ^ 64) }

/-- The byte string a seal's tag covers (R483). -/
def sealInput (bs : Bytes) (fv : Nat) : Bytes :=
  let xl := byteAt bs 4 % 8 == 2
  let len := leAt bs 12 2
  beBytes 4 (leAt bs 0 4 % 2 ^ 30) ++ [if xl then 2 else 1] ++
    (if xl then [bs.getD 5 0, bs.getD 6 0] ++ beBytes 4 (leAt bs 8 4) else []) ++
    beBytes 2 (len - 8) ++ slice bs 24 (len - 8) ++ beBytes 8 fv

/-- The last 8 bytes of a sealed payload (R482). -/
def sealBytes (key bs : Bytes) (fv : Nat) : Bytes := beBytes 3 fv ++ (cmac key (sealInput bs fv)).take 5

/-- Seal a frame at a transmit attempt with a new freshness value; none where the key is gone (R471, R484).
[DEDUCED, assumption 154] -/
def State.sealTx (s : State) (slot : Nat) (bs : Bytes) : Option Bytes × State :=
  if !s.slotUse slot 2 || !s.cipOn 1 then (none, s.satCtr 16 1 4)
  else
    let k := s.slotOf slot
    let fv := (s.fvOf k.aux + 1) % 2 ^ 64
    let s := (s.setFv k.aux fv).satCtr 16 1 0
    let len := leAt bs 12 2
    (some (putBytes bs (24 + len - 8) (sealBytes k.key bs fv)), s)

/-- Verify a sealed frame against a receive entry's slot and counter (R471, R484, R485). [DEDUCED, assumption 154] -/
def State.sealRx (s : State) (slot i : Nat) (bs : Bytes) : Bool × State :=
  let len := leAt bs 12 2
  let fmt := byteAt bs 4 % 8
  if !s.slotUse slot 3 || !s.cipOn 1 then (false, s.satCtr 16 1 5)
  else if i < 2048 then (false, s.satCtr 16 1 3)
  else if len < 8 || (fmt != 1 && fmt != 2) then (false, s.satCtr 16 1 2)
  else
    let fv := s.fvOf i
    let fv24 := beAt bs (24 + len - 8) 3
    let c := fv - fv % 2 ^ 24 + fv24
    let cand := if c ≤ fv then c + 2 ^ 24 else c
    if s.regFld R.CIP_FV_CFG 23 0 < cand - fv then (false, s.satCtr 16 1 3)
    else if (cmac (s.slotOf slot).key (sealInput bs cand)).take 5 != slice bs (24 + len - 5) 5 then
      (false, s.satCtr 16 1 2)
    else (true, (s.setFv i cand).satCtr 16 1 1)

end Sys2Proof.Machine
end

