-- ==== Sys2Proof/Machine/Keys.lean ====
section
/-! DEFINITION. Key slots, cipher jobs, SA records, alarms, the life cycle and the key vault (14_security.md R466-R497,
R500-R509). -/

namespace Sys2Proof.Machine

/-! ### Recording -/

/-- A command that a result register reports as refused, recorded with the REJECTED flag (R80, R500).
[DEDUCED, assumption 24] -/
def State.secRefused (s : State) (m : Master) (code : Nat) (old new : Word) : State :=
  s.logReject m (0xE0000000 + code) old new

/-- RESULT of a command in its status register, BUSY clear (R488, R505, R508). [DEDUCED, assumption 96] -/
def State.setResult (s : State) (a r : Nat) : State := s.setReg a (word (r * 256))

/-! ### Loading and revoking slots (R468-R474) -/

/-- A slot is a keeper slot (R468). -/
def keeperSlot (n : Nat) : Bool := 496 ≤ n

/-- Why a key may not be put into a slot: the RESULT of R470; none where it may. [DEDUCED, assumption 96] -/
def State.loadRefusal (s : State) (m : Master) (slot : Nat) (attr : Word) (aux : Nat) : Option Nat :=
  if s.regBit R.CIP_STATUS 0 then some 5
  else if s.slotState slot ≠ 0 then some 4
  else if keeperSlot slot ∧ m.origin ≠ 1 then some 4
  else if fld attr 7 0 = 0 ∨ fld attr 9 8 = 3 then some 4
  else if fld attr 1 0 ≠ 0 ∧ fld attr 9 8 = 1 then some 4
  else if bitOf attr 2 ∧ 2048 ≤ aux then some 4
  else if fld attr 21 12 ≠ 0 then some 4
  else none

/-- Key length of an attribute word, in bytes. -/
def keyBytes (attr : Word) : Nat := 16 + 8 * fld attr 9 8

/-- The attribute word a slot holds: USE, SIZE and VAULTABLE as given, the parent the gateway sets, and STATE. -/
def slotAttr (attr : Word) (parent : Option Nat) (state : Nat) : Word :=
  let w := attr &&& 0x7FF#32
  let w := match parent with
    | some p => putBit (putFld w 20 12 p) 21 true
    | none => w
  putFld w 31 30 state

/-- The staged attribute word. -/
def State.stagedAttr (s : State) : Word := s.reg R.CIP_SLOT_ATTR &&& 0x3FFFFF#32

/-- The staged FV_INDEX. -/
def State.stagedAux (s : State) : Nat := s.regFld R.CIP_SLOT_AUX 11 0

/-- LOAD of the slot that CIP_SLOT_SEL names; the key registers are zeroed either way (R470).
[DEDUCED, assumption 96] -/
def State.slotLoad (s : State) (m : Master) : State :=
  let n := s.regFld R.CIP_SLOT_SEL 8 0
  let attr := s.stagedAttr
  let key := (List.range 8).flatMap fun i => leBytes 4 (s.reg (R.CIP_SLOT_KEY i)).toNat
  let r := s.loadRefusal m n attr s.stagedAux
  let aux := s.stagedAux
  let s := (List.range 8).foldl (fun s i => s.setReg (R.CIP_SLOT_KEY i) 0) s
  match r with
  | some r => (s.setResult R.CIP_SLOT_STAT r).secRefused m 1 (word n) attr
  | none =>
    let s := s.setSlot n ⟨key.take (keyBytes attr), slotAttr attr none 1, aux⟩
    (s.setResult R.CIP_SLOT_STAT 0).logSecurity m 1 (word n) attr

/-- The parent of a slot, if it has one. -/
def Slot.parent (v : Slot) : Option Nat := if bitOf v.attr 21 then some (fld v.attr 20 12) else none

/-- The slots whose parent is in a set. -/
def State.childrenOf (s : State) (l : List Nat) : List Nat :=
  (s.cip.slots.filter fun e => match e.2.parent with | some p => l.contains p | none => false).map (·.1)

/-- A slot and its descendants (R472). -/
def State.family (s : State) (n : Nat) : List Nat :=
  (List.range s.cip.slots.length).foldl (fun l _ =>
    l ++ (s.childrenOf l).filter fun k => !l.contains k) [n]

/-- Make a slot and its descendants `REVOKED` in one step, to be zeroised as one set; the slots that changed. -/
def State.revokeSet (s : State) (n : Nat) : List Nat × State :=
  let l := if s.slotState n = 1 then (s.family n).filter fun k => s.slotState k == 1 else []
  if l.isEmpty then ([], s)
  else
    let s := l.foldl (fun s k => s.setSlot k { s.slotOf k with attr := putFld (s.slotOf k).attr 31 30 2 }) s
    (l, s.setCip { s.cip with sets := s.cip.sets ++ [l] })

/-- REVOKE of the slot that CIP_SLOT_SEL names (R473); an `EMPTY` or `REVOKED` slot changes nothing. -/
def State.slotRevoke (s : State) (m : Master) : State :=
  let n := s.regFld R.CIP_SLOT_SEL 8 0
  let (l, s) := s.revokeSet n
  (s.setResult R.CIP_SLOT_STAT 0).logSecurity m 4 (word n) (word l.length)

/-- A write of CIP_SLOT_CMD. -/
def State.slotCmd (s : State) (m : Master) (v : Word) : State :=
  if !bitOf v 31 then s else if fld v 1 0 = 1 then s.slotLoad m else s.slotRevoke m

/-- A slot is used by an operation that has begun: the job's parent, or a copy in transmission (R473, R474). -/
def State.slotBusy (s : State) (n : Nat) : Bool :=
  (match s.cip.job with
   | some j => leAt j.words 0 4 / 256 % 512 == n
   | none => false) ||
  s.swc.tx.any fun e => e.2.copy.protect != 0 && e.2.copy.keySlot == n

/-- Drop a slot from the sets still to zeroise; the end of a set raises REVOKE_DONE. -/
def State.dropFromSets (s : State) (n : Nat) : State :=
  let sets := s.cip.sets.map fun l => l.filter (· != n)
  let s := s.setCip { s.cip with sets := sets.filter fun l => !l.isEmpty }
  if sets.any fun l => l.isEmpty then s.raise 16 1 else s

/-- A revoked slot whose last operation has ended is zeroised and becomes `EMPTY` (R473). -/
def execSlotZeroiseDone (n : Nat) (s : State) : Host.Outcome State Fault Refusal :=
  .next <|
    if s.slotState n = 2 ∧ !s.slotBusy n ∧ alive s 5 then (s.setSlot n Slot.empty).dropFromSets n else s

/-- An uncorrectable error hits a slot (R474). -/
def execSlotEcc (n : Nat) (s : State) : Host.Outcome State Fault Refusal :=
  .next <|
    if n < 512 ∧ s.slotState n ≠ 0 ∧ alive s 5 then
      let s := s.fault 16 3 [word n]
      let (l, s) := s.revokeSet n
      s.logSecurity keeper 4 (word n) (word l.length)
    else s

/-! ### Cipher jobs (R487, R488) -/

/-- OP, SLOT, DST_SLOT, LEN, SRC, DST and AUX of a job. -/
def CipJob.op (j : CipJob) : Nat := leAt j.words 0 1
/-- The slot a job uses. -/
def CipJob.slot (j : CipJob) : Nat := leAt j.words 0 4 / 256 % 512
/-- The slot a job fills. -/
def CipJob.dst (j : CipJob) : Nat := leAt j.words 0 4 / 131072 % 512
/-- Its input length. -/
def CipJob.len (j : CipJob) : Nat := leAt j.words 4 4
/-- Its input address. -/
def CipJob.src (j : CipJob) : Nat := leAt j.words 8 6
/-- Its output address. -/
def CipJob.out (j : CipJob) : Nat := leAt j.words 16 6
/-- Its parameter address. -/
def CipJob.aux_ (j : CipJob) : Nat := leAt j.words 24 6

/-- USE bit an OP needs (R487). -/
def opUse (op : Nat) : Nat :=
  match op with | 1 => 4 | 2 => 4 | 3 => 5 | 4 => 4 | 7 => 6 | _ => 7

/-- The root the life-cycle state makes active (R490). -/
def activeRoot (lc : Nat) : Option Nat :=
  match lc with | 1 => some 0 | 2 => some 1 | 3 => some 1 | 4 => some 2 | _ => none

/-- The bytes of a root. -/
def rootBytes (k : Nat) : Bytes := beBytes 32 (Config.root k).toNat

/-- LEN of a job fits its OP (R487, R502). -/
def CipJob.lenOk (j : CipJob) : Bool :=
  decide (j.len ≤ 2 ^ 24) &&
  match j.op with
  | 2 => 16 ≤ j.len
  | 5 => j.len == 32
  | 6 => 1 ≤ j.len
  | 7 => j.len == 8 + keyBytes j.attr
  | 8 => j.len == 32
  | _ => true

/-- Why a job ends without running: its RESULT; none where it runs (R468, R471, R487). [DEDUCED, assumption 96] -/
def State.jobRefusal (s : State) (j : CipJob) : Option Nat :=
  if !s.regBit R.CIP_CTRL 2 || j.op == 0 || 8 < j.op then some 4
  else if 5 ≤ j.op ∧ s.regBit R.CIP_STATUS 0 then some 5
  else if j.m.origin ≠ 1 ∧ (j.op = 8 ∨ keeperSlot j.slot ∨ (5 ≤ j.op ∧ keeperSlot j.dst)) then some 4
  else if j.op = 8 ∧ (activeRoot (lifeCycle s)).isNone then some 4
  else if j.op ≠ 8 ∧ s.slotState j.slot = 2 then some 8
  else if j.op ≠ 8 ∧ !s.slotUse j.slot (opUse j.op) then some 4
  else if !j.lenOk then some 4
  else if 5 ≤ j.op then s.loadRefusal j.m j.dst j.attr j.aux
  else none

/-- The security event of a job that makes a key: code, old and new value; slot and OP share bit 8 of the new value, which
holds either (R500). [DEDUCED, assumption 97] -/
def CipJob.event (j : CipJob) : Nat × Word × Word :=
  if j.op = 7 then (3, word j.slot, word j.dst)
  else (2, if j.op = 8 then 0xFFFFFFFF#32 else word j.slot, word j.dst ||| word (j.op * 256))

/-- A job completes with a result. [DEDUCED, assumption 97] -/
def State.jobEnd (s : State) (j : CipJob) (r : Nat) : State :=
  let s := s.setCip { s.cip with job := none }
  let s := ((s.setResult R.CIP_JOB_STAT r).satCtr 16 1 6).raise 16 3
  let e := j.event
  if j.op < 5 ∨ 8 < j.op then s
  else if r = 0 then s.logSecurity j.m e.1 e.2.1 e.2.2
  else s.secRefused j.m e.1 e.2.1 e.2.2

/-- A write of CIP_JOB_GO: the job starts, or completes at once with its refusal. -/
def State.jobGo (s : State) (m : Master) (v : Word) : State :=
  if !bitOf v 0 then s
  else
    let words := (List.range 8).flatMap fun i => leBytes 4 (s.reg (R.CIP_JOB i)).toNat
    let j : CipJob := ⟨m, words, s.stagedAttr, s.stagedAux⟩
    match s.jobRefusal j with
    | some r => s.jobEnd j r
    | none => (s.setCip { s.cip with job := some j }).setReg R.CIP_JOB_STAT 1

/-- A range of DRAM or core scratch SRAM, where a job's data lies (R487). -/
def jobMem (a n : Nat) : Bool :=
  (0x800000000 ≤ a && a + n ≤ 0x9F0000000) || (0x08000000 ≤ a && a + n ≤ 0x08200000)

/-- The key derivation of IEEE 802.1X-2020 clause 6.2.1 over label, zero octet and context as SRC gives them.
[PRESUMED, assumption 136] -/
def kdf8021x (key src : Bytes) (bits : Nat) : Bytes :=
  ((List.range ((bits + 127) / 128)).flatMap fun i => cmac key ([byte (i + 1)] ++ src ++ beBytes 2 bits)).take (bits / 8)

/-- The key a job puts into a slot; none where UNWRAP's integrity check fails. [PRESUMED, assumption 136] -/
def State.jobKey (s : State) (j : CipJob) : Option Bytes :=
  let src := s.read j.src j.len
  let bits := 8 * keyBytes j.attr
  let k := (s.slotOf j.slot).key
  match j.op with
  | 5 => some (kdf k (ascii "PG960/child") src bits)
  | 6 => some (kdf8021x k src bits)
  | 7 => keyUnwrap k src
  | _ => some (kdf (rootBytes ((activeRoot (lifeCycle s)).getD 0)) (ascii "PG960/slot")
      (src ++ [byte j.m.origin]) bits)

/-- Input, parameter and output ranges of OPs 1-4: AUX bytes before the AAD, and output bytes. -/
def CipJob.ranges (j : CipJob) : Bool :=
  jobMem j.src j.len &&
  (match j.op with
   | 1 => jobMem j.aux_ 16 && jobMem j.out (j.len + 16)
   | 2 => jobMem j.aux_ 16 && jobMem j.out (j.len - 16)
   | 3 => jobMem j.out 16
   | _ => jobMem j.aux_ 16 && jobMem j.out j.len)

/-- The output of OPs 1-4; none where GCM's tag does not match. -/
def State.jobOut (s : State) (j : CipJob) : Option Bytes :=
  let src := s.read j.src j.len
  let k := (s.slotOf j.slot).key
  let iv := s.read j.aux_ 12
  let aad := s.read (j.aux_ + 16) (leVal (s.read (j.aux_ + 12) 4))
  match j.op with
  | 1 => let (c, t) := gcmEnc k iv aad src; some (c ++ t)
  | 2 => gcmDec k iv aad (src.take (j.len - 16)) (src.drop (j.len - 16))
  | 3 => some (cmac k src)
  | _ => some (ctrMode k (s.read j.aux_ 16) src true)

/-- A child made by a job is a descendant of its parent, and is `REVOKED` at once where the parent has been (R474). -/
def State.jobChild (s : State) (j : CipJob) (key : Bytes) : State :=
  let parent := if j.op = 8 then none else some j.slot
  let dead := j.op ≠ 8 ∧ s.slotState j.slot = 2
  let s := s.setSlot j.dst ⟨key, slotAttr j.attr parent (if dead then 2 else 1), j.aux⟩
  if dead then
    s.setCip { s.cip with sets := s.cip.sets.map fun l => if l.contains j.slot then l ++ [j.dst] else l }
  else s

/-- A job's work: the state after it and its RESULT. [DESIGN CHOICE, assumption 101] -/
def State.jobWork (s : State) (j : CipJob) : State × Nat :=
  if 5 ≤ j.op then
    if j.op ≤ 8 ∧ !jobMem j.src j.len then (s, 7)
    else if s.slotState j.dst ≠ 0 then (s, 4)
    else match s.jobKey j with
      | some k => (s.jobChild j k, 0)
      | none => (s, 9)
  else if j.len = 0 then (s, 0)
  else if !j.ranges || (j.op ≤ 2 && !jobMem (j.aux_ + 16) (leVal (s.read (j.aux_ + 12) 4))) then (s, 7)
  else match s.jobOut j with
    | some o => (s.write j.out o, 0)
    | none => (s, 9)

/-- The job completes (R488); `busError` is a bus error on its data, `core` a core whose state took an uncorrectable error
and leaves use (R467). -/
def execJobDone (busError : Bool) (core : Option Nat) (s : State) : Host.Outcome State Fault Refusal :=
  .next <|
    match s.cip.job with
    | none => s
    | some j =>
      match core with
      | some c =>
        let s := (s.fault 16 2 [word c]).satCtr 16 1 7
        let s := s.setCip { s.cip with out := lineIns c s.cip.out }
        match s.cip.job with
        | some j => s.jobEnd j 7
        | none => s
      | none =>
        if busError then s.jobEnd j 7
        else
          let (s, r) := s.jobWork j
          s.jobEnd j r

/-! ### Alarms (R475-R477) -/

/-- The alarm input is driven by a cause: slots, SA records and the job go (R476). [DEDUCED, assumption 106] -/
def State.cipAlarm (s : State) (cause : Nat) : State :=
  let n := s.cip.slots.length
  let revoking := !s.cip.sets.isEmpty
  let s := s.setReg R.CIP_STATUS (putBit (putFld (s.reg R.CIP_STATUS) 7 4 cause) 0 true)
  let s := match s.cip.job with
    | some j => s.jobEnd j 5
    | none => s
  let s := s.setCip { s.cip with
    slots := [], sets := [], causes := lineIns cause s.cip.causes
    sas := s.cip.sas.map fun e => (e.1, { e.2 with valid := false }) }
  let s := if revoking then s.raise 16 1 else s
  let s := (s.incReg R.KEY_ALARM_CNT).logSecurity keeper 5 (word cause) (word n)
  (s.raise 16 2).fault 16 1 [word cause]

/-- A cause ceases to hold. [DEDUCED, assumption 106] -/
def State.cipCauseEnd (s : State) (cause : Nat) : State :=
  s.setCip { s.cip with causes := s.cip.causes.filter (· != cause) }

/-- A supply glitch, a clock glitch, a temperature or the manifest count drives the alarm input, or ceases to
(R475, R476). -/
def execCipherAlarm (cause : Nat) (on : Bool) (s : State) : Host.Outcome State Fault Refusal :=
  .next <|
    if cause < 2 ∨ 5 < cause then s
    else if on then s.cipAlarm cause else s.cipCauseEnd cause

/-- CIP_ALARM_ACK is taken: ALARM clears (R477). [DEDUCED, assumption 106] -/
def State.alarmAck (s : State) (v : Word) : State :=
  if bitOf v 0 then s.setReg R.CIP_STATUS (putBit (s.reg R.CIP_STATUS) 0 false) else s

/-! ### SA and SC records (R481, R505) -/

/-- Port, RX, SC and AN of CIP_SA_SEL. -/
def State.saSel (s : State) : Nat × Bool × Nat × Nat :=
  (s.regFld R.CIP_SA_SEL 6 0, s.regBit R.CIP_SA_SEL 8, s.regFld R.CIP_SA_SEL 11 9, s.regFld R.CIP_SA_SEL 14 12)

/-- A record before any INSTALL. -/
def SaRec.none : SaRec := ⟨false, 0, 0, 0, [], false⟩

/-- The record the SA registers hold. -/
def State.saStaged (s : State) : SaRec :=
  ⟨s.regBit (R.CIP_SA_W 0) 31, s.regFld (R.CIP_SA_W 0) 8 0,
    (s.reg (R.CIP_SA_W 1)).toNat + (s.reg (R.CIP_SA_W 2)).toNat * 2 ^ 32, (s.reg (R.CIP_SA_W 3)).toNat,
    (List.range 3).flatMap fun i => leBytes 4 (s.reg (R.CIP_SA_W (4 + i))).toNat, false⟩

/-- INSTALL refuses a record (R481). -/
def State.saRefused (s : State) : Bool :=
  let (p, rx, sc, an) := s.saSel
  let r := s.saStaged
  let cfg := s.reg (R.CIP_SECY_CFG p)
  if 29 ≤ p then true
  else if an = 4 then !rx
  else
    (!rx && sc != 0) || !s.slotUse r.slot (if rx then 1 else 0) ||
    fld (s.slotOf r.slot).attr 9 8 != (if fld cfg 9 8 % 2 = 0 then 0 else 2) ||
    (rx && (kvGet? s.cip.scs (p * 8 + sc)).isNone) ||
    (kvGet s.cip.sas (saKey p rx sc an) SaRec.none).valid || (!rx && fld cfg 17 16 == an)

/-- What an SA command's entry gives as old value (R500). -/
def State.saTarget (s : State) (retire : Bool) : Word :=
  let (p, rx, sc, an) := s.saSel
  word (p + 256 * rx.toNat + 512 * sc + 4096 * (an % 4) + (if retire then 2 ^ 31 else 0))

/-- INSTALL. -/
def State.saInstall (s : State) (m : Master) : State :=
  let (p, rx, sc, an) := s.saSel
  let r := s.saStaged
  if s.saRefused then (s.setResult R.CIP_SA_STAT 4).secRefused m 6 (s.saTarget false) (word r.slot)
  else
    let s :=
      if an = 4 then s.setCip { s.cip with
        scs := if r.valid then kvSet s.cip.scs (p * 8 + sc) r.pn else kvDel s.cip.scs (p * 8 + sc) }
      else s.setCip { s.cip with sas := kvSet s.cip.sas (saKey p rx sc an) r }
    (s.setResult R.CIP_SA_STAT 0).logSecurity m 6 (s.saTarget false) (word r.slot)

/-- RETIRE: the record becomes invalid, its slot stays `LOADED`. -/
def State.saRetire (s : State) (m : Master) : State :=
  let (p, rx, sc, an) := s.saSel
  if 29 ≤ p then (s.setResult R.CIP_SA_STAT 4).secRefused m 6 (s.saTarget true) 0
  else
    let k := saKey p rx sc an
    let r := kvGet s.cip.sas k SaRec.none
    let s :=
      if an = 4 then s.setCip { s.cip with scs := kvDel s.cip.scs (p * 8 + sc) }
      else if r.valid then s.setCip { s.cip with sas := kvSet s.cip.sas k { r with valid := false } }
      else s
    (s.setResult R.CIP_SA_STAT 0).logSecurity m 6 (s.saTarget true) (word (if an = 4 then 0 else r.slot))

/-- READ into CIP_SA_W0-7. -/
def State.saRead (s : State) : State :=
  let (p, rx, sc, an) := s.saSel
  let r :=
    if an = 4 then
      match kvGet? s.cip.scs (p * 8 + sc) with
      | some sci => { SaRec.none with valid := true, pn := sci }
      | none => SaRec.none
    else kvGet s.cip.sas (saKey p rx sc an) SaRec.none
  let ws : List Word := [word (r.slot + (if r.valid then 2 ^ 31 else 0)), word r.pn, word (r.pn / 2 ^ 32), word r.ssci,
    wordAt r.salt 0, wordAt r.salt 1, wordAt r.salt 2, 0]
  let s := (ws.zipIdx).foldl (fun s (w, i) => s.setReg (R.CIP_SA_W i) w) s
  s.setResult R.CIP_SA_STAT 0

/-- A write of CIP_SA_CMD. -/
def State.saCmd (s : State) (m : Master) (v : Word) : State :=
  if !bitOf v 31 then s
  else match fld v 1 0 with
    | 1 => s.saInstall m
    | 2 => s.saRetire m
    | _ => s.saRead

/-- CIP_FV_CMD.SET: the counter that CIP_FV_SEL names takes the staged value (R486). -/
def State.fvSet (s : State) (m : Master) (v : Word) : State :=
  if !bitOf v 0 then s
  else
    let i := s.regFld R.CIP_FV_SEL 11 0
    let lo := s.reg R.CIP_FV_SET_LO
    (s.setFv i (lo.toNat + (s.reg R.CIP_FV_SET_HI).toNat * 2 ^ 32)).logSecurity m 7 (word i) lo

/-- New random bits of the keeper's generator (R508). -/
def State.rngRead (s : State) : Word × State := (Config.freeWord s.freeCtr, s.tickFree)

/-! ### The key vault (R496, R497) -/

/-- Position k of an ID in the vault. -/
def vaultAt (id k : Nat) : Nat := 0x41200000 + (2 * id + k) * 64

/-- SYS_SERIAL, little-endian. -/
def State.serial (s : State) : Bytes := leBytes 4 (s.reg R.SYS_SERIAL_LO).toNat ++ leBytes 4 (s.reg R.SYS_SERIAL_HI).toNat

/-- CHECK of a record. -/
def vaultCheck (mac r : Bytes) : Bytes := (cmac mac (r.take 48 ++ slice r 56 4)).take 8

/-- A position's record, if its CHECK is valid and its SEQ counts. -/
def State.vaultRec (s : State) (mac : Bytes) (id k : Nat) : Option Bytes :=
  let r := s.read (vaultAt id k) 64
  let seq := leAt r 56 4
  if seq = 0 ∨ seq = 0xFFFFFFFF ∨ leAt r 0 4 ≠ id ∨ slice r 48 8 ≠ vaultCheck mac r then none else some r

/-- The winner of an ID: its position and its record. -/
def State.vaultWinner (s : State) (mac : Bytes) (id : Nat) : Option (Nat × Bytes) :=
  match s.vaultRec mac id 0, s.vaultRec mac id 1 with
  | some a, some b => if leAt a 56 4 < leAt b 56 4 then some (1, b) else some (0, a)
  | some a, none => some (0, a)
  | none, some b => some (1, b)
  | none, none => none

/-- The life-cycle state has a vault (R490). [DEDUCED, assumption 105] -/
def vaultOn (lc : Nat) : Bool := lc == 1 || lc == 2 || lc == 3

/-- Slots 510 and 511 hold the vault's keys: an `EMPTY` one is derived from the active root (R494).
[DEDUCED, assumption 100] -/
def State.vaultKeys (s : State) : State :=
  match activeRoot (lifeCycle s) with
  | none => s
  | some k =>
    let put (s : State) (n use : Nat) (label : String) : State :=
      if s.slotState n = 0 ∧ alive s 5 then
        s.setSlot n ⟨kdf (rootBytes k) (ascii label) s.serial 256, putBit (word (0x200 + 2 ^ 30)) use true, 0⟩
      else s
    put (put s 510 6 "PG960/vault-kw") 511 5 "PG960/vault-mac"

/-- The vault region erased. -/
def State.vaultErase (s : State) : State :=
  { s with mem := s.mem.filter fun e => e.1 < 0x41200000 || 0x41240000 ≤ e.1 }

/-- Store a record in the position that does not hold the winner: SEQ is one more (R497). -/
def State.vaultPut (s : State) (mac : Bytes) (id : Nat) (attr : Word) (wrapped : Bytes) : State × Nat :=
  let w := s.vaultWinner mac id
  let k := match w with | some (0, _) => 1 | _ => 0
  let seq := match w with | some (_, r) => leAt r 56 4 + 1 | none => 1
  let r := leBytes 4 id ++ leBytes 4 attr.toNat ++ slice wrapped 0 40
  let r := r ++ (cmac mac (r ++ leBytes 4 seq)).take 8
  let s := s.write (vaultAt id k) r
  ((s.write (vaultAt id k + 56) (leBytes 4 seq)).write (vaultAt id k + 60) [0, 0, 0, 0], seq)

/-- Why a vault command is refused: its RESULT. -/
def State.vaultRefusal (s : State) (m : Master) (op slot : Nat) : Option Nat :=
  if s.regBit R.CIP_STATUS 0 then some 5
  else if !vaultOn (lifeCycle s) then some 4
  else if s.slotState 510 = 2 ∨ s.slotState 511 = 2 then some 8
  else if !s.slotUse 510 6 || !s.slotUse 511 5 then some 4
  else if op = 1 then
    if s.slotState slot = 2 then some 8
    else if s.slotState slot ≠ 1 ∨ !bitOf (s.slotOf slot).attr 10 ∨ fld (s.slotOf slot).attr 1 0 ≠ 0 then some 4
    else none
  else if op = 2 then
    if s.slotState slot ≠ 0 ∨ (keeperSlot slot ∧ m.origin ≠ 1) then some 4 else none
  else none

/-- A vault command ends: its result, its event, its entry (R500). -/
def State.vaultEnd (s : State) (m : Master) (op id r : Nat) (new : Word) : State :=
  let s := (s.setResult R.KEY_VLT_STAT r).raise 17 1
  let old := word (op + id * 4096)
  if r = 0 then s.logSecurity m 8 old new else s.secRefused m 8 old new

/-- LOAD of the winning record into an `EMPTY` slot; FV_INDEX of a sealing key, which a record does not hold, is free.
[DESIGN CHOICE, assumption 98] -/
def State.vaultLoad (s : State) (m : Master) (slot id : Nat) : State :=
  match s.vaultWinner (s.slotOf 511).key id with
  | none => s.vaultEnd m 2 id 1 (word slot)
  | some (_, r) =>
    let attr := wordAt r 1
    if bitOf attr 29 then s.vaultEnd m 2 id 1 (word slot)
    else
      let fv := if bitOf attr 2 then (Config.freeWord s.freeCtr).toNat % 2048 else 0
      let s := if bitOf attr 2 then s.tickFree else s
      match s.loadRefusal m slot (attr &&& 0x7FF#32) fv with
      | some e => s.vaultEnd m 2 id e (word slot)
      | none =>
        match keyUnwrap (s.slotOf 510).key (slice r 8 (keyBytes attr + 8)) with
        | none => s.vaultEnd m 2 id 9 (word slot)
        | some k => (s.setSlot slot ⟨k, slotAttr attr none 1, fv⟩).vaultEnd m 2 id 0 (word slot)

/-- A vault command of origin 0x01 with GO; `bad` says that its two write checks fail, so that the previous winner
stands; the RESULT is then free. [DESIGN CHOICE, assumption 99] -/
def State.vaultCmd (s : State) (m : Master) (v : Word) (bad : Bool) : State :=
  if !bitOf v 31 then s
  else
    let s := s.vaultKeys
    let op := fld v 25 24
    let slot := fld v 20 12
    let id := fld v 10 0
    match s.vaultRefusal m op slot with
    | some r => s.vaultEnd m op id r 0
    | none =>
      if op = 2 then s.vaultLoad m slot id
      else if bad then
        let r := (Config.freeWord s.freeCtr).toNat % 16
        ((s.tickFree.fault 17 1 [word id]).setResult R.KEY_VLT_STAT r).raise 17 1
      else
        let mac := (s.slotOf 511).key
        let k := s.slotOf slot
        let (s, seq) :=
          if op = 1 then s.vaultPut mac id (k.attr &&& 0x7FF#32) (keyWrap (s.slotOf 510).key k.key)
          else s.vaultPut mac id (bitWord 29) []
        s.vaultEnd m op id 0 (word seq)

/-! ### The life cycle (R489-R493) -/

/-- A transition of R491 is permitted with this signer (0 Henyaty, 1 the OEM). -/
def lcAllowed (src dst signer : Nat) (oemFused returned : Bool) : Bool :=
  let oemOk := signer == 0 || oemFused
  if dst = 5 then src != 5 && oemOk
  else match src, dst with
    | 0, 1 => signer == 0
    | 1, 2 => signer == 0
    | 2, 3 => oemOk
    | 3, 4 => signer == 0
    | 4, 3 => signer == 0 && !returned
    | _, _ => false

/-- The fused OEM key hash. -/
def State.oemHash (s : State) : Bytes := (List.range 12).flatMap fun i => leBytes 4 (s.reg (R.KEY_OEM_HASH i)).toNat

/-- KEY_LC_NONCE takes a new value (R492). -/
def State.renewNonce (s : State) : State :=
  let s := (s.setReg R.KEY_LC_NONCE_LO (Config.freeWord s.freeCtr)).tickFree
  (s.setReg R.KEY_LC_NONCE_HI (Config.freeWord s.freeCtr)).tickFree

/-- The RESULT of a life-cycle request with its authorisation object (R491, R492). -/
def State.lcResult (s : State) (target : Nat) (obj : Bytes) : Nat :=
  let signer := byteAt obj 5
  let nonce := leBytes 4 (s.reg R.KEY_LC_NONCE_LO).toNat ++ leBytes 4 (s.reg R.KEY_LC_NONCE_HI).toNat
  let form := slice obj 0 4 == ascii "PGLC" && byteAt obj 4 == target && signer ≤ 1 && slice obj 6 2 == [0, 0] &&
    slice obj 8 8 == s.serial && slice obj 16 8 == nonce && slice obj 24 8 == List.replicate 8 0 &&
    slice obj 129 31 == List.replicate 31 0 && (signer == 1 || slice obj 32 97 == List.replicate 97 0)
  if s.key.staged.isSome || !form then 4
  else if !lcAllowed (lifeCycle s) target signer s.key.oemFused s.key.returned then 4
  else
    let pub := slice obj 32 97
    let key := if signer = 0 then Config.romKey 0 else beVal pub
    if signer = 1 ∧ sha384 pub ≠ s.oemHash then 9
    else if Config.ecdsaVerify key (beVal (sha384 (obj.take 160))) (beVal (slice obj 160 96)) then 0 else 9

/-- A write of KEY_LC_REQ by origin 0x01: the object is checked and the target staged; the nonce is renewed (R492,
R493). -/
def State.lcRequest (s : State) (m : Master) (v : Word) : State :=
  if !bitOf v 31 then s
  else
    let target := fld v 2 0
    let a := (s.reg (R.KEY_LC_AUTH 0)).toNat + s.regFld (R.KEY_LC_AUTH 1) 15 0 * 2 ^ 32
    let old := word (lifeCycle s)
    let r := s.lcResult target (s.readAny a 256)
    let s := ((s.setResult R.KEY_LC_STAT r).raise 17 0).renewNonce
    if r = 0 then ({ s with key := { s.key with staged := some target } }).logSecurity m 9 old (word target)
    else s.secRefused m 9 old (word target)

/-- The vault is erased when a transition completes (R491). -/
def lcErases (src dst : Nat) : Bool := dst == 5 || (src == 1 && dst == 2) || (src == 3 && dst == 4) || (src == 4 && dst == 3)

/-- The boot ROM's first act: a staged fuse step is programmed and the staging cleared; the nonce is renewed (R493). -/
def State.lcBoot (s : State) : State :=
  let s := if s.key.stagedOem then { s with key := { s.key with stagedOem := false, oemFused := true } } else s
  let s := match s.key.staged with
    | none => s
    | some t =>
      let old := lifeCycle s
      let s := if lcErases old t then s.vaultErase else s
      let s := s.setReg R.SYS_LC_STATE (word t)
      let s := { s with key := { s.key with staged := none, returned := s.key.returned || (old == 4 && t == 3) } }
      s.logSecurity ⟨0, .machine⟩ 10 (word old) (word t)
  s.renewNonce

end Sys2Proof.Machine
end

