-- ==== Sys2Proof/Machine/Rings.lean ====
section
/-! DEFINITION. Rings: geometry, owners, doorbells, completions and moderation (11_host_rings.md R360-R365,
R374-R384). -/

namespace Sys2Proof.Machine

/-! ### Geometry and owners -/

/-- Kinds of source ring, numbered as KIND of a completion numbers them: 0 transmit, 1 receive, 2 order (a transmit ring),
3 table command (R374). -/
abbrev RingKind := Nat

/-- Address of a ring's first register (R393). -/
def ringAt (k : RingKind) (n : Nat) : Nat :=
  match k with
  | 1 => R.RXRING_BASE_LO n
  | 3 => R.TCRING_BASE_LO n
  | _ => R.TXRING_BASE_LO n

/-- SIZE of a ring; 0 while disabled. -/
def State.ringSize (s : State) (k : RingKind) (n : Nat) : Nat := s.regFld (ringAt k n + 8) 16 0

/-- A ring uses 64-byte slots: VER = 1. [DEDUCED, assumption 81] -/
def State.ringV2 (s : State) (k : RingKind) (n : Nat) : Bool := k != 3 && s.regBit (ringAt k n + 8) 17

/-- OWNER of a ring. -/
def State.ringOwner (s : State) (k : RingKind) (n : Nat) : Nat := s.regFld (ringAt k n + 8) 31 24

/-- Base address of a ring in its owner's space. -/
def State.ringBase (s : State) (k : RingKind) (n : Nat) : Nat :=
  (s.reg (ringAt k n)).toNat + s.regFld (ringAt k n + 4) 15 0 * 2 ^ 32

/-- Completion ring a source ring is bound to. -/
def State.ringCq (s : State) (k : RingKind) (n : Nat) : Nat := s.regFld (ringAt k n + 12) 6 0

/-- A ring index register: 0x10 PROD, 0x14 FETCH, 0x18 DONE. -/
def State.ringIdx (s : State) (k : RingKind) (n off : Nat) : Nat := s.regFld (ringAt k n + off) 16 0

/-- Set a ring index register, modulo twice the ring's size (R363). -/
def State.setRingIdx (s : State) (k : RingKind) (n off v : Nat) : State :=
  s.setReg (ringAt k n + off) (word (v % (2 * s.ringSize k n)))

/-- Steps from index a to index b on a ring of a size (R363). -/
def ringDist (size a b : Nat) : Nat := (b + 2 * size - a % (2 * size)) % (2 * size)

/-- An owner's place in the QMG owner registers (R393); none for a code that is no owner. -/
def ownerIdx (o : Nat) : Option Nat :=
  if o < 8 then some o else if 0x10 ≤ o ∧ o < 0x14 then some (o - 8) else if o = 0x20 then some 12 else none

/-- A host function owns the space (R361). -/
def hostOwner (o : Nat) : Bool := o < 8

/-- Bytes in an owner's address space. -/
def State.ownRead (s : State) (o a n : Nat) : Bytes := if hostOwner o then s.hostRead a n else s.read a n

/-- Store bytes in an owner's address space. -/
def State.ownWrite (s : State) (o a : Nat) (bs : Bytes) : State :=
  if hostOwner o then s.hostWrite a bs else s.write a bs

/-- First byte and end of the DRAM region of partition p, 1-3: granules of 2 MiB, LIMIT included; empty while EN = 0 or
LIMIT lies below BASE (R36, R39). -/
def State.partRegion (s : State) (p : Nat) : Nat × Nat :=
  let b := s.regFld (R.SYS_PART_DRAM_BASE p) 11 0
  let l := s.regFld (R.SYS_PART_DRAM_LIMIT p) 11 0
  if s.regBit (R.SYS_PART_DRAM_BASE p) 31 && decide (b ≤ l) then
    (0x800000000 + b * 0x200000, 0x800000000 + (l + 1) * 0x200000)
  else (0, 0)

/-- A span of fabric addresses lies in general DRAM (R20). -/
def inDram (a n : Nat) : Bool := 0x800000000 ≤ a && a + n ≤ 0x9F0000000

/-- A span lies in core scratch SRAM (R20). -/
def inScratch (a n : Nat) : Bool := 0x08000000 ≤ a && a + n ≤ 0x08200000

/-- A span lies in an owner's space (R361). -/
def State.inSpace (s : State) (o a n : Nat) : Bool :=
  if hostOwner o then a + n ≤ 2 ^ 47
  else if o = 0x20 then inDram a n || inScratch a n
  else
    let p := o - 0x10
    if p = 0 then inDram a n || inScratch a n
    else
      let (b, e) := s.partRegion p
      decide (b ≤ a) && a + n ≤ e && inDram a n

/-- Bytes of a slot. -/
def State.slotBytes (s : State) (k : RingKind) (n : Nat) : Nat := if s.ringV2 k n then 64 else 32

/-- Contents of the slot an index names. -/
def State.slot (s : State) (k : RingKind) (n i : Nat) : Bytes :=
  s.ownRead (s.ringOwner k n) (s.ringBase k n + i % s.ringSize k n * s.slotBytes k n) (s.slotBytes k n)

/-- Accesses on behalf of an owner cannot be issued: a function's, while the outbound window is out of use (R406, R415). -/
def State.dmaDown (s : State) (o : Nat) : Bool := hostOwner o && !s.regBit R.HBR_CTRL 0

/-- An access of n bytes that cannot be issued is logged with `NO_MASTER` (R406). -/
def State.noMaster (s : State) (o a n : Nat) (read : Bool) : State :=
  if s.dmaDown o then s.hbrError a (0x20 + o) true read 5 n else s

/-- A slot cannot be read for want of the outbound window (R406). -/
def State.slotDown (s : State) (k : RingKind) (n i : Nat) : State :=
  s.noMaster (s.ringOwner k n) (s.ringBase k n + i % s.ringSize k n * s.slotBytes k n) (s.slotBytes k n) true

/-- Hidden state of the rings. -/
def State.setRng (s : State) (r : Rng) : State := { s with rng := r }

/-! ### Transmit frames -/

/-- The frames of a transmit ring that are not finished, oldest first. -/
def State.txFrames (s : State) (n : Nat) : List TxFrame := kvGet s.rng.tx n []

/-- Replace the frames of a transmit ring. -/
def State.setTx (s : State) (n : Nat) (l : List TxFrame) : State :=
  s.setRng { s.rng with tx := if l.isEmpty then kvDel s.rng.tx n else kvSet s.rng.tx n l }

/-- Change the frame that begins at an index. -/
def State.modTx (s : State) (n i : Nat) (f : TxFrame → TxFrame) : State :=
  s.setTx n ((s.txFrames n).map fun x => if x.idx = i then f x else x)

/-- DONE passes the finished frames at the front of a transmit ring (R378). -/
def advanceDone : List TxFrame → Nat → List TxFrame × Nat
  | [], d => ([], d)
  | f :: l, d => if f.state = 2 then advanceDone l (f.idx + f.n) else (f :: l, d)

/-- Free the slots of the finished frames at the front. -/
def State.freeTx (s : State) (n : Nat) : State :=
  let (l, d) := advanceDone (s.txFrames n) (s.ringIdx 0 n 0x18)
  let s := s.setTx n l
  if s.ringSize 0 n = 0 then s else s.setRingIdx 0 n 0x18 d

/-- The source slots of a completion are freed (R378). -/
def State.freeSource (s : State) (e : CqEntry) : State :=
  match e.idx with
  | none => s
  | some i =>
    match e.kind with
    | 0 => (s.modTx e.ring i fun f => { f with state := 2 }).freeTx e.ring
    | 2 => s
    | k => if s.ringSize k e.ring = 0 then s else s.setRingIdx k e.ring 0x18 (i + e.n)

/-! ### Completion entries (R374-R376) -/

/-- The 16-byte header of a completion, PHASE 0. -/
def cqHeader (cookie ring kind desc status cause nd flags : Nat) : Bytes :=
  leBytes 4 cookie ++ [byte ring, byte kind] ++ leBytes 2 desc ++ [byte status, byte cause] ++ leBytes 2 nd ++
    [byte flags, 0, 0, 0]

/-- STATUS that a cause gives when no copy was delivered (R376). -/
def causeStatus (c : Nat) : Nat :=
  match c with
  | 0 => 0 | 1 => 7 | 2 => 7 | 3 => 3 | 4 => 4 | 5 => 5 | 6 => 6 | 14 => 3 | _ => 8

/-- STATUS and CAUSE of a frame whose outcome is decided: they follow the failed copy with the lowest egress port (R376),
and a frame that a BLOCK reset took ends with `TRUNCATED` (R382). -/
def TxFrame.outcome (f : TxFrame) : Nat × Nat :=
  match f.fails with
  | [] => (0, 0)
  | x :: l =>
    let c := if (x :: l).any fun e => e.2 == 12 then 12 else (l.foldl (fun (a b : Nat × Nat) => if b.1 < a.1 then b else a) x).2
    if 0 < f.delivered ∧ c ≠ 12 then (2, c) else (causeStatus c, c)

/-- The completion of a transmit frame, at the instant it is decided (R375). -/
def State.txEntry (s : State) (n : Nat) (f : TxFrame) (status cause : Nat) : CqEntry :=
  let flags := (if f.replayed then 2 else 0) + (if f.ledger then 4 else 0) + (if f.timed then 8 else 0) +
    (if f.ledgerFull then 16 else 0)
  let h := cqHeader f.cookie n 0 f.slot status cause f.n flags
  let b := leBytes 2 f.admitted ++ leBytes 2 f.delivered ++ leBytes 4 f.size ++ leBytes 8 (compactOf 3 s.now)
  let v2 := leBytes 8 (if f.timed then f.launch else 0) ++ leBytes 2 ((f.ledgerRec.getD 0) % 32768) ++
    List.replicate 6 0 ++ s.fullStamp 3 s.tim.tb3.val false
  ⟨0, n, some f.idx, f.n, h ++ b ++ v2, s.now, false⟩

/-- State of a completion ring. -/
def State.cq (s : State) (c : Nat) : CqSt := kvGet s.rng.cq c CqSt.none

/-- Replace the state of a completion ring. -/
def State.setCq (s : State) (c : Nat) (v : CqSt) : State := s.setRng { s.rng with cq := kvSet s.rng.cq c v }

/-- A completion falls due on a ring; one bound for a ring with SIZE 0 is discarded and its source freed (R379). -/
def State.postCq (s : State) (c : Nat) (e : CqEntry) : State :=
  if s.regFld (R.CQ_CFG c) 16 0 = 0 then (s.satCtr 9 (0x1400 + c) 4).freeSource e
  else
    let q := s.cq c
    s.setCq c { q with wait := q.wait ++ [e] }

/-- A frame's completion falls due, or under QUIET with `OK` its slots are freed at once (R366, R378). -/
def State.finishTx (s : State) (n : Nat) (f : TxFrame) : State :=
  let (st, ca) := f.outcome
  let (st, ca) := if f.size = 0 ∧ f.fails = [] ∧ f.admitted = 0 then (1, 0) else (st, ca)
  let s := if st = 1 then s.satCtr 9 (0x1000 + n) 4
    else if st = 7 then s.satCtr 9 (0x1000 + n) 5
    else if st = 8 then s.satCtr 9 (0x1000 + n) 6 else s
  let s := if f.replayed then s.satCtr 9 (0x1000 + n) 7 else s
  if f.quiet && st == 0 then (s.modTx n f.idx fun f => { f with state := 2 }).freeTx n
  else
    let s := s.modTx n f.idx fun f => { f with state := 1 }
    s.postCq (s.ringCq 0 n) (s.txEntry n f st ca)

/-- Frames whose completion may be written now: decided ones, with ORDER = 0 only those behind no running one (R378). -/
def dueTx (any : Bool) : List TxFrame → List TxFrame
  | [] => []
  | f :: l => if f.state = 0 then (if f.left = 0 then f :: dueTx any l else if any then dueTx any l else [])
              else dueTx any l

/-- Bring due completions of a transmit ring forward. -/
def State.flushTx (s : State) (n : Nat) : State :=
  (dueTx (s.regBit (R.TXRING_CFG n) 19) (s.txFrames n)).foldl (fun s f => s.finishTx n f) s

/-- A copy of a ring's frame ended: delivered, or failed at a port for a cause (R376). -/
def State.txCopyEnd (s : State) (n i : Nat) (fail : Option (Nat × Nat)) : State :=
  (s.modTx n i fun f =>
    { f with
      left := f.left - 1
      delivered := f.delivered + (if fail.isNone then 1 else 0)
      fails := f.fails ++ fail.toList }).flushTx n

/-- Admission of a ring's frame ended: how many copies were admitted, which failed, and what the ledger gave. -/
def State.txAdmitted (s : State) (n i admitted : Nat) (fails : List (Nat × Nat)) (ledger : Bool)
    (rcd : Option Nat) (full : Bool) : State :=
  (s.modTx n i fun f =>
    { f with
      admitted := admitted, left := admitted, fails := fails, ledger := ledger, ledgerRec := rcd
      ledgerFull := full }).flushTx n

/-! ### Moderation and completion writes (R377-R381) -/

/-- Signal a completion ring's interrupt to its owner (R381). -/
def State.cqSignal (s : State) (c : Nat) : State :=
  let o := s.regFld (R.CQ_CFG c) 31 24
  let r := s.reg (R.CQ_IRQ c)
  let v := fld r 9 0
  let s := s.addCtr 9 (0x1400 + c) 2 1
  if hostOwner o then s.emit (.msix o v)
  else if o = 0x20 then s.emit (.ringIrq true 0 v)
  else s.emit (.ringIrq false (fld r 14 12) v)

/-- The moderation check of R380. -/
def State.cqCheck (s : State) (c : Nat) : State :=
  let q := s.cq c
  let r := s.reg (R.CQ_IRQ c)
  let n := fld r 23 16
  let us := s.regFld (R.CQ_MOD c) 15 0
  if q.armed && bitOf r 15 && decide (0 < q.pend) &&
      ((decide (0 < n) && decide (n ≤ q.pend)) || (decide (0 < us) && decide (us * 1000 ≤ s.now - q.first))) then
    (s.cqSignal c).setCq c { q with armed := false, pend := 0 }
  else s

/-- Entries written and not yet consumed on a completion ring. -/
def State.cqFill (s : State) (c : Nat) : Nat :=
  ringDist (s.regFld (R.CQ_CFG c) 16 0) (s.regFld (R.CQ_CONS c) 16 0) (s.regFld (R.CQ_PROD c) 16 0)

/-- Write the oldest completion of a ring, if there is room: the body, then the header with PHASE, then the interrupt's
moderation, and the source slot is freed (R377, R378, R380). -/
def State.cqWrite (s : State) (c : Nat) (fail : Bool) : State :=
  let q := s.cq c
  let size := s.regFld (R.CQ_CFG c) 16 0
  match q.wait with
  | [] => s
  | e :: rest =>
    if size = 0 then (s.setCq c { q with wait := rest }).freeSource e
    else if size ≤ s.cqFill c then s
    else
      let i := s.regFld (R.CQ_PROD c) 16 0
      let v2 := s.regBit (R.CQ_CFG c) 17
      let phase := if i / size % 2 = 0 then 1 else 0
      let len := if v2 then 64 else 32
      let bs := putBytes (e.bytes.take len) 12 [byte (byteAt e.bytes 12 + phase)]
      let base := (s.reg (R.CQ_BASE_LO c)).toNat + s.regFld (R.CQ_BASE_HI c) 15 0 * 2 ^ 32
      let a := base + i % size * len
      let o := s.regFld (R.CQ_CFG c) 31 24
      let s := s.setCq c { q with wait := rest }
      let s := if fail || s.dmaDown o then (s.noMaster o a len false).fault 9 8 [] else
        (s.ownWrite (s.regFld (R.CQ_CFG c) 31 24) (a + 16) (bs.drop 16)).ownWrite
          (s.regFld (R.CQ_CFG c) 31 24) a (bs.take 16)
      let s := (s.setReg (R.CQ_PROD c) (word ((i + 1) % (2 * size)))).addCtr 9 (0x1400 + c) 0 1
      let q := s.cq c
      let s := s.setCq c { q with pend := q.pend + 1, first := if q.pend = 0 then s.now else q.first }
      (s.cqCheck c).freeSource e

/-! ### Doorbells (R363-R365) -/

/-- The writer may ring for an owner: the owner, a core of the owning partition, or the keeper (R365).
[DEDUCED, assumption 83] -/
def State.mayRing (s : State) (m : Master) (o : Nat) : Bool :=
  m.origin == 1 ||
  (if o < 8 then m.origin == 0x20 + o
   else if o = 0x20 then false
   else (coreOf m).isSome && partitionOf s m == o - 0x10)

/-- A doorbell is dropped as bad (R365). [DEDUCED, assumption 83] -/
def State.dbBad (s : State) : State := (s.satCtr 9 1 1).raise 9 0

/-- A doorbell is denied: DB_DENY, and the first denied one is kept (R365, R394). [DEDUCED, assumption 25 and 83] -/
def State.dbDeny (s : State) (page : Nat) (m : Master) : State :=
  let s := s.satCtr 9 1 2
  let s := if s.sys.dbCap then s
    else
      { s with sys := { s.sys with dbCap := true } }.setReg R.QMG_DB_DENY_INFO (word (page * 65536 + m.origin * 256))
  (s.raise 9 1).fault 9 10 [word page, word m.origin, 0, 0]

/-- A producer doorbell of a source ring (R364, R365). -/
def State.prodDoorbell (s : State) (m : Master) (k : RingKind) (n page v : Nat) : State :=
  let size := s.ringSize k n
  if size = 0 then s.satCtr 9 1 0
  else if !s.mayRing m (s.ringOwner k n) then s.dbDeny page m
  else if 2 * size ≤ v ∨ size < ringDist size (s.ringIdx k n 0x18) v then s.dbBad
  else s.setRingIdx k n 0x10 v

/-- A CONS doorbell of a completion ring (R365, R380). -/
def State.consDoorbell (s : State) (m : Master) (c page v : Nat) : State :=
  let size := s.regFld (R.CQ_CFG c) 16 0
  let arm := decide (2 ^ 31 ≤ v)
  let i := v % 2 ^ 31
  if size = 0 then s.satCtr 9 1 0
  else if !s.mayRing m (s.regFld (R.CQ_CFG c) 31 24) then s.dbDeny page m
  else if 2 * size ≤ i ∨ s.cqFill c < ringDist size (s.regFld (R.CQ_CONS c) 16 0) i then s.dbBad
  else
    let s := s.setReg (R.CQ_CONS c) (word i)
    if arm then
      let n := s.cqFill c
      let q := s.cq c
      (s.setCq c { q with armed := true, pend := n, first := if 0 < n then s.now else q.first }).cqCheck c
    else s

/-- A doorbell write to a page (R363). [DEDUCED, assumption 19] -/
def State.doorbell (s : State) (m : Master) (page v : Nat) : State :=
  if !alive s 3 then s
  else if page < 256 then s.prodDoorbell m 0 page page v
  else if page < 512 then s.prodDoorbell m 1 (page - 256) page v
  else if page < 640 then s.consDoorbell m (page - 512) page v
  else if page < 656 then s.prodDoorbell m 3 (page - 640) page v
  else s

end Sys2Proof.Machine
end

