-- ==== Sys2Proof/Machine/Alive.lean ====
section
/-! DEFINITION. Guard loads and APPLY, the fault pages' commands, the alive signal and SAFE_PWR
(13_guards_and_faults.md R428-R465, 17_module.md R573-R574). -/

namespace Sys2Proof.Machine

/-- Replace the guards' hidden state. -/
def State.setGrd (s : State) (x : Grd) : State := { s with grd := x }

/-- Replace the alive signal's hidden state. -/
def State.setAlv (s : State) (x : Alv) : State := { s with alv := x }

/-! ### Guard tables (R429, R457) -/

/-- Record bytes and number of records of a guard structure: ID maps, CAN pairs, Ethernet rules, safe-state store. -/
def grdRec (k : Nat) : Nat × Nat :=
  match k with | 0 => (256, 32) | 1 => (8, 2048) | 2 => (16, 1856) | _ => (128, 244)

/-- A guard structure. -/
def Grd.part (g : Grd) (k : Nat) : Kv Bytes :=
  match k with | 0 => g.idMap | 1 => g.pairs | 2 => g.rules | _ => g.safe

/-- Replace a guard structure. -/
def Grd.setPart (g : Grd) (k : Nat) (v : Kv Bytes) : Grd :=
  match k with | 0 => { g with idMap := v } | 1 => { g with pairs := v } | 2 => { g with rules := v } | _ => { g with safe := v }

/-- Store a record; one of zeros is not listed. -/
def putRec (l : Kv Bytes) (i : Nat) (r : Bytes) : Kv Bytes := if r.all (· == 0) then kvDel l i else kvSet l i r

/-- Store whole records from record i on. -/
def putRecs (l : Kv Bytes) (i sz : Nat) (bs : Bytes) : Kv Bytes :=
  (List.range (bs.length / sz)).foldl (fun l j => putRec l (i + j) (slice bs (j * sz) sz)) l

/-- GRD_LD_SRC. -/
def State.grdLdSrc (s : State) : Nat := (s.reg (R.GRD_LD_SRC 0)).toNat + s.regFld (R.GRD_LD_SRC 1) 15 0 * 2 ^ 32

/-- A write of GRD_LD_CTRL is in range (R283, R457). -/
def State.grdLoadOk (s : State) (v : Word) : Bool :=
  let k := fld v 1 0
  let (sz, n) := grdRec k
  let dst := (s.reg R.GRD_LD_DST).toNat
  let len := (s.reg R.GRD_LD_LEN).toNat
  !(bitOf v 31 || bitOf v 8) ||
  (s.grd.load.isNone &&
    (bitOf v 8 || (dst % sz == 0 && len % sz == 0 && dst + len ≤ sz * n &&
      (inDram s.grdLdSrc len || inScratch s.grdLdSrc len))))

/-- Result of a guard load. -/
def State.grdLoadEnd (s : State) (result : Nat) : State :=
  (s.setGrd { s.grd with load := none }).setReg R.GRD_LD_STAT (word (result * 256))

/-- An accepted write of GRD_LD_CTRL. [DEDUCED, assumption 151] -/
def State.grdLoadGo (s : State) (v : Word) : State :=
  let k := fld v 1 0
  let len := (s.reg R.GRD_LD_LEN).toNat
  if bitOf v 8 then s.setGrd { s.grd.setPart k [] with load := some ⟨true, k, 0, 0, 0⟩ }
  else if !bitOf v 31 then s
  else if len = 0 then s.grdLoadEnd 0
  else s.setGrd { s.grd with load := some ⟨false, k, s.grdLdSrc, (s.reg R.GRD_LD_DST).toNat, len⟩ }

/-- GRD_LOAD_DONE: the load's records stand in their structure. -/
def execGrdLoadDone (s : State) : Host.Outcome State Fault Refusal :=
  .next <|
    if !alive s 1 then s
    else match s.grd.load with
      | none => s
      | some j =>
        let sz := (grdRec j.struct_).1
        let s := if j.clear then s else
          s.setGrd (s.grd.setPart j.struct_
            (putRecs (s.grd.part j.struct_) (j.dst / sz) sz (s.read j.src j.len)))
        s.grdLoadEnd 0

/-! ### APPLY (R431, R433) -/

/-- LEN of a safe-state slot. -/
def State.safeLen (s : State) (p k : Nat) : Nat := leAt (kvGet s.grd.safe (portOrd p * 4 + k) []) 0 2

/-- A safe-state frame suits its port (R431 reason 3). -/
def suitsPort (p : Nat) (bs : Bytes) : Bool :=
  if p < 64 then 14 ≤ bs.length && bs.length ≤ 120
  else if p < 96 then busAgrees bs && canCarries (p - 64) (busFormat bs)
  else busAgrees bs && busFormat bs == 3

/-- Every safe-state slot: port and number. -/
def safeSlots : List (Nat × Nat) := guardedPorts.flatMap fun p => (List.range 4).map fun k => (p, k)

/-- First safe-state slot that fails a check. -/
def firstSlot (ok : Nat → Nat → Bool) : Option (Nat × Nat) := safeSlots.find? fun x => !ok x.1 x.2

/-- ALV_CFG is valid (R461). [DEDUCED, assumption 93] -/
def alvCfgOk (v : Word) : Bool :=
  fld v 7 0 ≤ 250 && fld v 7 0 + 5 ≤ fld v 19 8 && 1 ≤ fld v 27 20

/-- First failed check of APPLY, as (reason, port, slot); `badPort` is a port record that reason 1 refuses.
[DEDUCED, assumption 89 and 93] -/
def State.applyError (s : State) (badPort : Option Nat) : Option (Nat × Nat × Nat) :=
  match badPort with
  | some p => some (1, p, 0)
  | none =>
    let at_ (r : Nat) (x : Option (Nat × Nat)) := x.map fun y => (r, y.1, y.2)
    match firstSlot fun p k => s.safeLen p k ≤ 120 with
    | some x => some (2, x.1, x.2)
    | none =>
      match firstSlot fun p k => match s.safeSlot p k with | some b => suitsPort p b | none => true with
      | some x => some (3, x.1, x.2)
      | none =>
        match at_ 4 (firstSlot fun p k => match s.safeSlot p k with
            | some b => s.idAllowed p b && s.saOk p b
            | none => true) with
        | some x => some x
        | none => if alvCfgOk (s.reg R.ALV_CFG) then none else some (5, 0, 0)

/-- GRD_MAN_FAILS counts one; at 3 the cipher cluster's alarm input is driven (R433). -/
def State.manifestFailed (s : State) : State :=
  let old := s.regFld R.GRD_MAN_FAILS 7 0
  let s := s.setReg R.GRD_MAN_FAILS (word (min (old + 1) 255))
  let s := s.fault 6 3 []
  if old + 1 = 3 then (s.fault 6 4 []).cipAlarm 5 else s

/-- The checks pass: the manifest is applied in one step (R431); before ALIVE_OUT has started, the safe-state sets are
sent (R435). -/
def State.applied (s : State) : State :=
  let s := s.setReg R.GRD_STATUS (putBit (s.reg R.GRD_STATUS) 0 true)
  let s := s.setGrd { s.grd with bucket := [] }
  let s := (s.setReg (winBase 6 + 0x20) 1).setReg (winBase 5 + 0x20) 1
  let s := (s.setReg R.GRD_MAN_FAILS 0).cipCauseEnd 5
  let s := s.setAlv { s.alv with applyAt := some s.now }
  let s := s.raise 6 4
  if s.toggling then s else s.sendSafeSets

/-- APPLY with its checks: refused under R78 at the first that fails. [DEDUCED, assumption 89] -/
def State.apply (s : State) (m : Master) (badPort : Option Nat) : State :=
  match s.applyError badPort with
  | some (r, p, k) =>
    let s := s.setReg R.GRD_APPLY_ERR (word (k + p * 2 ^ 16 + r * 2 ^ 24))
    (s.refuse m R.GRD_APPLY 0 1).manifestFailed
  | none => s.applied

/-- ACT_WINDOW_RESET: a 10 ms boundary of TB3 clears every port's ACT_USED (R425). -/
def execActWindowReset (s : State) : Host.Outcome State Fault Refusal :=
  .next (if alive s 1 then guardedPorts.foldl (fun s p => s.setFld (R.GRD_PSTAT p) 15 0 0) s else s)

/-- SAFE_SET_REPEAT: every port whose period has passed since its last set sends it again (R435). -/
def execSafeSetRepeat (s : State) : Host.Outcome State Fault Refusal :=
  .next <|
    if s.toggling || !s.regBit R.GRD_STATUS 0 || !alive s 1 then s
    else guardedPorts.foldl (fun s p =>
      let period := s.regFld (R.GRD_PCFG p) 15 8
      match kvGet? s.grd.run p with
      | some r => if 0 < period ∧ !r.waiting ∧ r.first + period * 1000000 ≤ s.now then s.sendSafeSet p else s
      | none => s) s

/-! ### Fault pages (R439, R443, R444) -/

/-- A source exists in a window (R464). [DEDUCED, assumption 92] -/
def sourceOk (w src : Nat) : Bool := src == 0 || (defaultReact w).any fun e => e.1 == src

/-- FLT_FORCE: each named source occurs, lower first (R444, R453). [DEDUCED, assumption 92] -/
def State.forceFaults (s : State) (w : Nat) (v : Word) : State :=
  (List.range 32).foldl (fun s src => if bitOf v src && sourceOk w src then s.fault w src [] true else s) s

/-- FLT_ACK closes the open event and captures what remains (R443). [DEDUCED, assumption 91] -/
def State.ackFault (s : State) (w : Nat) (v : Word) : State :=
  if !bitOf v 0 then s
  else
    let s := s.modReg (fltReg w 0x20) fun f => putBit f 8 false
    let s := (s.setReg (fltReg w 0x3C) 0).evalLine w 0
    match (List.range 32).find? fun src => s.regBit (fltReg w 0) src with
    | some src => s.capture w src [] false true
    | none => s

/-- A source whose condition is a level that holds now (R439). [DEDUCED, assumption 91] -/
def State.levelHolds (s : State) (w src : Nat) : Option (List Word) :=
  match w, src with
  | 1, 2 => if 6370 < (s.reg (R.FOX_MEAS 58)).toNat then some [] else none
  | 2, 1 => s.fox.paceLost.head?.map fun n => [word n]
  | 16, 1 => s.cip.causes.head?.map fun c => [word c]
  | 17, 3 => if s.cip.causes.contains 1 then some [] else none
  | 20, 2 => if s.tim.refOk then none else some []
  | _, _ => none

/-- A W1C of FLT_STATUS: a bit whose condition holds sets again at once (R439). [DEDUCED, assumption 91] -/
def State.clearStatus (s : State) (w : Nat) (v : Word) : State :=
  let was := s.reg (fltReg w 0)
  let s := s.setReg (fltReg w 0) (was &&& ~~~ v)
  (List.range 32).foldl (fun s src =>
    if bitOf v src && bitOf was src then
      match s.levelHolds w src with
      | some info => s.fault w src info
      | none => s
    else s) s

/-! ### SAFE_PWR (R452, R573, R574) -/

/-- SAFE_PWR is to be on: the battery input is within range, the detector is satisfied, SAFE_EN is set, and no trip or
thermal limit keeps it off (R452, R568, R574). -/
def State.safeWanted (s : State) : Bool :=
  s.regFld R.FOX_STATUS 1 0 != 1 && s.alv.detector && s.regBit R.ALV_CTRL 0 && !s.alv.tripLatched && s.alv.tripAt.isNone && !s.alv.thermal

/-- Bring SAFE_PWR to what it is to be. [DEDUCED, assumption 95] -/
def State.evalSafe (s : State) : State :=
  if s.safeWanted == s.regBit R.ALV_STATUS 1 then s
  else
    let on := s.safeWanted
    ((s.modReg R.ALV_STATUS fun w => putBit w 1 on).emit (.safePwr on)).raise 5 2

/-- The detector is no longer satisfied: retries stop at once (R574). -/
def State.detectorOff (s : State) : State :=
  (s.setAlv { s.alv with detector := false, limitAt := none, trips := 0, tripAt := none, tripLatched := false }).evalSafe

/-- SAFE_PWR_ON: eight valid edges have come (R452). [DEDUCED, assumption 95] -/
def execSafePwrOn (s : State) : Host.Outcome State Fault Refusal :=
  .next <|
    if s.toggling && !s.alv.detector && s.alv.edgeAt + 7920000 ≤ s.now then
      (s.setAlv { s.alv with detector := true }).evalSafe
    else s

/-- SAFE_PWR_OFF: a fast edge (`fast`), or no edge for 3 ms (R452). -/
def execSafePwrOff (fast : Bool) (s : State) : Host.Outcome State Fault Refusal :=
  .next <|
    if fast || (!s.toggling && !s.alv.ending && s.alv.edgeAt + 3000000 ≤ s.now) then s.detectorOff else s

/-- DETECTOR_MISMATCH: for 10 ms SAFE_PWR has been sensed in a state that TOGGLING and SAFE_EN do not command (R463). -/
def execDetectorMismatch (sensed : Bool) (s : State) : Host.Outcome State Fault Refusal :=
  .next <|
    if sensed == (s.toggling && s.regBit R.ALV_CTRL 0) then s
    else
      let s := if sensed == s.regBit R.ALV_STATUS 1 then s
        else (s.modReg R.ALV_STATUS fun w => putBit w 1 sensed).raise 5 2
      s.fault 5 2 []

/-- SAFE_PWR_LIMIT: the output enters current limit (R574). -/
def execSafePwrLimit (s : State) : Host.Outcome State Fault Refusal :=
  .next <|
    if s.regBit R.ALV_STATUS 1 && s.alv.detector && s.alv.limitAt.isNone then
      (s.setAlv { s.alv with limitAt := some s.now }).fault 5 3 []
    else s

/-- SAFE_PWR_TRIP: after 5 ms in limit the output switches off; the third consecutive trip keeps it off (R574).
[DEDUCED, assumption 95] -/
def execSafePwrTrip (s : State) : Host.Outcome State Fault Refusal :=
  .next <|
    match s.alv.limitAt with
    | some t =>
      if t + 5000000 ≤ s.now then
        let n := s.alv.trips + 1
        ((s.setAlv { s.alv with limitAt := none, trips := n, tripAt := some s.now
                                tripLatched := 3 ≤ n }).evalSafe).fault 5 3 []
      else s
    | none => s

/-- SAFE_PWR_RETRY: one second after a trip, or after the switch has cooled (R574). [DEDUCED, assumption 95] -/
def execSafePwrRetry (s : State) : Host.Outcome State Fault Refusal :=
  .next <|
    match s.alv.tripAt with
    | some t =>
      if t + giga ≤ s.now && !s.alv.thermal && !s.alv.tripLatched then
        (s.setAlv { s.alv with tripAt := none }).evalSafe
      else s
    | none => s

/-- SAFE_PWR_THERMAL: the switch reaches its thermal limit (`hot`), or has cooled (R574). -/
def execSafePwrThermal (hot : Bool) (s : State) : Host.Outcome State Fault Refusal :=
  .next <|
    if hot then (s.setAlv { s.alv with thermal := true, limitAt := none }).evalSafe
    else if s.alv.thermal then
      s.setAlv { s.alv with thermal := false, tripAt := if s.alv.detector then some s.now else none }
    else s

/-! ### The alive signal (R448-R451) -/

/-- STOP_CAUSE. -/
def State.stopCause (s : State) : Nat := s.regFld R.ALV_STATUS 11 8

/-- ALIVE_OUT begins to toggle: no cause stands, the kick window starts, the guards leave SAFE (R436, R448, R451). -/
def State.aliveStart (s : State) : State :=
  let st := putFld (putFld (putFld (s.reg R.ALV_STATUS) 11 8 0) 23 16 0) 28 24 0
  let s := s.setReg R.ALV_STATUS (putBit (putBit st 0 true) 2 false)
  let s := if s.alv.ending then s else s.emit (.alive true)
  let s := s.setAlv { s.alv with
    half := none, restartHalf := none, lastKick := s.now, ending := false
    edgeAt := if s.alv.ending then s.alv.edgeAt else s.now }
  let s := s.setGrd { s.grd with run := [] }
  (s.raise 5 1).raise 6 3

/-- A stop of causes 2-5: KICK_FAULT occurs as well (R450). -/
def State.kickStop (s : State) (cause : Nat) : State := (s.aliveStop cause 0 0).fault 5 1 []

/-- The kick checker is armed (R449). -/
def State.kickArmed (s : State) : Bool :=
  s.toggling || (s.alv.applyAt.isSome && s.stopCause == 0 && s.pwr.chip.isNone)

/-- OPEN_MS, CLOSE_MS and FIRST in nanoseconds. -/
def State.kickWindow (s : State) : Nat × Nat × Nat :=
  (s.regFld R.ALV_CFG 7 0 * 1000000, s.regFld R.ALV_CFG 19 8 * 1000000, s.regFld R.ALV_CFG 27 20 * 100000000)

/-- A kick is complete: it is judged against the window (R448-R450). -/
def State.kickDone (s : State) : State :=
  let (open_, close, first) := s.kickWindow
  let s := s.setAlv { s.alv with half := none }
  let s := s.modReg R.ALV_STATUS fun w => putBit w 2 false
  if s.toggling then
    let d := s.now - s.alv.lastKick
    if d < open_ then s.kickStop 3
    else if close < d then s.kickStop 2
    else s.setAlv { s.alv with lastKick := s.now }
  else
    match s.alv.applyAt with
    | some a => if s.now ≤ a + first then s.aliveStart else s.kickStop 5
    | none => s

/-- A secure write of ALV_KICK (R449). -/
def State.kick (s : State) (v : Word) : State :=
  let k := fld v 15 0
  if !s.kickArmed then s
  else match s.alv.half with
    | none =>
      if k = 0x5A5A then
        (s.setAlv { s.alv with half := some s.now }).modReg R.ALV_STATUS fun w => putBit w 2 true
      else s.kickStop 4
    | some t => if k = 0xA5A5 ∧ s.now ≤ t + 1000000 then s.kickDone else s.kickStop 4

/-- A fault page holds an open event with TAKEN bit 3 (R451). -/
def State.stopOpen (s : State) : Bool :=
  windows.any fun w => s.regBit (fltReg w 0x20) 8 && s.regBit (fltReg w 0x20) 15

/-- ALIVE_OUT may be restarted by a master (R451). -/
def State.restartOk (s : State) (m : Master) : Bool :=
  (m.origin == 1 || ((coreOf m).isSome && partitionOf s m == 0 && m.priv == .machine)) &&
  s.regBit R.GRD_STATUS 0 && !s.toggling &&
  (s.stopCause == 7 || (s.stopCause == 1 && s.regBit R.ALV_CFG 28 && !s.stopOpen))

/-- A write of ALV_RESTART is accepted: the first value, or the second within 1 ms of it (R451). -/
def State.restartValueOk (s : State) (m : Master) (v : Word) : Bool :=
  s.restartOk m &&
  (fld v 15 0 == 0x0F0F || (fld v 15 0 == 0xF0F0 && s.alv.restartHalf.any fun t => decide (s.now ≤ t + 1000000)))

/-- An accepted write of ALV_RESTART. -/
def State.restart (s : State) (v : Word) : State :=
  if fld v 15 0 = 0x0F0F then s.setAlv { s.alv with restartHalf := some s.now } else s.aliveStart

/-- A write of ALV_CMD. -/
def State.aliveCmd (s : State) (v : Word) : State := if bitOf v 0 then s.aliveStop 7 0 0 else s

/-- ALIVE_STOP: the next scheduled edge after a stop was decided; the output is held low from here (R450). -/
def execAliveStop (s : State) : Host.Outcome State Fault Refusal :=
  .next <|
    if s.alv.ending then (s.setAlv { s.alv with ending := false, edgeAt := s.now }).emit (.alive false) else s

/-- KICK_WINDOW_EXPIRE: no kick by CLOSE_MS, cause 2 (R450). -/
def execKickWindowExpire (s : State) : Host.Outcome State Fault Refusal :=
  .next (if s.toggling && s.alv.lastKick + s.kickWindow.2.1 ≤ s.now then s.kickStop 2 else s)

/-- FIRST_KICK_EXPIRE: no first kick within FIRST of APPLY, cause 5 (R448, R450). -/
def execFirstKickExpire (s : State) : Host.Outcome State Fault Refusal :=
  .next <|
    match s.alv.applyAt with
    | some a => if !s.toggling && s.kickArmed && a + s.kickWindow.2.2 ≤ s.now then s.kickStop 5 else s
    | none => s

/-- KICK_HALF_TIMEOUT: a 0x5A5A without its 0xA5A5 for 1 ms, cause 4 (R449, R450). -/
def execKickHalfTimeout (s : State) : Host.Outcome State Fault Refusal :=
  .next <|
    match s.alv.half with
    | some t =>
      if t + 1000000 ≤ s.now then
        if s.kickArmed then s.kickStop 4 else s.setAlv { s.alv with half := none }
      else s
    | none => s

/-- KEEPER_HANG: the keeper's watchdog expires (R465). -/
def execKeeperHang (s : State) : Host.Outcome State Fault Refusal := .next (s.fault 0 3 [])

/-- OSC_FAIL: the PD0 oscillator leaves its range (R463). -/
def execOscFail (s : State) : Host.Outcome State Fault Refusal := .next (s.fault 5 4 [])

/-- RAIL_FAULT: a core supply is off its setting, or a domain switch reports overcurrent (R557). -/
def execRailFault (d : Nat) (s : State) : Host.Outcome State Fault Refusal :=
  .next (if d < 16 then s.fault 1 1 [word d] else s)

end Sys2Proof.Machine
end

