-- ==== Sys2Proof/Machine/Signal.lean ====
section
/-! DEFINITION. The signal plane: cells, unpacking, composition, staleness, loading and arming (08_signal_plane.md). -/

namespace Sys2Proof.Machine

/-- Replace the hidden state of the signal plane. -/
def State.setSig (s : State) (x : Sig) : State := { s with sig := x }

/-! ### Structures of a bank (R249-R263, R283) -/

/-- Bytes of a structure: 0 directory, 1 unpack rules, 2 attributes, 3 pack rules, 4 pack entries, 5 templates. -/
def SigBank.part (b : SigBank) (k : Nat) : List Host.Cell :=
  match k with | 0 => b.dir | 1 => b.rules | 2 => b.attr | 3 => b.pack | 4 => b.entries | _ => b.tmpl

/-- Replace the bytes of a structure. -/
def SigBank.setPart (b : SigBank) (k : Nat) (m : List Host.Cell) : SigBank :=
  match k with
  | 0 => { b with dir := m } | 1 => { b with rules := m } | 2 => { b with attr := m }
  | 3 => { b with pack := m } | 4 => { b with entries := m } | _ => { b with tmpl := m }

/-- Bytes of a record of a structure; a template store is loaded in units of 16 (R283). -/
def sigRec (k : Nat) : Nat := match k with | 0 => 4 | 1 => 16 | 2 => 4 | 3 => 32 | 4 => 16 | _ => 16

/-- Bytes of a structure (R251, R253, R262, R263, R282). -/
def sigSize (k : Nat) : Nat :=
  match k with | 0 => 262144 | 1 => 262144 | 2 => 262144 | 3 => 262144 | 4 => 524288 | _ => 262144

/-- A record of a structure. -/
def SigBank.record (b : SigBank) (k i : Nat) : Bytes := memRead (b.part k) (i * sigRec k) (sigRec k)

/-- Numbers of the records of a structure that hold a byte other than zero, ascending. -/
def SigBank.listed (b : SigBank) (k : Nat) : List Nat :=
  ((b.part k).map fun e => e.1 / sigRec k).foldr (fun n l => if l.head? = some n then l else n :: l) []

/-- Word i of a record. -/
def SigBank.wordOf (b : SigBank) (k n i : Nat) : Word := wordAt (b.record k n) i

/-- The bank a classification named, while the other is active (R277). -/
def State.sigBank (s : State) (bank : Nat) : SigBank := if bank = s.sig.bank then s.sig.act else s.sig.shd

/-! ### Cells (R244-R250) -/

/-- A cell word before any write: `INIT`. -/
def cellInit : Word := 0x80#32

/-- A cell word. -/
def State.cell (s : State) (n : Nat) : Word := kvGet s.sig.cell n cellInit

/-- STATE of a cell word. -/
def cellState (w : Word) : Nat := fld w 7 5

/-- Store a cell word. -/
def State.setCell (s : State) (n : Nat) (w : Word) : State :=
  s.setSig { s.sig with cell := if w = cellInit then kvDel s.sig.cell n else kvSet s.sig.cell n w }

/-- Store an age stamp. -/
def State.setStamp (s : State) (n us : Nat) : State :=
  s.setSig { s.sig with stamp := if us = 0 then kvDel s.sig.stamp n else kvSet s.sig.stamp n us }

/-- Attribute word of a cell in the active bank (R249). -/
def State.attrOf (s : State) (n : Nat) : Word := s.sig.act.wordOf 2 n 0

/-- First cell of the group a cell belongs to, and how many cells it has (R249, R250). -/
def State.groupOf (s : State) (n : Nat) : Nat × Nat :=
  let span (k : Nat) := fld (s.attrOf k) 31 29
  match span n with
  | 1 => (n, 2)
  | 2 => (n, 3)
  | 3 => if span (n - 1) = 2 then (n - 1, 3) else (n - 1, 2)
  | 4 => (n - 2, 3)
  | _ => (n, 1)

/-- The pack rules with ON_CHANGE and a TRIG entry on a cell, in the active bank (R265). -/
def State.trigRules (s : State) (n : Nat) : List Nat :=
  let b := s.sig.act
  (b.listed 3).filter fun r =>
    let w := b.wordOf 3 r 0
    let w3 := b.wordOf 3 r 3
    bitOf w 31 && bitOf w 29 && (List.range' (fld w3 14 0) (fld w3 24 16)).any fun e =>
      let x := b.wordOf 4 e 0
      bitOf x 31 && bitOf x 27 && fld x 15 0 == n

/-- Note triggers: an emission falls due, or is deferred while MIN_GAP runs (R265). -/
def State.trigger (s : State) (rules : List Nat) : State :=
  if !s.regBit R.SIG_CTRL 1 then s
  else rules.foldl (fun s r =>
    if s.sig.due.contains r then s
    else
      let gap := fld (s.sig.act.wordOf 3 r 2) 15 0 * 100000
      match kvGet? s.sig.lastEmit r with
      | some t =>
        if s.now - t < gap then
          (s.setSig { s.sig with deferred := if s.sig.deferred.contains r then s.sig.deferred
            else s.sig.deferred ++ [r] }).satCtr 22 1 11
        else s.setSig { s.sig with due := s.sig.due ++ [r] }
      | none => s.setSig { s.sig with due := s.sig.due ++ [r] }) s

/-- A change to make to the cells of a group: values, or none to keep them, a state, and whether the age stamp follows. -/
structure CellWrite where
  cell : Nat
  values : List (Option Nat)
  state : Nat
  stamp : Bool
  deriving DecidableEq, Repr

/-- Cells whose writes trigger a motion update: enabled inputs and articulation cells (R329, R330); in MODE 2 a cell is
configured where ANGLE_CELL is not 0. -/
def State.motionCells (s : State) : List Nat :=
  ((List.range 7).flatMap fun j =>
    let r := s.reg (R.PLE_IN j)
    if !bitOf r 31 then [] else if j = 3 ∨ 5 ≤ j then [fld r 15 0] else [fld r 15 0, fld r 15 0 + 1]) ++
  [1, 2, 3].flatMap fun b =>
    let r := s.reg (R.PLE_BODY_CFG b)
    let c := fld r 31 16
    if bitOf r 0 && (fld r 5 4 == 1 || (fld r 5 4 == 2 && c != 0)) then [c, c + 1] else []

/-- A write to an input cell triggers an update; one within 500 µs of the last update is merged and counted (R330). -/
def State.motionTrigger (s : State) (cells : List Nat) : State :=
  if s.regBit R.PLE_CTRL 0 && alive s 15 && cells.any fun c => s.motionCells.contains c then
    let near := match s.ple.lastUpd with
      | some t => decide (s.now < t + 500000)
      | none => false
    let s := { s with ple := { s.ple with trig := true } }
    if near then s.satCtr 21 1 15 else s
  else s

/-- Write cells as one indivisible step, each counting once; changed cells trigger (R246, R247, R250, R256, R265). -/
def State.writeCells (s : State) (ws : List CellWrite) : State :=
  let us := s.nowUs % 2 ^ 32
  let (s, hit) := ws.foldl (fun (x : State × List Nat) w =>
    let (s, changed) := w.values.zipIdx.foldl (fun (y : State × Bool) (v, i) =>
      let n := w.cell + i
      let old := y.1.cell n
      let val := v.getD (fld old 31 8)
      let new := word (val % 2 ^ 24 * 256 + w.state * 32 + (fld old 4 0 + 1) % 32)
      let s := y.1.setCell n new
      (if w.stamp then s.setStamp n us else s,
        y.2 || fld old 31 8 != val % 2 ^ 24 || cellState old != w.state)) (x.1, false)
    (s, if changed then x.2 ++ [w.cell] else x.2)) (s, [])
  let s := s.motionTrigger (ws.flatMap fun w => List.range' w.cell w.values.length)
  s.trigger ((hit.flatMap s.trigRules).eraseDups)

/-! ### Fields (R254) -/

/-- Bit positions of a field, least significant bit first. -/
def fieldBits (start width : Nat) (be : Bool) : List Nat :=
  if be then
    ((List.range width).foldl (fun (x : Nat × List Nat) _ =>
      (if x.1 % 8 = 0 then x.1 + 15 else x.1 - 1, x.1 :: x.2)) (start, [])).2
  else List.range' start width

/-- The field of a byte string counted from a base byte; none where a bit lies beyond the end. -/
def readField (bs : Bytes) (base start width : Nat) (be : Bool) : Option Nat :=
  let ps := fieldBits start width be
  if ps.any fun p => bs.length ≤ base + p / 8 then none
  else some (ps.foldr (fun p v => 2 * v + byteAt bs (base + p / 8) / 2 ^ (p % 8) % 2) 0)

/-- A byte string with a field replaced; bits beyond the end change nothing. -/
def writeField (bs : Bytes) (base start width : Nat) (be : Bool) (v : Nat) : Bytes :=
  ((fieldBits start width be).zipIdx.foldl (fun bs (p, i) =>
    let k := base + p / 8
    let m := 2 ^ (p % 8)
    let b := byteAt bs k
    let b' := b - b / m % 2 * m + v / 2 ^ i % 2 * m
    putBytes bs k [byte b']) bs).take bs.length

/-- Round y / 2^k to nearest, ties toward positive infinity (R255). -/
def rnd (y : Int) (k : Nat) : Int := if k = 0 then y else (y + (2 : Int) ^ (k - 1)) / (2 : Int) ^ k

/-- Limit x to a width, signed or unsigned, and whether that changed it. -/
def limitTo (w : Nat) (sgn : Bool) (x : Int) : Int × Bool :=
  let lo : Int := if sgn then -(2 : Int) ^ (w - 1) else 0
  let hi : Int := if sgn then (2 : Int) ^ (w - 1) - 1 else (2 : Int) ^ w - 1
  (clampI lo hi x, decide (x < lo) || decide (hi < x))

/-! ### Unpacking (R251-R257) -/

/-- The unpack rules a directory entry names, by number: BASE byte and rules. -/
def SigBank.rulesOf (b : SigBank) (stream : Nat) : Nat × List Nat :=
  let d := b.wordOf 0 stream 0
  (if bitOf d 31 then 0 else 24, List.range' (fld d 13 0) (fld d 24 16))

/-- How many cells a SPAN code of a first cell covers. -/
def spanCells (sp : Nat) : Nat := if sp = 1 then 2 else if sp = 2 then 3 else 1

/-- One rule over a frame: the change it makes, and whether it saturated; none where the frame is too short (R255). -/
def unpackRule (b : SigBank) (r : Nat) (bs : Bytes) (base : Nat) : Option (CellWrite × Bool) :=
  let w0 := b.wordOf 1 r 0
  let w := fld w0 22 16
  let cell := fld w0 15 0
  let n := spanCells (fld (b.wordOf 2 cell 0) 31 29)
  let keep : List (Option Nat) := List.replicate n none
  match readField bs base (fld (b.wordOf 1 r 1) 18 0) w (bitOf w0 30) with
  | none => none
  | some raw =>
    if bitOf w0 28 && decide (2 ≤ w) && raw == 2 ^ w - 1 then some (⟨cell, keep, 3, true⟩, false)
    else if bitOf w0 28 && decide (2 ≤ w) && raw == 2 ^ w - 2 then some (⟨cell, keep, 2, true⟩, false)
    else
      let sgn := bitOf w0 29
      let x : Int := if sgn then signed w raw else raw
      let w2 := b.wordOf 1 r 2
      let x := if bitOf w0 27 then
          rnd (x * signed 16 (fld w2 15 0)) (fld w2 20 16) + signed 24 (fld (b.wordOf 1 r 3) 23 0) else x
      let (x, sat) := if n = 1 then limitTo 24 sgn x else (x, false)
      let u := unsigned 72 x
      some (⟨cell, (List.range n).map fun i => some (u / 2 ^ (24 * i) % 2 ^ 24), 0, true⟩, sat)

/-- Later changes to a cell stand in place of earlier ones (R256). -/
def lastStands (ws : List CellWrite) : List CellWrite :=
  ws.foldl (fun l w => (l.filter fun v => v.cell != w.cell) ++ [w]) []

/-- Run the unpack rules of a stream over a frame's stored bytes, in the bank of its classification (R252, R255, R256). -/
def State.unpack (s : State) (bank stream : Nat) (bs : Bytes) : State :=
  let b := s.sigBank bank
  let (base, rules) := b.rulesOf stream
  if !s.regBit R.SIG_CTRL 0 || rules.isEmpty || !alive s 15 then s
  else
    let (s, ws) := (rules.filter fun r => bitOf (b.wordOf 1 r 0) 31).foldl
      (fun (x : State × List CellWrite) r =>
        match unpackRule b r bs base with
        | none => (x.1.satCtr 22 1 8, x.2)
        | some (w, sat) => (if sat then x.1.satCtr 22 1 7 else x.1, x.2 ++ [w])) (s, [])
    (s.addCtr 22 1 0 1).writeCells (lastStands ws)

/-- A seal failure marks every cell the stream's rules name (R257). -/
def State.authFail (s : State) (stream : Nat) : State :=
  let b := s.sig.act
  let (_, rules) := b.rulesOf stream
  let ws := (rules.filter fun r => bitOf (b.wordOf 1 r 0) 31).map fun r =>
    let c := fld (b.wordOf 1 r 0) 15 0
    (⟨c, List.replicate (spanCells (fld (b.wordOf 2 c 0) 31 29)) none, 5, false⟩ : CellWrite)
  let ws := lastStands ws
  if ws.isEmpty || !alive s 15 then s
  else ((ws.foldl (fun s _ => s.satCtr 22 1 9) s).raise 22 0).writeCells ws

/-! ### Software writes (R258-R260) -/

/-- Bit of WMASK that grants a master; none for a master that writes only through rules (R249, R258). -/
def State.wmaskBit (s : State) (m : Master) : Option Nat :=
  match coreOf m with
  | some _ => some (partitionOf s m)
  | none => if m.origin = 0x20 then some 4 else if m.origin = 0x0A then some 5 else if m.origin = 0x30 then some 6
    else none

/-- A refused cell write: counted, the first kept, CELL_DENY (R260). -/
def State.cellDeny (s : State) (m : Master) (cell : Nat) (age : Bool) (reason : Nat) : State :=
  let first := s.reg R.SIG_WDENY_CNT == 0
  let s := if first then
      let p := if (coreOf m).isSome then partitionOf s m else 0
      (s.setReg R.SIG_WDENY_ADDR (word (cell + (if age then 65536 else 0)))).setReg R.SIG_WDENY_INFO
        (word (m.origin * 256 + p * 16 + reason))
    else s
  ((s.incReg R.SIG_WDENY_CNT).raise 22 5).fault 22 3 [word cell, word (m.origin * 256), word reason, 0]

/-- Why a word of a write access to cells [first, first + n) is refused; none where it is granted (R258, R260). -/
def State.cellRefusal (s : State) (m : Master) (first : Nat) (ws : List Word) (cell : Nat) : Option Nat :=
  let (g, n) := s.groupOf cell
  let mask := fld (s.attrOf g) 6 0
  let granted := match s.wmaskBit m with | some b => mask.testBit b | none => false
  let w := ws.getD (max g first - first) 0
  if !granted then some 1
  else if g < first ∨ first + ws.length < g + n then some 2
  else if 6 ≤ cellState w then some 3
  else none

/-- A write access over cells, each under its own grant (R258, R259). -/
def State.softCells (s : State) (m : Master) (first : Nat) (ws : List Word) : State :=
  let cells := List.range' first ws.length
  let s := cells.foldl (fun s c =>
    match s.cellRefusal m first ws c with
    | some r => s.cellDeny m c false r
    | none => s) s
  let heads := cells.filter fun c => (s.cellRefusal m first ws c).isNone && (s.groupOf c).1 == c
  s.writeCells (heads.map fun c =>
    ⟨c, (List.range (s.groupOf c).2).map fun i => some (fld (ws.getD (c - first + i) 0) 31 8),
      cellState (ws.getD (c - first) 0), true⟩)

/-! ### Staleness (R248) -/

/-- The sweep: cells in `VALID`, `ERROR` or `NOT_AVAIL` whose age exceeds STALE_MS turn `STALE`. -/
def State.staleSweep (s : State) : State :=
  if !s.regBit R.SIG_CTRL 2 || !alive s 15 then s
  else
    let us := s.nowUs % 2 ^ 32
    let old := s.sig.cell.filter fun e =>
      let (g, _) := s.groupOf e.1
      let ms := fld (s.attrOf g) 27 16
      let st := cellState e.2
      ms != 0 && (st == 0 || st == 2 || st == 3) &&
        decide (ms * 1000 < (us + 2 ^ 32 - kvGet s.sig.stamp e.1 0) % 2 ^ 32)
    if old.isEmpty then s
    else
      let s := old.foldl (fun s e => (s.setCell e.1 (putFld e.2 7 5 1)).satCtr 22 1 10) s
      s.raise 22 1

/-! ### Composition (R266, R267) -/

/-- The value of an entry's cell, as a number: its 24 bits, or the group's bits. -/
def State.packValue (s : State) (b : SigBank) (cell : Nat) (sgn : Bool) : Int :=
  let v (k : Nat) := fld (s.cell (cell + k)) 31 8
  match spanCells (fld (b.wordOf 2 cell 0) 31 29) with
  | 1 => if sgn then signed 24 (v 0) else v 0
  | 2 => let u := v 0 + v 1 * 2 ^ 24; if sgn then signed 48 u else u
  | _ => let u := v 0 + v 1 * 2 ^ 24 + v 2 % 2 ^ 16 * 2 ^ 48; if sgn then signed 64 u else u

/-- Compose one entry into a copy; none where the copy is suppressed. -/
def State.packEntry (s : State) (b : SigBank) (base e : Nat) (bs : Bytes) : Option (Bytes × Bool) :=
  let w0 := b.wordOf 4 e 0
  let w := fld w0 22 16
  let cell := fld w0 15 0
  let start := fld (b.wordOf 4 e 1) 18 0
  let be := bitOf w0 30
  let st := cellState (s.cell cell)
  let put (v : Nat) := writeField bs base start w be v
  let value :=
    let sgn := bitOf w0 29
    let x := s.packValue b cell sgn
    let w2 := b.wordOf 4 e 2
    let x := if bitOf w0 28 then
        rnd ((x - signed 24 (fld (b.wordOf 4 e 3) 23 0)) * signed 16 (fld w2 15 0)) (fld w2 20 16) else x
    let (x, sat) := limitTo w sgn x
    (put (unsigned w x), sat)
  if st = 0 then some value
  else match fld w0 26 25 with
    | 0 => some value
    | 1 => some (put (if st = 2 then 2 ^ w - 2 else 2 ^ w - 1), false)
    | 2 => some (bs, false)
    | _ => none

/-- Compose a copy by a pack rule of a bank; none where it is suppressed (R267). -/
def State.compose (s : State) (bank rule : Nat) (bs : Bytes) : Option Bytes × State :=
  let b := s.sigBank bank
  let w3 := b.wordOf 3 rule 3
  let base := if bitOf (b.wordOf 3 rule 4) 31 then 0 else 24
  if !bitOf (b.wordOf 3 rule 0) 31 then (none, s.satCtr 22 1 6)
  else
    let es := (List.range' (fld w3 14 0) (fld w3 24 16)).filter fun e => bitOf (b.wordOf 4 e 0) 31
    let r := es.foldl (fun (x : Option Bytes × State) e =>
      match x.1 with
      | none => x
      | some bs =>
        match x.2.packEntry b base e bs with
        | none => (none, x.2)
        | some (bs, sat) => (some bs, if sat then x.2.satCtr 22 1 7 else x.2)) (some bs, s)
    match r with
    | (none, s) => (none, s.satCtr 22 1 6)
    | (some bs, s) => (some bs, s.addCtr 22 1 2 1)

/-- The template of a pack rule in the active bank (R262). -/
def State.template (s : State) (rule : Nat) : Bytes :=
  let w := s.sig.act.wordOf 3 rule 4
  memRead s.sig.act.tmpl (fld w 13 0 * 16) (fld w 27 16)

/-! ### Loading and arming (R273-R277, R283) -/

/-- Every copy that holds a descriptor: queued, in transmission, in a LIN buffer or slot, or held for a transport session. -/
def State.heldCopies (s : State) : List Copy :=
  s.swc.queues.flatMap (·.2) ++ s.swc.tx.map (·.2.copy) ++
  s.bus.lin.flatMap (fun c => c.2.bufs.filterMap (·.2.copy) ++ (c.2.slot.bind (·.copy)).toList) ++ s.bus.tx.flatMap (fun t => t.segs.map (·.2))

/-- Packed copies classified under the bank that is not active, those of frames that wait for admission with them (R277). -/
def State.drainCount (s : State) : Nat :=
  (s.heldCopies.filter fun c => c.packed && c.bank != s.sig.bank).length +
    ((s.swc.waiting.filter fun w => w.res.packed && w.res.bank != s.sig.bank).flatMap (·.res.egress)).length

/-- SIG_STATUS as it reads. -/
def State.sigStatus (s : State) : Word :=
  word (s.sig.bank + (if s.regBit R.SIG_RI_ARM 0 then 2 else 0) + (if s.sig.switch.isSome then 4 else 0) +
    (if 0 < s.drainCount then 8 else 0) + (if s.sig.load.isSome then 16 else 0))

/-- A write of SIG_LD_CTRL is allowed (R277, R283). -/
def State.sigLoadOk (s : State) (v : Word) : Bool :=
  let k := fld v 2 0
  let dst := (s.reg R.SIG_LD_DST).toNat
  let len := (s.reg R.SIG_LD_LEN).toNat
  let src := (s.reg (R.SIG_LD_SRC 0)).toNat + s.regFld (R.SIG_LD_SRC 1) 15 0 * 2 ^ 32
  !(bitOf v 31 || bitOf v 8) ||
  (s.sig.load.isNone && s.drainCount == 0 && k ≤ 5 &&
    (bitOf v 8 || (dst % sigRec k == 0 && len % sigRec k == 0 && dst + len ≤ sigSize k &&
      (inDram src len || inScratch src len))))

/-- Result of a load: status in SIG_LD_STAT and event LD_DONE. -/
def State.sigLoadEnd (s : State) (result : Nat) : State :=
  ((s.setSig { s.sig with load := none }).setReg R.SIG_LD_STAT (word (result * 256))).raise 22 4

/-- An accepted write of SIG_LD_CTRL starts a load, zeroes a structure, or completes at once with length 0 (R280, R283).
[DEDUCED, assumption 151] -/
def State.sigLoadGo (s : State) (v : Word) : State :=
  let k := fld v 2 0
  let src := (s.reg (R.SIG_LD_SRC 0)).toNat + s.regFld (R.SIG_LD_SRC 1) 15 0 * 2 ^ 32
  let len := (s.reg R.SIG_LD_LEN).toNat
  if bitOf v 8 then
    (s.setSig { s.sig with
      shd := s.sig.shd.setPart k [], load := some ⟨true, k, 0, 0, 0⟩ }).shadowWritten
  else if !bitOf v 31 then s
  else if len = 0 then s.sigLoadEnd 0
  else (s.setSig { s.sig with load := some ⟨false, k, src, (s.reg R.SIG_LD_DST).toNat, len⟩ }).shadowWritten

/-- The load completes: its records stand in the shadow structure (R283). -/
def State.sigLoadDone (s : State) : State :=
  match s.sig.load with
  | none => s
  | some j =>
    let s := if j.clear then s else
      s.setSig { s.sig with
        shd := s.sig.shd.setPart j.struct_ (memWrite (s.sig.shd.part j.struct_) j.dst (s.read j.src j.len)) }
    s.sigLoadEnd 0

/-- First record of a list that fails a check, as (structure, index, reason). -/
def firstBad (struct_ reason : Nat) (l : List Nat) (ok : Nat → Bool) : Option (Nat × Nat × Nat) :=
  (l.find? fun i => !ok i).map fun i => (struct_, i, reason)

/-- The checks of R275 over the shadow bank: the first failure found. [DEDUCED, assumption 151] -/
def SigBank.armCheck (b : SigBank) : Option (Nat × Nat × Nat) :=
  let span (c : Nat) := fld (b.wordOf 2 c 0) 31 29
  let ruleOk (k i trBit : Nat) : Bool :=
    let w0 := b.wordOf k i 0
    let w := fld w0 22 16
    !bitOf w0 31 || (1 ≤ w && w ≤ 64 && (!bitOf w0 trBit || (fld (b.wordOf k i 2) 15 0 != 0 && w ≤ 32)))
  let spanOk (k i trBit : Nat) : Bool :=
    let w0 := b.wordOf k i 0
    let w := fld w0 22 16
    let want := if bitOf w0 trBit || w ≤ 24 then 0 else if w ≤ 48 then 1 else 2
    !bitOf w0 31 || span (fld w0 15 0) == want
  let attrOk (c : Nat) : Bool :=
    match span c with
    | 1 => c % 2 == 0 && span (c + 1) == 3
    | 2 => c % 4 == 0 && span (c + 1) == 3 && span (c + 2) == 4
    | n => n ≤ 4
  let tlen (r : Nat) := fld (b.wordOf 3 r 4) 27 16
  let toff (r : Nat) := fld (b.wordOf 3 r 4) 13 0 * 16
  let valid (r : Nat) := bitOf (b.wordOf 3 r 0) 31
  let base0 (r : Nat) := !bitOf (b.wordOf 3 r 4) 31
  let entries (r : Nat) := List.range' (fld (b.wordOf 3 r 3) 14 0) (fld (b.wordOf 3 r 3) 24 16)
  let packOk (r : Nat) : Bool :=
    !valid r || (1 ≤ tlen r && tlen r ≤ 2072 && toff r + tlen r ≤ 262144 &&
      fld (b.wordOf 3 r 3) 14 0 + fld (b.wordOf 3 r 3) 24 16 ≤ 32768 &&
      (!base0 r || leVal (memRead b.tmpl (toff r + 12) 2) + 24 == tlen r))
  let inTemplate (r e : Nat) : Bool :=
    let w0 := b.wordOf 4 e 0
    let base := if base0 r then 24 else 0
    !bitOf w0 31 || (fieldBits (fld (b.wordOf 4 e 1) 18 0) (fld w0 22 16) (bitOf w0 30)).all fun p =>
      base + p / 8 < tlen r
  let badEntry := ((b.listed 3).filter valid).findSome? fun r => (entries r).find? fun e => !inTemplate r e
  let trigs (c : Nat) : Nat := (((b.listed 3).filter valid).filter fun r => (entries r).any fun e =>
    let w := b.wordOf 4 e 0
    bitOf w 31 && bitOf w 27 && fld w 15 0 == c).length
  let badTrig := (b.listed 4).find? fun e =>
    let w := b.wordOf 4 e 0
    bitOf w 31 && bitOf w 27 && 4 < trigs (fld w 15 0)
  let first (l : List (Option (Nat × Nat × Nat))) := l.findSome? id
  first [
    firstBad 0 1 (b.listed 0) fun i => fld (b.wordOf 0 i 0) 13 0 + fld (b.wordOf 0 i 0) 24 16 ≤ 16384,
    firstBad 1 2 (b.listed 1) fun i => ruleOk 1 i 27,
    firstBad 4 2 (b.listed 4) fun i => ruleOk 4 i 28,
    firstBad 1 3 (b.listed 1) fun i => spanOk 1 i 27,
    firstBad 4 3 (b.listed 4) fun i => spanOk 4 i 28,
    firstBad 2 4 (b.listed 2) attrOk,
    firstBad 3 5 (b.listed 3) packOk,
    badEntry.map fun e => (4, e, 6),
    badTrig.map fun e => (4, e, 7)]

/-- A switch request is allowed (R276, R316): armed, no switch pending, no drain, and its base running. -/
def State.switchOk (s : State) : Bool :=
  let at_ := (s.reg (R.SIG_EPOCH_AT 0)).toNat + (s.reg (R.SIG_EPOCH_AT 1)).toNat * 2 ^ 32
  let n := compactBase at_
  s.regBit R.SIG_RI_ARM 0 && s.sig.switch.isNone && s.drainCount == 0 &&
  (at_ == 0 || n == 3 || (s.regBit (R.TIM_TB_CFG n) 0 && s.tim.refOk))

/-- A switch is requested for the instant in SIG_EPOCH_AT (R276). -/
def State.requestSwitch (s : State) (m : Master) : State :=
  let at_ := (s.reg (R.SIG_EPOCH_AT 0)).toNat + (s.reg (R.SIG_EPOCH_AT 1)).toNat * 2 ^ 32
  (s.setSig { s.sig with
    switch := some ⟨if at_ = 0 then none else some (compactBase at_, s.expand at_), m⟩ }).setReg R.SIG_EPOCH_CTRL 1

/-- A pending switch is withdrawn (R276, R279). [DEDUCED, assumption 67] -/
def State.cancelSwitch (s : State) : State :=
  if s.sig.switch.isSome then ((s.setSig { s.sig with switch := none }).setReg R.SIG_EPOCH_CTRL 0).raise 22 3 else s

/-- The instant of the pending switch has come (R276). [DEDUCED, assumption 66] -/
def State.switchDue (s : State) : Bool :=
  match s.sig.switch with
  | none => false
  | some r =>
    match r.at_ with
    | none => true
    | some (n, t) => decide (t ≤ s.tbNs n) && (n == 3 || (s.regBit (R.TIM_TB_CFG n) 0 && s.tim.refOk))

/-- Cells whose attribute word differs between the banks go to `INIT` at a switch (R276). [DEDUCED, assumption 66] -/
def State.initChanged (s : State) : State :=
  let ns := (s.sig.act.listed 2 ++ s.sig.shd.listed 2).filter fun n =>
    s.sig.act.wordOf 2 n 0 != s.sig.shd.wordOf 2 n 0
  s.setSig { s.sig with
    cell := ns.foldl kvDel s.sig.cell
    stamp := ns.foldl kvDel s.sig.stamp }

end Sys2Proof.Machine
end

