-- ==== Sys2Proof/Machine/Classify.lean ====
section
/-! DEFINITION. Classification: every frame is resolved once, at ingress (06_tables_and_learning.md R170-R173, R182-R184,
R196-R198; R65, R161, R162). -/

namespace Sys2Proof.Machine

/-- A frame to classify: its ingress port, format, bytes (at least its header), stored length, the stream its originator
gave, and what travels with it. -/
structure Arrival where
  port : Nat
  bus : Bool
  bytes : Bytes
  len : Nat
  stream : Option Nat
  src : Source
  timed : Bool
  launch : Nat
  tag : Option Nat
  rxTime : List Nat

/-- Count in a classifier counter of an ingress port: 0 VLAN_DROP, 1 RULE_DROP, 2 STREAM_MISS, 3 SDU_DROP, 4 NAME_GONE,
5 MODE_DROP, 6 ROUTE_DROP (R207). -/
def State.clsDrop (s : State) (i slot : Nat) : State := s.satCtr 11 (0x1000 + i) slot

/-! ### Bus lookup (R184) -/

/-- The stream of an entry that is valid. -/
def validStream (w : Nat) : Option Nat := if w / 2 ^ 31 % 2 = 1 then some (w % 65536) else none

/-- Extended-ID map lookup. -/
def State.extLookup (s : State) (c : Nat) (name : Bool) (id : Nat) : Option Nat :=
  let key := [byte c, byte name.toNat] ++ leBytes 4 id ++ [0, 0]
  let m := s.tbl.table 2 false
  ((s.lookup 2 m key).bind fun k => kvGet? m k).bind fun e => validStream (leAt e 8 4)

/-- Stream of a frame received on a CAN or LIN channel: c is 0-23, or 24-31 for LIN. -/
def State.busLookup (s : State) (c : Nat) (bs : Bytes) : Option Nat :=
  let h := busHdr bs
  let e := if 24 ≤ c || !h.ide || h.format == 2 then
      validStream (leVal (kvGet s.tbl.act.busId (c * 2048 + h.id % 2048) [0]))
    else
      let m := h.id &&& (s.reg (R.TBL_EXTMASK c)).toNat
      let named := if c < 4 && s.regBit R.TBL_TRACK_CTRL c then
          (s.tbl.slotOfSa c (h.id % 256)).bind fun t => s.extLookup c true (m / 256 * 256 % 2 ^ 29 + t)
        else none
      match named with
      | some h => some h
      | none => s.extLookup c false m
  match e with
  | some h => some h
  | none => validStream (s.reg (R.TBL_BUSDEF c)).toNat

/-- Channel index of a bus port: 0-23 CAN, 24-31 LIN. -/
def busIndex (p : Nat) : Nat := if p < 96 then p - 64 else 24 + (p - 96)

/-! ### Ethernet (R170) -/

/-- Priority and VID of a frame as resolved: PCP, DEI, VID. -/
def State.resolveTag (s : State) (i : Nat) (bs : Bytes) : Nat × Nat × Nat :=
  match outerTag bs with
  | some t => (t / 8192, t / 4096 % 2, if t % 4096 = 0 then s.regFld (R.CLS_PCFG i) 11 0 else t % 4096)
  | none => (s.regFld (R.CLS_PCFG i) 14 12, 0, s.regFld (R.CLS_PCFG i) 11 0)

/-- A rule record matches a key (R197). -/
def ruleHits (k r : Bytes) : Bool :=
  leAt r 128 4 / 2 ^ 31 % 2 == 1 &&
  (List.range 64).all fun i => (byteAt k i &&& byteAt r (64 + i)) == byteAt r i

/-- The station's sighting, where the port, the VLAN and TBL_CTRL learn (R188). -/
def State.sight (s : State) (i v : Nat) (bs : Bytes) : State :=
  let vw := word (leAt (s.tbl.act.vlanOf v) 20 4)
  if s.regBit R.TBL_CTRL 0 && bitOf vw 30 && s.regBit (R.CLS_PCFG i) 16 && byteAt bs 6 % 2 == 0 then
    s.learn (slice bs 6 6) (fld vw 11 0) i
  else s

/-- Stream of an Ethernet frame, with the VLAN it was resolved to; none where it is discarded. -/
def State.ethLookup (s : State) (i : Nat) (bs : Bytes) : Option (Nat × Nat) × State :=
  let (pcp, dei, v) := s.resolveTag i bs
  let e := s.tbl.act.vlanOf v
  let member := byteAt e (i / 8) / 2 ^ (i % 8) % 2 == 1
  let untagged := match outerTag bs with | some t => t % 4096 == 0 | none => true
  if leAt e 20 4 / 2 ^ 31 % 2 = 0 ∨ !member then (none, s.clsDrop i 0)
  else if s.regBit (R.CLS_PCFG i) 17 && untagged then (none, s.clsDrop i 0)
  else
    let k := ruleKey bs i pcp dei v
    let r := if s.regBit R.CLS_CTRL 0 then s.tbl.act.rules.find? fun x => ruleHits k x.2 else none
    let s := match r with | some x => s.addCtr 11 (0x8000 + x.1) 0 1 | none => s
    let w := match r with | some x => leAt x.2 128 4 | none => 0
    if r.isSome && w / 2 ^ 30 % 2 == 1 then (none, s.clsDrop i 1)
    else
      let s := s.sight i v bs
      if r.isSome then (some (w % 65536, v), s)
      else
        let d := s.reg (R.CLS_PDEF i)
        if bitOf d 31 then (some (fld d 15 0, v), s) else (none, s.clsDrop i 2)

/-! ### Destination (R172, R173, R65) -/

/-- Failover: PRIMARY becomes ALTERNATE in every egress set while STATE = 1 (R65). -/
def State.failover (s : State) (e : List Nat) : List Nat :=
  let gs := (List.range 32).filter fun n => s.regBit (R.FOX_FGRP n) 31 && s.regBit (R.FOX_FGRP n) 30
  let move (p : Nat) : Nat :=
    match gs.find? fun n => s.regFld (R.FOX_FGRP n) 14 8 == p with
    | some n => s.regFld (R.FOX_FGRP n) 6 0
    | none => p
  (List.range 104).filter fun p => (e.map move).contains p

/-- Routing: the egress set and its edits, none where the frame is discarded. [DEDUCED, assumption 150] -/
def State.route (s : State) (i : Nat) (bs : Bytes) : Option (List Nat × Edits) × State :=
  let exc : Option (List Nat × Edits) := some ([s.regFld R.TBL_ROUTE_CTRL 6 0], Edits.none)
  let t := if (ipOf bs).1 = 6 then 7 else 6
  if (ipOf bs).1 = 0 || !ipValid bs then (exc, s)
  else
    match s.lpm t (ipDst bs) with
    | none => (exc, s)
    | some e =>
      let w := word (leAt e (if t = 7 then 28 else 16) 4)
      if fld w 30 29 = 2 then
        (if hopLimit bs ≤ 1 then (exc, s) else (none, s.clsDrop i 6))
      else if fld w 30 29 = 1 ∨ hopLimit bs ≤ 1 then (exc, s)
      else
        let sa := leBytes 4 (s.reg R.TBL_RMAC_LO).toNat ++ leBytes 2 (s.regFld R.TBL_RMAC_HI 15 0)
        let pcp := match outerTag bs with | some g => g / 8192 | none => 0
        (some ([fld w 6 0], { Edits.none with
          tagOp := if bitOf w 15 then 2 else 1, vid := fld w 27 16, pcp := pcp, da := some (slice e (if t = 7 then 20 else 8) 6)
          sa := some sa, hop := true }), s)

/-- Bridging in a VLAN: the egress set and its edits. -/
def State.bridge (s : State) (i v : Nat) (bs : Bytes) : Option (List Nat × Edits) × State :=
  let ve := s.tbl.act.vlanOf v
  let vw := word (leAt ve 20 4)
  let member := portsOf (slice ve 0 16)
  let (pcp, _, _) := s.resolveTag i bs
  let ed : Edits := { Edits.none with tagOp := 3, vid := v, pcp := pcp, untag := leAt ve 16 4 }
  match (s.lookup 4 s.tbl.mac (macKey (slice bs 0 6) (fld vw 11 0))).bind fun k => kvGet? s.tbl.mac k with
  | none => (some (member, ed), s)
  | some e =>
    let w := word (leAt e 8 4)
    if bitOf w 27 && bitOf vw 29 && s.regBit R.TBL_CTRL 1 then s.route i bs
    else
      let dst := if bitOf w 26 then portsOf (kvGet s.tbl.act.group (fld w 11 0) []) else [fld w 6 0]
      (some (dst.filter member.contains, ed), s)

/-- Format of a frame: as received on a line, the record's on a replay, and otherwise its stream's BUSFMT (R183). -/
def arrivalBus (a : Arrival) (e : Bytes) : Bool :=
  match a.src with
  | .line => a.bus
  | .replay _ => a.bus
  | _ => bitOf (wordAt e 1) 30

/-- The egress set a stream entry resolves to, with its edits; none where the frame is discarded (R172); a
frame in bus format has no address to route by. -/
def State.destination (s : State) (a : Arrival) (e : Bytes) (v : Option Nat) : Option (List Nat × Edits) × State :=
  let w0 := wordAt e 0
  let w3 := wordAt e 3
  let tags : Edits := { Edits.none with tagOp := fld w3 31 30, vid := fld w3 27 16, pcp := fld w3 15 13 }
  match fld w0 30 28 with
  | 1 =>
    let p := fld w0 22 16
    if bitOf w3 8 then
      let x := s.tbl.slot (p - 64) (fld w3 7 0)
      if trackState x = 0 ∨ byteAt x 8 = 0xFE then (none, s.clsDrop a.port 4)
      else (some ([p], { tags with ps := some (byteAt x 8) }), s)
    else (some ([p], tags), s)
  | 2 => (some (portsOf (kvGet s.tbl.act.group (fld w0 11 0) []), tags), s)
  | 3 =>
    match v with
    | some v => s.bridge a.port v a.bytes
    | none => (none, s.clsDrop a.port 5)
  | 4 =>
    if arrivalBus a e then (some ([s.regFld R.TBL_ROUTE_CTRL 6 0], Edits.none), s) else s.route a.port a.bytes
  | _ => (none, s.clsDrop a.port 5)

/-! ### The whole -/

/-- Meter a frame on its stream's policer (R198): whether it passes, with the policer's counters. -/
def State.police (s : State) (n len : Nat) : Bool × State :=
  let p := kvGet s.tbl.pol n ⟨List.replicate 32 0, 0, 0, s.now, false⟩
  let (colour, drop, p') := p.meter s.now len
  let red (q : Policer) := leAt q.rcd 16 1 % 2 == 1
  let s := s.setTbl { s.tbl with pol := kvSet s.tbl.pol n p' }
  let s := s.addCtr 11 (0x4000 + n) (2 * colour) 1
  (!drop, if red p' && !red p then s.raise 11 0 else s)

/-- The receive tunnel of a stream (R228). -/
def State.rxTunnel (s : State) (stream : Nat) : Option Nat :=
  (List.range 64).find? fun n =>
    s.regBit (R.MEC_RXTUN n 0) 31 && s.regFld (R.MEC_RXTUN n 0) 15 0 == stream

/-- From the stream handle on: entry, size, policer, destination, and what the copies carry (R170). -/
def State.resolve (s : State) (a : Arrival) (h : Nat) (v : Option Nat) : Classified × State :=
  let e := s.tbl.act.streamOf h
  let w0 := wordAt e 0
  let w1 := wordAt e 1
  let w2 := wordAt e 2
  if !bitOf w0 31 then (⟨none, none⟩, s.clsDrop a.port 2)
  else
    let bus := arrivalBus a e
    let sdu := if bus then leAt a.bytes 12 2 else a.len
    if fld w1 29 16 != 0 && fld w1 29 16 < sdu then (⟨none, none⟩, s.clsDrop a.port 3)
    else
      let (pass, s) := if bitOf w1 31 then s.police (fld w1 12 0) a.len else (true, s)
      if !pass then (⟨none, none⟩, s)
      else
        let sig := some (s.sig.bank, h)
        let tun := if bus then none else s.rxTunnel h
        let (d, s) := match tun with
          | some _ => (some ([], Edits.none), s)
          | none => s.destination a e v
        match d with
        | none => (⟨sig, none⟩, s)
        | some (egress, ed) =>
          let egress := s.failover (egress.filter fun p => p != a.port && portTarget p)
          let tc := if bitOf w0 24 && a.port < 29 then
              match outerTag a.bytes with
              | some t => s.regFld (R.CLS_PCPMAP a.port) (3 * (t / 8192) + 2) (3 * (t / 8192))
              | none => fld w0 27 25
            else fld w0 27 25
          (⟨sig, some
            { egress := egress, tc := tc, stream := h, ingress := a.port, bus := bus, ledger := bitOf w0 23
              prot := egress.map fun p => (p, s.protOf p (fld w2 31 30) (fld w2 24 16))
              packed := bitOf w2 13, packRule := fld w2 12 0, edits := ed, timed := a.timed, launch := a.launch
              tag := a.tag, src := a.src, bank := s.sig.bank, rxTime := a.rxTime, tunnel := tun }⟩, s)

/-- Resolve a frame at ingress (R170, R171). -/
def State.classify (s : State) (a : Arrival) : Classified × State :=
  if !alive s 4 then (⟨none, none⟩, s)
  else
    match a.stream with
    | some h => s.resolve a h none
    | none =>
      if 64 ≤ a.port then
        match s.busLookup (busIndex a.port) a.bytes with
        | some h => s.resolve a h none
        | none => (⟨none, none⟩, s.clsDrop a.port 2)
      else
        match s.ethLookup a.port a.bytes with
        | (some (h, v), s) => s.resolve a h (some v)
        | (none, s) => (⟨none, none⟩, s)

/-! ### 802.1CB sequence recovery (R161, R162) -/

/-- The enabled recovery instance of a stream. -/
def State.cbOf (s : State) (stream : Nat) : Option Nat :=
  (List.range 256).find? fun n => s.regBit (R.SWC_CB_CFG n) 31 && s.regFld (R.SWC_CB_STREAM n) 15 0 == stream

/-- Signed distance of a sequence number from the recovered one, modulo 2^16. -/
def seqDelta (seq rec_ : Nat) : Int := signed 16 ((seq + 65536 - rec_ % 65536) % 65536)

/-- A vector's history shifted by k places: the counts of LOST, and the history (newest first).
[DEDUCED, assumption 45] -/
def cbShift : Nat → Nat → List Bool → Nat × List Bool
  | 0, lost, h => (lost, h)
  | k + 1, lost, h =>
    cbShift k (if h.getLast?.getD true then lost else lost + 1) (false :: h.dropLast)

/-- One frame at an instance: whether it passes, the instance, and the counters it steps: 0 PASSED, 1 DISCARDED,
2 OUT_OF_ORDER, 3 ROGUE, 4 LOST, 5 RESETS, 6 TAGLESS, each with its count. [DEDUCED, assumption 45] -/
def CbInst.take (c : CbInst) (alg : Bool) (hist seq now : Nat) : Bool × CbInst × List (Nat × Nat) :=
  if c.takeAny then
    (true, { c with takeAny := false, seq := seq, last := now, history := true :: List.replicate (hist - 1) false },
      [(0, 1)])
  else if alg then
    if seq = c.seq then (false, c, [(1, 1)])
    else
      (true, { c with seq := seq, last := now },
        (if seqDelta seq c.seq != 1 then [(2, 1)] else []) ++ [(0, 1)])
  else
    let d := seqDelta seq c.seq
    if (hist : Int) ≤ d ∨ d ≤ -(hist : Int) then (false, c, [(3, 1), (1, 1)])
    else if d ≤ 0 then
      let k := (-d).toNat
      if c.history.getD k false then (false, c, [(1, 1)])
      else (true, { c with history := c.history.set k true, last := now }, [(2, 1), (0, 1)])
    else
      let (lost, h) := cbShift d.toNat 0 c.history
      (true, { c with seq := seq, last := now, history := h.set 0 true },
        (if d != 1 then [(2, 1)] else []) ++ (if 0 < lost then [(4, lost)] else []) ++ [(0, 1)])

/-- Recovery of a frame: passed, with the R-TAG to be removed, or discarded. -/
def State.recover (s : State) (r : Resolved) (bs : Bytes) : Option Resolved × State :=
  match s.cbOf r.stream with
  | none => (some r, s)
  | some n =>
    let sel := 0x400 + n
    match (if r.bus then none else rtagAt bs) with
    | none => (none, (s.wrapCtr 8 sel 6 1).wrapCtr 8 sel 1 1)
    | some o =>
      let cfg := s.reg (R.SWC_CB_CFG n)
      let c := kvGet s.swc.cb n CbInst.none
      let (pass, c', cs) := c.take (bitOf cfg 30) (fld cfg 22 16) (beAt bs (o + 4) 2) s.now
      let s := { s with swc := { s.swc with cb := kvSet s.swc.cb n c' } }
      let s := cs.foldl (fun s x => s.wrapCtr 8 sel x.1 x.2) s
      (if pass then some { r with edits := { r.edits with popRtag := bitOf cfg 29 } } else none, s)

/-- The reset timeout of an instance: it takes any sequence number next (R161). [DEDUCED, assumption 45] -/
def State.cbTimeout (s : State) (n : Nat) : State :=
  let cfg := s.reg (R.SWC_CB_CFG n)
  let ms := fld cfg 15 0
  let c := kvGet s.swc.cb n CbInst.none
  if bitOf cfg 31 && ms != 0 && !c.takeAny && ms * 1000000 ≤ s.now - c.last then
    { s with swc := { s.swc with cb := kvSet s.swc.cb n { c with takeAny := true } } }.wrapCtr 8 (0x400 + n) 5 1
  else s

/-- CB_RESET_TIMEOUT (R161). -/
def execCbResetTimeout (n : Nat) (s : State) : Host.Outcome State Fault Refusal :=
  .next (if n < 256 && alive s 3 then s.cbTimeout n else s)

end Sys2Proof.Machine
end

