-- ==== Sys2Proof/Machine/Ledger.lean ====
section
/-! DEFINITION. The ledger: records, clearing, orphans, replay sets, the flush and its restoration
(15_ledger_and_replay.md). -/

namespace Sys2Proof.Machine

/-- Replace the hidden state of the ledger. -/
def State.setLdg (s : State) (x : Ldg) : State := { s with ldg := x }

/-- Granules of the ledger SRAM (R512). -/
def ldgGranules : Nat := 32768

/-! ### Records (R512, R513) -/

/-- Bit of a port in the compact map (R513). -/
def mapBit (p : Nat) : Nat :=
  if p < 29 then p else if p < 56 then p - 32 + 29 else if p < 96 then p - 64 + 53 else p - 96 + 77

/-- The compact port map of a list of ports. -/
def compactMap (ps : List Nat) : Nat := ps.foldl (fun m p => m ||| 2 ^ mapBit p) 0

/-- The ports of a compact map, ascending. -/
def mapPorts (m : Nat) : List Nat :=
  ((List.range 104).filter portTarget).filter fun p => m.testBit (mapBit p)

/-- Granules of a record (R512). -/
def recGranules (len : Nat) (block : Bool) : Nat := 2 + (if block then 1 else 0) + (len + 15) / 16

/-- A record as it lies in the SRAM. -/
def LedgerRec.toBytes (r : LedgerRec) : Bytes :=
  let timed := r.launch.isSome
  let n := r.bytes.length
  let flags := r.tc % 8 + (if r.replayed then 8 else 0) + (if r.freed then 16 else 0) + (if r.bus then 32 else 0)
  let head := leBytes 4 r.seq ++ leBytes 4 r.admitUs ++ leBytes 2 r.stream ++
    leBytes 2 (n + (if timed then 2 ^ 14 else 0) + (if r.origin.isSome then 2 ^ 15 else 0)) ++
    leBytes 12 (compactMap r.pending) ++ [byte flags, byte r.live, byte r.wclass, byte r.owner] ++
    leBytes 2 r.size ++ [0, 0]
  let block : Bytes := if timed || r.origin.isSome then
      leBytes 8 (r.launch.getD 0) ++
      (match r.origin with
       | some (cookie, slot, ring, cq) => leBytes 4 cookie ++ leBytes 2 slot ++ [byte ring, byte cq]
       | none => List.replicate 8 0)
    else []
  head ++ block ++ r.bytes ++ List.replicate ((16 - n % 16) % 16) 0

/-- The record at the front of an image, placed at a granule. -/
def LedgerRec.ofBytes (off : Nat) (bs : Bytes) : LedgerRec :=
  let w := leAt bs 10 2
  let len := w % 2 ^ 14
  let timed := w / 2 ^ 14 % 2 == 1
  let org := w / 2 ^ 15 % 2 == 1
  let flags := byteAt bs 24
  let start := if timed || org then 48 else 32
  { seq := leAt bs 0 4, off := off, size := leAt bs 28 2, admitUs := leAt bs 4 4, stream := leAt bs 8 2
    bytes := slice bs start len
    launch := if timed then some (leAt bs 32 8) else none
    origin := if org then some (leAt bs 40 4, leAt bs 44 2, byteAt bs 46, byteAt bs 47) else none
    pending := mapPorts (leAt bs 12 12), tc := flags % 8, replayed := flags / 8 % 2 == 1
    freed := flags / 16 % 2 == 1, bus := flags / 32 % 2 == 1, live := 0, wclass := byteAt bs 26 % 16
    owner := byteAt bs 27 }

/-- The records of an image, oldest first. -/
def imageRecs : Nat → Nat → Bytes → List LedgerRec
  | 0, _, _ => []
  | n + 1, off, bs =>
    let r := LedgerRec.ofBytes off bs
    if bs.length < 32 ∨ r.size = 0 then []
    else r :: imageRecs n (off + r.size) (bs.drop (r.size * 16))

/-- Granules from tail to head (R515). -/
def Ldg.used (l : Ldg) : Nat := (l.recs.map (·.size)).foldl (· + ·) 0

/-- The record at an offset. -/
def State.ledgerRec (s : State) (off : Nat) : Option LedgerRec := s.ldg.recs.find? fun r => r.off == off

/-- Change the record at an offset. -/
def State.modRec (s : State) (off : Nat) (f : LedgerRec → LedgerRec) : State :=
  s.setLdg { s.ldg with recs := s.ldg.recs.map fun r => if r.off = off then f r else r }

/-- Drop freed records from the tail (R515); FULL ends with 9,280 free bytes (R517). -/
def Ldg.trim (l : Ldg) : Ldg :=
  let rs := l.recs.dropWhile (·.freed)
  let l := { l with recs := rs, tail := match rs with | r :: _ => r.off | [] => l.head }
  { l with full := l.full && decide (ldgGranules - l.used < 580) }

/-- Free a record (R515). -/
def State.freeRec (s : State) (off : Nat) : State :=
  let s := s.modRec off fun r => { r with freed := true, pending := [] }
  s.setLdg s.ldg.trim

/-- Window class of a stream (R511). -/
def State.windowClass (s : State) (stream : Nat) : Nat :=
  s.regFld (R.LDG_WMAP (stream / 8)) (4 * (stream % 8) + 3) (4 * (stream % 8))

/-- Window of a class, in microseconds. -/
def State.windowUs (s : State) (c : Nat) : Nat := s.regFld (R.LDG_WCLASS c) 15 0 * 1000

/-- Age of a record at an instant, in microseconds. -/
def LedgerRec.age (r : LedgerRec) (us : Nat) : Nat := (us % 2 ^ 32 + 2 ^ 32 - r.admitUs) % 2 ^ 32

/-- Make a record for an admitted frame: its offset, none where it is admitted unledgered (R510, R517, R526). -/
def State.makeRec (s : State) (r : LedgerRec) : Option Nat × State :=
  let size := recGranules r.bytes.length (r.launch.isSome || r.origin.isSome)
  if !s.regBit R.LDG_CTRL 0 || !alive s 2 then (none, s.satCtr 4 1 4)
  else if ldgGranules ≤ s.ldg.used + size then
    let s := s.satCtr 4 1 4
    let s := s.setLdg { s.ldg with full := true }
    if s.ldg.fullMs = some s.nowMs then (none, s)
    else (none, (s.setLdg { s.ldg with fullMs := some s.nowMs }).raise 4 0)
  else
    let off := s.ldg.head
    let was := s.ldg.used * 16
    let r := { r with seq := s.ldg.seq, off := off, size := size }
    let s := s.setLdg { s.ldg with
      recs := s.ldg.recs ++ [r], head := (off + size) % ldgGranules, seq := (s.ldg.seq + 1) % 2 ^ 32 }
    let s := s.addCtr 4 1 0 1
    let thr := s.regFld R.LDG_HIGH_THR 19 0
    (some off, if 0 < thr ∧ was < thr ∧ thr ≤ s.ldg.used * 16 then s.raise 4 2 else s)

/-! ### Clearing (R514, R515) -/

/-- A copy releases its descriptor: its bit is cleared when `clear`, and a record with no bit left is freed. -/
def State.ledgerEnd (s : State) (off port : Nat) (clear : Bool) : State :=
  match s.ledgerRec off with
  | none => s
  | some r =>
    if r.freed then s
    else
      let pending := if clear then r.pending.filter (· != port) else r.pending
      let live := r.live - 1
      let s := s.modRec off fun r => { r with pending := pending, live := live }
      if pending.isEmpty then (s.addCtr 4 1 2 1).freeRec off
      else if live = 0 then s.satCtr 4 1 9
      else s

/-! ### Late completions (R383, R523) -/

/-- The completion of a frame whose ring is gone falls due. -/
def State.finishLate (s : State) (off : Nat) : State :=
  match kvGet? s.ldg.late off with
  | none => s
  | some x =>
    if x.f.left ≠ 0 then s
    else
      let s := s.setLdg { s.ldg with late := kvDel s.ldg.late off }
      let (st, ca) := x.f.outcome
      let e := s.txEntry x.ring x.f (if st = 0 then 9 else st) ca
      let e := { e with idx := none, bytes := putBytes e.bytes 6 [0xFF#8, 0xFF#8] }
      if s.regFld (R.CQ_CFG x.cq) 31 24 = x.owner then s.postCq x.cq e else s.satCtr 9 (0x1400 + x.cq) 4

/-- A replayed copy ended. -/
def State.replayCopyEnd (s : State) (off : Nat) (fail : Option (Nat × Nat)) : State :=
  match kvGet? s.ldg.late off with
  | none => s
  | some x =>
    let f := { x.f with
      left := x.f.left - 1
      delivered := x.f.delivered + (if fail.isNone then 1 else 0)
      fails := x.f.fails ++ fail.toList }
    (s.setLdg { s.ldg with late := kvSet s.ldg.late off { x with f := f } }).finishLate off

/-! ### Replay sets (R519-R523) -/

/-- Offset a replay-feed item names. -/
def feedOff (ws : List Word) : Nat := leAt (ofWords ws) 0 2

/-- Records waiting in the replay feed. -/
def State.inFeed (s : State) : List Nat := (s.queue 7).items.map fun i => feedOff i.words

/-- Records that a set, an orphan replay or the feed holds for replay. -/
def State.replayPending (s : State) : List Nat :=
  (match s.ldg.set with | some x => x.todo | none => []) ++ s.ldg.orphans ++ s.inFeed

/-- New frames of a stream wait at their admission point (R522). -/
def State.streamHeld (s : State) (stream : Nat) : Bool :=
  s.replayPending.any fun off => (s.ledgerRec off).any fun r => r.stream == stream

/-- A frame whose record is freed without replay completes its ring slot with `TRUNCATED` and cause 12 (R382, R520).
[DEDUCED, assumption 109] -/
def State.truncTx (s : State) (off : Nat) : State :=
  match s.ledgerRec off with
  | none => s
  | some r =>
    match r.origin with
    | none => s
    | some (_, _, ring, _) =>
      (s.setTx ring ((s.txFrames ring).map fun f =>
        if f.ledgerRec = some off ∧ f.state = 0 then { f with left := 0, fails := f.fails ++ [(0, 12)] } else f)).flushTx ring

/-- Free a record that is not replayed and count it in a counter: 6 EXPIRED, 7 UNTIMED, 8 REPEAT_SKIP. -/
def State.dropRec (s : State) (kind slot off : Nat) : State :=
  let s := s.satCtr 4 1 slot
  let s := if kind = 0 then s.truncTx off else s
  s.freeRec off

/-- Why a record is not replayed after a restart of a kind: the counter it is counted in (R520). -/
def State.replayBar (s : State) (kind ageUs : Nat) (r : LedgerRec) : Option Nat :=
  let w := s.windowUs r.wclass
  if w = 0 ∨ w ≤ r.age ageUs then some 6
  else if r.replayed then some 8
  else if kind = 3 ∧ !s.regBit (R.LDG_WCLASS r.wclass) 16 then some 6
  else if kind ≠ 0 ∧ (r.launch.any fun l => compactBase l != 3) then some 7
  else none

/-- The last item of a set has been pushed (R523). -/
def State.setEmpty (s : State) : State :=
  match s.ldg.set with
  | some x => if !x.waiting && x.todo.isEmpty then (s.setLdg { s.ldg with set := none }).raise 4 1 else s
  | none => s

/-- Replay of the set begins: each record is judged under R520. -/
def State.beginReplay (s : State) : State :=
  match s.ldg.set with
  | none => s
  | some x =>
    let (s, keep) := x.todo.foldl (fun (y : State × List Nat) off =>
      match y.1.ledgerRec off with
      | none => y
      | some r =>
        if r.freed then y
        else match y.1.replayBar x.kind x.ageUs r with
          | some slot => (y.1.dropRec x.kind slot off, y.2)
          | none => (y.1, y.2 ++ [off])) (s, [])
    (s.setLdg { s.ldg with set := some { x with waiting := false, todo := keep } }).setEmpty

/-- A replay set is formed from every record not freed, none where there is no record (R519). -/
def State.formSet (s : State) (kind ageUs : Nat) (fresh : Bool) : State :=
  let rs := s.ldg.recs.filter fun r => !r.freed && !(fresh && r.replayed)
  let s := s.setLdg { s.ldg with
    recs := s.ldg.recs.map (fun r => { r with live := 0 }), orphans := [], lost := none }
  if rs.isEmpty then s
  else
    let s := s.setLdg { s.ldg with set := some ⟨kind, ageUs, s.nowUs, true, rs.map (·.off)⟩ }
    if kind = 0 then s.beginReplay else s

/-- A set that waits is freed as EXPIRED (R525, R529). [DEDUCED, assumption 134] -/
def State.expireSet (s : State) : State :=
  match s.ldg.set with
  | some x =>
    if x.waiting then x.todo.foldl (fun s off => s.dropRec 1 6 off) (s.setLdg { s.ldg with set := none }) else s
  | none => s

/-- The deadline of a waiting set has passed, as DEADLINE_MS now stands (R520). [DEDUCED, assumption 134] -/
def State.replayLate (s : State) : Bool :=
  match s.ldg.set with
  | some x =>
    let d := s.regFld R.LDG_CTRL 31 16
    x.waiting && x.kind != 0 && d != 0 && decide (d * 1000 ≤ s.nowUs - x.fromUs)
  | none => false

/-- The item of one record: its offset and the ports it is replayed to (R521). -/
def feedItem (off : Nat) (ports : List Nat) : List Word := toWords (leBytes 4 off ++ leBytes 12 (compactMap ports))

/-- Push one record into the replay feed, in SEQ order, orphans of a re-enabled port with the ports then enabled
(R516, R521). -/
def State.pushReplay (s : State) : State :=
  if s.queueFull 7 then s
  else
    let push (s : State) (off : Nat) (only : Nat → Bool) : State :=
      match s.ledgerRec off with
      | some r =>
        if r.freed then s
        else ((s.modRec off fun r => { r with replayed := true }).append 7 (feedItem off (r.pending.filter only))).evalQueue 7
      | none => s
    match s.ldg.set with
    | some x =>
      if x.waiting then s
      else match x.todo with
        | off :: rest =>
          (push (s.setLdg { s.ldg with set := some { x with todo := rest } }) off fun _ => true).setEmpty
        | [] => s.setEmpty
    | none =>
      match s.ldg.orphans with
      | off :: rest =>
        push (s.setLdg { s.ldg with orphans := rest }) off fun p => s.regBit (R.SWC_PCTL p) 0
      | [] => s

/-! ### Orphans (R516) -/

/-- A record is an orphan: no copy holds a descriptor, ports are pending, and no replay holds it.
[DEDUCED, assumption 133] -/
def State.isOrphan (s : State) (r : LedgerRec) : Bool :=
  !r.freed && r.live == 0 && !r.pending.isEmpty && !s.replayPending.contains r.off

/-- A port is enabled again: its orphans within their window are to be replayed, the others are freed. -/
def State.orphanReplay (s : State) (port : Nat) : State :=
  ((s.ldg.recs.filter s.isOrphan).filter fun r => r.pending.contains port).foldl (fun s r =>
    match s.replayBar 0 s.nowUs r with
    | some slot => s.dropRec 1 slot r.off
    | none => s.setLdg { s.ldg with orphans := s.ldg.orphans ++ [r.off] }) s

/-- The sweep frees every orphan whose age has reached its window. [DEDUCED, assumption 133] -/
def State.orphanSweep (s : State) : State :=
  ((s.ldg.recs.filter s.isOrphan).filter fun r => s.windowUs r.wclass ≤ r.age s.nowUs).foldl
    (fun s r => s.dropRec 1 6 r.off) s

/-! ### Flush and restoration (R518) -/

/-- Address of a flush region. -/
def flushRegion (k : Nat) : Nat := 0x40000000 + k * 0x100000

/-- A region holds a complete image: its ISEQ, body length and whether it waits to be restored.
[DEDUCED, assumption 108] -/
def State.flushImage (s : State) (k : Nat) : Option (Nat × Nat × Bool) :=
  let h := s.read (flushRegion k) 64
  let n := leAt h 16 4
  if h.take 4 = [0x50#8, 0x47#8, 0x4C#8, 0x46#8] ∧ n ≤ 0x80000 ∧
      (crc32c 0xFFFFFFFF#32 (s.read (flushRegion k + 64) n)).toNat = leAt h 20 4 then
    some (leAt h 4 4, n, leAt h 24 4 != 0x434F4E53)
  else none

/-- The flush on a power-fail warning: the SRAM from tail to head, then the header. -/
def State.ledgerFlush (s : State) : State :=
  let k := match s.flushImage 0, s.flushImage 1 with
    | some a, some b => if a.1 < b.1 then 0 else 1
    | some _, none => 1
    | none, _ => 0
  let body := s.ldg.recs.flatMap LedgerRec.toBytes
  let iseq := leAt (s.read (flushRegion (1 - k)) 64) 4 4 + 1
  let head := [0x50#8, 0x47#8, 0x4C#8, 0x46#8] ++ leBytes 4 iseq ++ leBytes 8 (compactOf 3 s.now) ++
    leBytes 4 body.length ++ leBytes 4 (crc32c 0xFFFFFFFF#32 body).toNat ++ List.replicate 40 0
  ((s.write (flushRegion k + 64) body).write (flushRegion k) head).satCtr 4 1 10

/-- After power returns: the newest image that waits is restored and marked consumed, and its set is formed; with none,
FLUSH_FAIL (R518, R519, R527). [DEDUCED, assumption 108] -/
def State.ledgerRestore (s : State) : State :=
  let cand := [0, 1].filterMap fun k => (s.flushImage k).bind fun (i, n, w) => if w then some (i, n, k) else none
  let best := cand.foldl (fun (b : Option (Nat × Nat × Nat)) e =>
    match b with
    | none => some e
    | some x => if x.1 < e.1 then some e else some x) none
  let s := s.setLdg { s.ldg with
    recs := [], head := 0, tail := 0, set := none, orphans := [], late := [], lost := none, full := false }
  match best with
  | none =>
    let torn := [0, 1].any fun k =>
      let h := s.read (flushRegion k) 64
      h.take 4 == [0x50#8, 0x47#8, 0x4C#8, 0x46#8] && (s.flushImage k).isNone
    let s := s.setLdg { s.ldg with seq := 0, restored := false }
    (s.fault 4 2 [if torn then 1 else 2]).raise 4 3
  | some (_, n, k) =>
    let t := s.expand (leAt (s.read (flushRegion k) 64) 8 8)
    let rs := imageRecs 32768 0 (s.read (flushRegion k + 64) n)
    let s := s.write (flushRegion k + 24) (leBytes 4 0x434F4E53)
    let top := match rs.getLast? with | some r => (r.seq + 1) % 2 ^ 32 | none => 0
    let s := s.setLdg { s.ldg with recs := rs, head := n / 16 % ldgGranules, seq := top, restored := true }
    (s.setLdg s.ldg.trim).formSet 3 (t / 1000) false

/-- Entry to SLEEP frees every record (R519). -/
def State.ledgerSleep (s : State) : State :=
  let s := s.setLdg { s.ldg with set := none, orphans := [], late := [] }
  (s.ldg.recs.filter fun r => !r.freed).foldl (fun s r => s.dropRec 1 6 r.off) s

/-! ### Commands -/

/-- LEDGER_REPLAY_PUSH (R521). -/
def execLedgerReplayPush (s : State) : Host.Outcome State Fault Refusal :=
  .next (if alive s 2 then s.pushReplay else s)

end Sys2Proof.Machine
end

