-- ==== Sys2Proof/Machine/Admit.lean ====
section
/-! DEFINITION. The shared buffer and admission: cells, descriptors, records, and the end of a copy (05_switch_core.md
R131-R142, R157; 15_ledger_and_replay.md R510, R514, R521, R522), with origination inside the gateway (R264, R367). -/

namespace Sys2Proof.Machine

/-- Replace the hidden state of the switch core. -/
def State.setSwc (s : State) (x : Swc) : State := { s with swc := x }

/-! ### Cells and descriptors (R131, R136, R138) -/

/-- Cells of a stored length. -/
def cellsOf (n : Nat) : Nat := (n + 255) / 256

/-- A stored frame. -/
def State.frameOf (s : State) (id : Nat) : Frame := kvGet s.swc.frames id ⟨[], false, 0, 0, 0, 0, []⟩

/-- Stored bytes of a copy. -/
def State.copyBytes (s : State) (c : Copy) : Bytes := (s.frameOf c.frame).bytes

/-- SWC_PUSEp: cells charged to a port's reservation. -/
def State.rsvUse (s : State) (p : Nat) : Nat :=
  s.swc.frames.foldl (fun n f => if f.2.ingress = p then n + f.2.rsv else n) 0

/-- SWC_POOL_USE. -/
def State.poolUse (s : State) : Nat := s.swc.frames.foldl (fun n f => n + f.2.pool) 0

/-- Copies of a queue, its head first. -/
def State.copies (s : State) (q : Nat) : List Copy := kvGet s.swc.queues q []

/-- Replace the copies of a queue. -/
def State.setCopies (s : State) (q : Nat) (l : List Copy) : State :=
  s.setSwc { s.swc with queues := if l.isEmpty then kvDel s.swc.queues q else kvSet s.swc.queues q l }

/-- SWC_QSTATq.OCC: cells of the copies admitted to a queue that still hold their descriptors. -/
def State.occ (s : State) (q : Nat) : Nat :=
  (s.heldCopies.filter fun c => c.port * 8 + c.tc == q).foldl (fun n c => n + cellsOf (s.copyBytes c).length) 0

/-- Free descriptors. -/
def State.descFree (s : State) : Nat := 65536 - s.heldCopies.length

/-- Store a frame: cells charged to its port's reservation, then to the pool; none where neither has one, and the frame
is discarded (R136). -/
def State.store (s : State) (bytes : Bytes) (bus : Bool) (ingress : Nat) (rx : List Nat) : Option Nat × State :=
  let n := cellsOf bytes.length
  let rsv := min n (s.regFld (R.SWC_PRSV ingress) 15 0 - s.rsvUse ingress)
  let pool := n - rsv
  if s.regFld R.SWC_POOL_SIZE 15 0 < s.poolUse + pool then (none, s.addCtr 8 (0x2000 + ingress) 4 1)
  else
    let id := s.swc.nextId
    (some id, s.setSwc { s.swc with
      frames := kvSet s.swc.frames id ⟨bytes, bus, ingress, 0, rsv, pool, rx⟩, nextId := id + 1 })

/-- A use has fallen below a limit that was lowered under it (R142); at a limit of 0 it does so at 0.
[DEDUCED, assumption 39] -/
def below (use limit : Nat) : Bool := use < limit || use == 0

/-- POOL_OVER, and RSV_OVER of a port, end as use falls (R142). [DEDUCED, assumption 39] -/
def State.overDone (s : State) (p : Nat) : State :=
  let s := if s.regBit R.SWC_STATUS 1 && below s.poolUse (s.regFld R.SWC_POOL_SIZE 15 0) then
      s.modReg R.SWC_STATUS fun w => putBit w 1 false else s
  if s.regBit (R.SWC_PSTAT p) 2 && below (s.rsvUse p) (s.regFld (R.SWC_PRSV p) 15 0) then
    s.modReg (R.SWC_PSTAT p) fun w => putBit w 2 false else s

/-- OVER_QUOTA of a queue ends as its occupancy falls (R142). [DEDUCED, assumption 39] -/
def State.quotaDone (s : State) (q : Nat) : State :=
  if s.regBit (R.SWC_QSTAT q) 31 && below (s.occ q) (s.regFld (R.SWC_QLIM q) 15 0) then
    s.modReg (R.SWC_QSTAT q) fun w => putBit w 31 false else s

/-- Free the cells of a frame. -/
def State.dropFrame (s : State) (id : Nat) : State :=
  (s.setSwc { s.swc with frames := kvDel s.swc.frames id }).overDone (s.frameOf id).ingress

/-- A copy lets go of its frame's cells (R135). -/
def State.unref (s : State) (id : Nat) : State :=
  let f := s.frameOf id
  if f.refs ≤ 1 then s.dropFrame id
  else s.setSwc { s.swc with frames := kvSet s.swc.frames id { f with refs := f.refs - 1 } }

/-! ### The end of a copy (R135, R514, R376, R523) -/

/-- Tell a copy's originator that it ended: delivered, or failed for a cause of R376. -/
def State.sourceEnd (s : State) (c : Copy) (fail : Option Nat) : State :=
  let f := fail.map fun k => (c.port, k)
  match c.src with
  | .ring n i => s.txCopyEnd n i f
  | .replay off =>
    match (s.ledgerRec off).bind (·.origin) with
    | some (_, _, ring, _) =>
      match (s.txFrames ring).find? fun x => x.ledgerRec == some off && x.state == 0 with
      | some x => s.txCopyEnd ring x.idx f
      | none => s.replayCopyEnd off f
    | none => s.replayCopyEnd off f
  | _ => s

/-- PURGING of a port ends when its last purged copy is released (R160). [DEDUCED, assumption 132] -/
def State.purgeDone (s : State) (p : Nat) : State :=
  if s.regBit (R.SWC_PSTAT p) 1 && !(s.heldCopies.any fun c => c.port == p) then
    s.modReg (R.SWC_PSTAT p) fun w => putBit w 1 false
  else s

/-- A copy already taken from its queue releases its descriptor: its cells, its ledger bit where `clear`, and its
originator's report. -/
def State.endCopy (s : State) (c : Copy) (fail : Option Nat) (clear : Bool) : State :=
  let s := s.unref c.frame
  let s := s.sourceEnd c fail
  let s := match c.ledger with
    | some off => s.ledgerEnd off c.port clear
    | none => s
  (s.purgeDone c.port).quotaDone (c.port * 8 + c.tc)

/-- Queue number of a copy. -/
def Copy.queue (c : Copy) : Nat := c.port * 8 + c.tc

/-- Count a copy in a counter of its queue: 4 ADMITTED, 6 DROP, 8 AGED, 10 LATE, 12 PURGED, 14 KEY_GONE (R166). -/
def State.qCount (s : State) (q slot : Nat) : State := s.addCtr 8 (0x1000 + q) slot 1

/-! ### Admission (R138-R142) -/

/-- What admission did: how many copies, which failed, and the ledger's answer. -/
structure Admitted where
  n : Nat
  fails : List (Nat × Nat)
  rcd : Option Nat
  full : Bool
  deriving DecidableEq, Repr

/-- Nothing admitted, for a cause. -/
def Admitted.none (cause : Nat) : Admitted := ⟨0, [(0, cause)], .none, false⟩

/-- A copy that is tail-dropped (R138, R157). -/
def State.tailDrop (s : State) (q : Nat) (multi desc : Bool) : State :=
  let s := s.qCount q 6
  let s := if desc then s.addCtr 8 1 2 1 else s
  if multi then (s.addCtr 8 1 0 1).raise 8 2 else s

/-- Line rate of an Ethernet port in Mbit/s; 0 while its link is down. -/
def State.lineRate (s : State) (p : Nat) : Nat := kvGet s.swc.link p 0

/-- The gates in force on a port: bit tc is 1 while the gate of tc is open (R149). -/
def State.gates (s : State) (p : Nat) : Nat :=
  if p < 29 && s.regBit (R.SWC_GCL_CTRL p) 0 && s.regFld (R.SWC_GCL_CTRL p) 22 16 != 0 then
    (kvGet s.swc.gcl p Gcl.none).gates
  else 0xFF

/-- Idle slope of a queue in kbit/s, at most the line rate (R148). -/
def State.idleSlope (s : State) (q : Nat) : Nat :=
  min (s.regFld (R.SWC_QCBS q) 21 0 * 64) (s.lineRate (q / 8) * 1000)

/-- Credit bounds of a queue, in millionths of a bit: loCredit and hiCredit (R148). -/
def State.creditBounds (s : State) (q : Nat) : Int × Int :=
  let line := s.lineRate (q / 8) * 1000
  let m := s.regFld (R.SWC_PSCHED (q / 8)) 29 16 * 8 * 1000000
  let idle := s.idleSlope q
  (-((m * (line - idle) / max 1 line : Nat) : Int), (m * idle / max 1 line : Nat))

/-- Credit of a queue's shaper brought up to now (R148). -/
def State.creditStep (s : State) (q : Nat) : State :=
  let p := q / 8
  if 29 ≤ p || !s.regBit (R.SWC_QCBS q) 31 then s
  else
    let cur := kvGet s.swc.credit q 0
    let dt : Int := ((s.now - kvGet s.swc.creditAt q s.now : Nat) : Int)
    let busy := match kvGet? s.swc.tx p with | some t => t.copy.queue == q | none => false
    let idle : Int := ((s.idleSlope q : Nat) : Int)
    let empty := (s.copies q).isEmpty
    let (lo, hi) := s.creditBounds q
    let new : Int :=
      if busy then cur + dt * (idle - ((s.lineRate p * 1000 : Nat) : Int))
      else if !(s.gates p).testBit (q % 8) then cur
      else if !empty then cur + dt * idle
      else if 0 < cur then 0
      else if cur + dt * idle < 0 then cur + dt * idle else 0
    let s := s.setSwc { s.swc with credit := kvSet s.swc.credit q (clampI lo hi new) }
    s.setSwc { s.swc with creditAt := kvSet s.swc.creditAt q s.now }

/-- Link a copy at the tail of its queue. -/
def State.linkCopy (s : State) (c : Copy) : State :=
  let s := s.creditStep c.queue
  let was := s.descFree
  let s := (s.setCopies c.queue (s.copies c.queue ++ [c])).qCount c.queue 4
  let s := s.setSwc { s.swc with nextId := s.swc.nextId + 1 }
  let low := s.regFld R.SWC_DESC_LOW 16 0
  if low ≤ was ∧ s.descFree < low then s.raise 8 0 else s

/-- The descriptor of one copy of a resolved frame. -/
def State.copyOf (s : State) (r : Resolved) (frame p : Nat) (rcd : Option Nat) : Copy :=
  let x := kvGet r.prot p (0, 512)
  { id := s.swc.nextId, frame := frame, port := p, tc := r.tc, mcast := decide (1 < r.egress.length), ct := false
    stream := r.stream, ingress := r.ingress, packed := r.packed, packRule := r.packRule, ledger := rcd
    keySlot := x.2, protect := x.1, timed := r.timed, launch := r.launch, admitUs := s.nowUs % 2 ^ 32
    edits := r.edits, tag := r.tag, src := r.src, attempts := 0, errs := 0, bank := r.bank }

/-- A copy fits its queue with n cells (R138). -/
def State.queueFits (s : State) (q n : Nat) : Bool :=
  s.regBit (R.SWC_PCTL (q / 8)) 0 && s.regFld (R.SWC_QLIM q) 15 0 != 0 &&
  decide (s.occ q + n ≤ s.regFld (R.SWC_QLIM q) 15 0)

/-- The egress copies of a frame, each decided on its own, in ascending port order: ports admitted and ports that failed
(R138). -/
def State.admitPorts (s : State) (r : Resolved) (frame n : Nat) : List Nat → List Nat × List (Nat × Nat) × State
  | [] => ([], [], s)
  | p :: ps =>
    let q := p * 8 + r.tc
    let multi := decide (1 < r.egress.length)
    if !s.queueFits q n then
      let (a, f, s) := (s.tailDrop q multi false).admitPorts r frame n ps
      (a, (p, 3) :: f, s)
    else if s.descFree = 0 then
      let (a, f, s) := (s.tailDrop q multi true).admitPorts r frame n ps
      (a, (p, 3) :: f, s)
    else
      let (a, f, s) := (s.linkCopy (s.copyOf r frame p none)).admitPorts r frame n ps
      (p :: a, f, s)

/-- Write a record's offset into the descriptors of a frame's copies (R510). -/
def State.markLedger (s : State) (frame off : Nat) : State :=
  s.setSwc { s.swc with queues := s.swc.queues.map fun e =>
    (e.1, e.2.map fun c => if c.frame = frame then { c with ledger := some off } else c) }

/-- The record of an admitted frame (R512, R513). -/
def State.newRec (s : State) (r : Resolved) (bytes : Bytes) (ports : List Nat) : LedgerRec :=
  let origin := match r.src with
    | .ring n i =>
      match (s.txFrames n).find? fun f => f.idx == i with
      | some f => some (f.cookie, i % max 1 (s.ringSize 0 n), n,
          s.ringCq 0 n + (if s.regBit (R.CQ_CFG (s.ringCq 0 n)) 17 then 128 else 0))
      | none => none
    | _ => none
  let owner := match r.src with | .ring n _ => s.ringOwner 0 n | _ => 255
  { seq := 0, off := 0, size := 0, admitUs := s.nowUs % 2 ^ 32, stream := r.stream, bytes := bytes
    launch := if r.timed then some r.launch else none, origin := origin, pending := ports, tc := r.tc
    replayed := false, freed := false, bus := r.bus, live := ports.length, wclass := s.windowClass r.stream
    owner := owner }

/-- The ledger's part in an admission: a new record, or for a replay the record it attaches to (R510, R521). -/
def State.admitLedger (s : State) (r : Resolved) (frame : Nat) (bytes : Bytes) (ports : List Nat) :
    Option Nat × Bool × State :=
  match r.src with
  | .replay off =>
    let s := s.modRec off fun x => { x with pending := ports, live := ports.length }
    let s := (List.range ports.length).foldl (fun s _ => s.satCtr 4 1 5) s
    if ports.isEmpty then (some off, false, s.freeRec off) else (some off, false, s.markLedger frame off)
  | _ =>
    if !r.ledger || ports.isEmpty then (none, false, s)
    else match s.makeRec (s.newRec r bytes ports) with
      | (some off, s) => (some off, false, s.markLedger frame off)
      | (none, s) => (none, true, s)

/-- Tell a frame's originator what admission did. -/
def State.sourceAdmitted (s : State) (r : Resolved) (a : Admitted) : State :=
  match r.src with
  | .ring n i => s.txAdmitted n i a.n a.fails r.ledger a.rcd a.full
  | .replay off =>
    match (s.ldg.late.find? fun e => e.1 == off) with
    | some _ => (s.setLdg { s.ldg with late := s.ldg.late.map fun e =>
        if e.1 = off then (e.1, { e.2 with f := { e.2.f with admitted := a.n, left := a.n, fails := a.fails } }) else e }).finishLate off
    | none =>
      match (List.range 256).find? fun n => (s.txFrames n).any fun f => f.ledgerRec == some off && f.state == 0 with
      | some n =>
        (s.setTx n ((s.txFrames n).map fun f =>
          if f.ledgerRec = some off ∧ f.state = 0 then
            { f with admitted := a.n, left := a.n, delivered := 0, fails := a.fails } else f)).flushTx n
      | none => s
  | _ => s

/-- Admit a stored frame (R138): its copies, its record, and its cells freed where no copy is admitted. -/
def State.admitFrame (s : State) (r : Resolved) (frame : Nat) : Admitted × State :=
  let bytes := (s.frameOf frame).bytes
  let (a, s) :=
    if s.regBit R.SWC_STATUS 0 then (Admitted.none 14, s.addCtr 8 1 6 1)
    else if r.egress.isEmpty then (Admitted.none 2, s)
    else
      let (ports, fails, s) := s.admitPorts r frame (cellsOf bytes.length) r.egress
      let f := s.frameOf frame
      let s := s.setSwc { s.swc with frames := kvSet s.swc.frames frame { f with refs := ports.length } }
      let (rcd, full, s) := s.admitLedger r frame bytes ports
      (⟨ports.length, fails, rcd, full⟩, s)
  let s := if a.n = 0 then s.dropFrame frame else s
  let s := match r.src with
    | .replay off => if a.n = 0 then s.freeRec off else s
    | _ => s
  (a, s.sourceAdmitted r a)

/-- A frame at its admission point: it waits while its stream's replay goes first (R522). [DEDUCED, assumption 47] -/
def State.reachAdmission (s : State) (r : Resolved) (frame : Nat) : Admitted × State :=
  let replay := match r.src with | .replay _ => true | _ => false
  if !replay && s.streamHeld r.stream then
    (⟨0, [], none, false⟩, s.setSwc { s.swc with waiting := s.swc.waiting ++ [⟨r, frame⟩] })
  else s.admitFrame r frame

/-- Frames that waited at their admission point are admitted once their stream is held no more.
[DEDUCED, assumption 47] -/
def State.settleWaiting (s : State) : State :=
  if s.swc.waiting.isEmpty then s
  else
    let go := s.swc.waiting.filter fun w => !s.streamHeld w.res.stream
    let s' := s.setSwc { s.swc with waiting := s.swc.waiting.filter fun w => s.streamHeld w.res.stream }
    go.foldl (fun s w => (s.admitFrame w.res w.frame).2) s'

/-- What a discarded frame's originator hears (R376). -/
def State.sourceDiscard (s : State) (src : Source) (cause : Nat) : State :=
  match src with
  | .ring n i => s.txAdmitted n i 0 [(0, cause)] false none false
  | .replay off =>
    let s := s.freeRec off
    match kvGet? s.ldg.late off with
    | some x => (s.setLdg { s.ldg with late := kvSet s.ldg.late off { x with f := { x.f with left := 0, fails := [(0, cause)] } } }).finishLate off
    | none =>
      match (List.range 256).find? fun n => (s.txFrames n).any fun f => f.ledgerRec == some off && f.state == 0 with
      | some n =>
        (s.setTx n ((s.txFrames n).map fun f =>
          if f.ledgerRec = some off ∧ f.state = 0 then
            { f with admitted := 0, left := 0, delivered := 0, fails := [(0, cause)] } else f)).flushTx n
      | none => s
  | _ => s

/-- RX_FRAMES and RX_BYTES of an ingress port count a frame (R166). -/
def State.countRx (s : State) (p len : Nat) : State := (s.addCtr 8 (0x2000 + p) 0 1).addCtr 8 (0x2000 + p) 2 len

/-- A whole frame from classification to admission, its unpack rules run (R170, R252, R162, R138); an override replaces
what classification resolved for a replay (R521). A frame counts in RX_FRAMES of its ingress port (R166), an Ethernet one
at the end of its reception. [DEDUCED, assumption 149] -/
def State.takeFrame (s : State) (a : Arrival) (adjust : Resolved → Resolved) : Admitted × State :=
  let s := if a.port < 29 then s else s.countRx a.port a.bytes.length
  let (c, s) := s.classify a
  let s := match c.sig with | some (b, h) => s.unpack b h a.bytes | none => s
  match c.res with
  | none => (Admitted.none 2, s.sourceDiscard a.src 2)
  | some r =>
    match r.tunnel with
    | some n =>
      let s := { s with bus := { s.bus with tun := s.bus.tun ++ [TunFrame.mk n a.bytes a.rxTime] } }
      (Admitted.none 2, s.sourceDiscard a.src 2)
    | none =>
      match s.recover (adjust r) a.bytes with
      | (none, s) => (Admitted.none 2, s.sourceDiscard a.src 2)
      | (some r, s) =>
        match s.store a.bytes r.bus a.port a.rxTime with
        | (none, s) => (Admitted.none 3, s.sourceDiscard a.src 3)
        | (some id, s) => s.reachAdmission r id

/-- A frame originated inside the gateway on an internal port (R264, R367). -/
def State.originate (s : State) (port stream : Nat) (src : Source) (launch : Option Nat) (tag : Option Nat)
    (bytes : Bytes) : Admitted × State :=
  if !alive s 3 then (Admitted.none 12, s)
  else s.takeFrame ⟨port, false, bytes, bytes.length, some stream, src, launch.isSome, launch.getD 0, tag, []⟩ id

/-! ### Emission of pack rules (R264, R265) -/

/-- Emit the frame of a pack rule: its template on port 56 under TX_STREAM; the gap restarts. -/
def State.emitRule (s : State) (r : Nat) : State :=
  if !s.regBit R.SIG_CTRL 1 || !alive s 15 || !bitOf (s.sig.act.wordOf 3 r 0) 31 then s
  else
    let s := s.setSig { s.sig with
      lastEmit := kvSet s.sig.lastEmit r s.now, deferred := s.sig.deferred.filter (· != r) }
    let s := s.addCtr 22 1 4 1
    (s.originate 56 (fld (s.sig.act.wordOf 3 r 0) 15 0) (.pack r) none none (s.template r)).2

/-- Serve the triggers that fell due, and those that their emissions bring about. -/
def State.settleTriggers : Nat → State → State
  | 0, s => s
  | n + 1, s =>
    if s.sig.due.isEmpty then s
    else
      let due := s.sig.due
      settleTriggers n (due.foldl State.emitRule (s.setSig { s.sig with due := [] }))

/-- What a command leaves to be served at once: triggered emissions, and frames whose streams are held no more.
[DEDUCED, assumption 47] -/
def State.settle (s : State) : State := (settleTriggers 8 s).settleWaiting

end Sys2Proof.Machine
end

