-- ==== Sys2Proof/Machine/Motion.lean ====
section
/-! DEFINITION. Motion, bodies and crossings of the placement engine (10_placement_engine.md R323-R330, R342, R343).
Positions are in 2^-16 of the field unit, angles in 2^-48 turn, sines in 2^-36, times in nanoseconds. -/

namespace Sys2Proof.Machine

/-! ### Sines -/

/-- 2π in 2^-60. -/
def twoPi : Int := 7244019458077122842

/-- Division to nearest, ties away from zero, by a divisor of either sign (R328). -/
def divR (a b : Int) : Int := if b < 0 then roundDiv (-a) b.natAbs else roundDiv a b.natAbs

/-- Sine over the first quarter turn, in 2^-36, by its series. [DEDUCED, assumption 74] -/
def sineQ (r : Nat) : Int :=
  let y : Int := r * twoPi / 2 ^ 48
  let z := y * y / 2 ^ 60
  let p := [6, 20, 42, 72, 110, 156, 210, 272].foldr (fun (d : Int) acc => 2 ^ 60 - z * acc / d / 2 ^ 60) ((2 : Int) ^ 60)
  y * p / 2 ^ 84

/-- Sine of an angle as the engine has it: correct to within 2^-30, and within that bound free (R328).
[DEDUCED, assumption 74] -/
def sine (angle : Int) : Int :=
  let x := unsigned 48 angle
  let r := x % 2 ^ 46
  let v := match x / 2 ^ 46 with
    | 0 => sineQ r | 1 => sineQ (2 ^ 46 - r) | 2 => -sineQ r | _ => -sineQ (2 ^ 46 - r)
  v + clampI (-60) 60 (Config.sineError x)

/-- Cosine of an angle. -/
def cosine (angle : Int) : Int := sine (angle + 2 ^ 46)

/-! ### The motion model (R326, R327) -/

/-- Nanoseconds after which speed reaches zero, where speed and acceleration have opposite signs. -/
def Motion.stopAt (m : Motion) : Option Nat :=
  if (m.v < 0 ∧ 0 < m.a) ∨ (0 < m.v ∧ m.a < 0) then some (m.v.natAbs * giga / m.a.natAbs) else none

/-- Motion has stopped by an instant. -/
def Motion.stopped (m : Motion) (t : Nat) : Bool := match m.stopAt with | some z => decide (z ≤ t) | none => false

/-- Speed after t. -/
def Motion.speed (m : Motion) (t : Nat) : Int := if m.stopped t then 0 else m.v + divR (m.a * t) giga

/-- The motion after t (R327). [DESIGN CHOICE, assumption 76] -/
def Motion.advance (m : Motion) (t : Nat) : Motion :=
  let tau : Int := ((if m.stopped t then m.stopAt.getD t else t : Nat) : Int)
  let v1 := m.v + divR (m.a * tau) giga
  let turn := m.w * tau
  let th0 : Int := m.psi
  let th1 := th0 + divR turn giga
  let (de, dn) :=
    if 2 ^ 28 * giga ≤ turn.natAbs then
      let s0 := sine th0
      let c0 := cosine th0
      let s1 := sine th1
      let c1 := cosine th1
      let om := twoPi * m.w
      (divR ((m.v * c0 - v1 * c1) * 2 ^ 72) om + divR (m.a * (s1 - s0) * 2 ^ 180) (om * om),
        divR ((v1 * s1 - m.v * s0) * 2 ^ 72) om + divR (m.a * (c1 - c0) * 2 ^ 180) (om * om))
    else
      let d := divR (2 * giga * m.v * tau + m.a * tau * tau) (2 * giga * giga)
      let mid := th0 + divR turn (2 * giga)
      (divR (d * sine mid) (2 ^ 36), divR (d * cosine mid) (2 ^ 36))
  { m with e := m.e + de, n := m.n + dn, psi := unsigned 48 th1, v := if m.stopped t then 0 else v1 }

/-! ### Bodies (R323-R325) -/

/-- A signed 32-bit register. -/
def State.sreg (s : State) (a : Nat) : Int := signed 32 (s.reg a).toNat

/-- MODE of a body. -/
def State.bodyMode (s : State) (b : Nat) : Nat := s.regFld (R.PLE_BODY_CFG b) 5 4

/-- A body is enabled; body 0 always is. -/
def State.bodyOn (s : State) (b : Nat) : Bool := b == 0 || s.regBit (R.PLE_BODY_CFG b) 0

/-- Substep of the trailer integration, in nanoseconds. [DESIGN CHOICE, assumption 76] -/
def State.substep (s : State) : Nat := max 1 (s.regFld R.PLE_MOT_CFG 15 8) * 1000000

/-- dθ/dt of a trailer at an instant after the model instant, in 2^-48 turn per second. -/
def State.trailRate (s : State) (m : Motion) (b : Nat) (th : Int) (t : Nat) : Int :=
  let d : Int := max 1 (s.reg (R.PLE_BODY_DRAW b)).toNat
  let w := if m.stopped t then 0 else m.w
  divR (-(m.speed t) * sine th * 2 ^ 56) (twoPi * d) + divR (s.sreg (R.PLE_BODY_HF b) * w * cosine th) (2 ^ 36 * d) - w

/-- Angles of the bodies 1-3 a step of h after t, by the midpoint rule for trailers; the others keep theirs. -/
def State.angleStep (s : State) (m : Motion) (th : List Int) (t h : Nat) : List Int :=
  if h = 0 then th
  else th.zipIdx.map fun (x, i) =>
    if s.bodyMode (i + 1) = 2 ∧ s.bodyOn (i + 1) then
      let mid := x + divR (s.trailRate m (i + 1) x t * h) (2 * giga)
      x + divR (s.trailRate m (i + 1) mid (t + h / 2) * h) giga
    else x

/-- k substeps from t. [DESIGN CHOICE, assumption 76] -/
def State.angleSteps (s : State) (m : Motion) : Nat → Nat → List Int → List Int
  | 0, _, th => th
  | k + 1, t, th => s.angleSteps m k (t + s.substep) (s.angleStep m th t s.substep)

/-- Angles t after the model instant. [DESIGN CHOICE, assumption 76] -/
def State.anglesAt (s : State) (m : Motion) (t : Nat) : List Int :=
  let k := t / s.substep
  s.angleStep m (s.angleSteps m k 0 m.th) (k * s.substep) (t % s.substep)

/-- A body's pose. -/
structure Pose where
  e : Int
  n : Int
  h : Int
  deriving DecidableEq, Repr

/-- The point at offsets f and l of a pose (R323). -/
def Pose.place (p : Pose) (f l : Int) : Int × Int :=
  let si := sine p.h
  let co := cosine p.h
  (p.e + divR (f * si + l * co) (2 ^ 20), p.n + divR (f * co - l * si) (2 ^ 20))

/-- Pose of a body where the motion has come and its angles are given; parents have lower numbers (R325). -/
def State.pose (s : State) (m : Motion) (th : List Int) : Nat → Nat → Pose
  | 0, _ => ⟨m.e, m.n, m.psi⟩
  | k + 1, b =>
    if b = 0 then ⟨m.e, m.n, m.psi⟩
    else
      let p := s.pose m th k (s.regFld (R.PLE_BODY_CFG b) 2 1)
      let (e, n) := p.place (s.sreg (R.PLE_BODY_HF b)) (s.sreg (R.PLE_BODY_HL b))
      ⟨e, n, p.h + th.getD (b - 1) 0⟩

/-- An angle as MODE 0 has it. -/
def State.fixedAngle (s : State) (b : Nat) (x : Int) : Int :=
  if s.bodyMode b = 0 then s.sreg (R.PLE_BODY_ANGLE b) * 65536 else x

/-- The motion at the model instant with the fixed angles in force. -/
def State.motion (s : State) : Motion :=
  { s.ple.mot with th := s.ple.mot.th.zipIdx.map fun (x, i) => s.fixedAngle (i + 1) x }

/-! ### Edges (R342, R343) -/

/-- Where an edge acts: a point, or a line between two. -/
inductive Target where
  | point (e n : Int)
  | line (ae an be bn : Int)
  deriving DecidableEq, Repr

/-- What an actuator's record says of its place: body, forward and lateral offsets. -/
structure Mount where
  body : Nat
  fwd : Int
  lat : Int
  deriving DecidableEq, Repr

/-- A measure of an edge at an instant: the along-track distance or the cross product, and the lateral miss in 1/64 mm, or
for a line whether the foot lies on the segment. -/
structure Measure where
  g : Int
  miss : Int
  foot : Bool
  deriving DecidableEq, Repr

/-- Measure an edge for an actuator where the motion has come. -/
def State.measure (s : State) (k : Mount) (x : Target) (m : Motion) (th : List Int) : Measure :=
  let p := s.pose m th 4 k.body
  let (e, n) := p.place k.fwd k.lat
  match x with
  | .point te tn =>
    let si := sine p.h
    let co := cosine p.h
    let de := te * 65536 - e
    let dn := tn * 65536 - n
    ⟨de * si + dn * co, divR (de * co - dn * si) (2 ^ 52), true⟩
  | .line ae an be bn =>
    let ue := be - ae
    let un := bn - an
    let pe := e - ae * 65536
    let pn := n - an * 65536
    let f := pe * ue + pn * un
    ⟨ue * pn - un * pe, 0, decide (0 ≤ f) && decide (f ≤ (ue * ue + un * un) * 65536)⟩

/-- The measure passes from a to b: a distance falls from above 0 to 0 or below, a cross product changes sign or reaches
0. -/
def Target.hit (x : Target) (a b : Int) : Bool :=
  match x with
  | .point _ _ => decide (0 < a) && decide (b ≤ 0)
  | .line _ _ _ _ => b == 0 || decide (0 < a) != decide (0 < b)

/-- Measure an edge t after the model instant, from angles held at an earlier substep boundary. -/
def State.measureAt (s : State) (k : Mount) (x : Target) (m : Motion) (base : Nat × List Int) (t : Nat) : Measure :=
  let (t0, th) := if s.substep ≤ t - base.1 then (base.1 + s.substep, s.angleStep m base.2 base.1 s.substep) else base
  s.measure k x (m.advance t) (s.angleStep m th t0 (t - t0))

/-- Halve the span that holds a crossing: its end, not before the crossing. [DEDUCED, assumption 75] -/
def State.bisect (s : State) (k : Mount) (x : Target) (m : Motion) (base : Nat × List Int) (g : Int) :
    Nat → Nat → Nat → Nat
  | 0, _, hi => hi
  | n + 1, lo, hi =>
    let mid := (lo + hi) / 2
    if x.hit g (s.measureAt k x m base mid).g then s.bisect k x m base g n lo mid else s.bisect k x m base g n mid hi

/-- The first crossing after t, in steps of a millisecond: when, and the lateral miss there.
[DEDUCED, assumption 75] -/
def State.search (s : State) (k : Mount) (x : Target) (m : Motion) (last : Nat) :
    Nat → Nat × List Int → Nat → Int → Option (Nat × Int)
  | 0, _, _, _ => none
  | n + 1, base, t, g =>
    if last ≤ t then none
    else
      let t' := min (t + 1000000) last
      let y := s.measureAt k x m base t'
      let found :=
        if x.hit g y.g then
          let c := s.bisect k x m base g 20 t t'
          let z := s.measureAt k x m base c
          if z.foot then some (c, z.miss) else none
        else none
      match found with
      | some r => some r
      | none =>
        let base' := if s.substep ≤ t' - base.1 then (base.1 + s.substep, s.angleStep m base.2 base.1 s.substep) else base
        s.search k x m last n base' t' y.g

/-- The crossing of an edge at or after t0, both counted from the model instant: none within PLE_MAX_AHEAD. `side` is the
side on which it stood before a jump of the model. [DEDUCED, assumption 75] -/
def State.crossing (s : State) (k : Mount) (x : Target) (t0 : Nat) (side : Option Bool) : Option (Nat × Int) :=
  let m := s.motion
  let b := t0 / s.substep
  let base := (b * s.substep, s.angleSteps m b 0 m.th)
  let y := s.measureAt k x m base t0
  let jumped := match x, side with
    | .point _ _, some z => z && decide (y.g ≤ 0)
    | .line _ _ _ _, some z => z != decide (0 < y.g)
    | _, none => false
  let on := match x with | .line _ _ _ _ => y.g == 0 | .point _ _ => false
  if (jumped || on) && y.foot then some (t0, y.miss)
  else
    let ahead := s.regFld R.PLE_MAX_AHEAD 15 0
    s.search k x m (t0 + ahead * 1000000) (ahead + 1) base t0 y.g

end Sys2Proof.Machine
end

