-- ==== Sys2Proof/Machine/Place.lean ====
section
/-! DEFINITION. The placement engine: banks, orders, prediction, commit, results and the model's updates
(10_placement_engine.md R329-R359). -/

namespace Sys2Proof.Machine

/-- Replace the hidden state of the placement engine. -/
def State.setPle (s : State) (x : Ple) : State := { s with ple := x }

/-! ### Banks, actuators and templates (R335-R337) -/

/-- A bank by number. -/
def State.pleBank (s : State) (n : Nat) : PleBank := if n = s.ple.bank then s.ple.act else s.ple.shd

/-- An actuator record. -/
def PleBank.actuator (b : PleBank) (n : Nat) : Bytes := memRead b.acts (n * 32) 32

/-- A template record. -/
def PleBank.template (b : PleBank) (n : Nat) : Bytes := memRead b.tpls (n * 16) 16

/-- Bytes of a template. -/
def PleBank.templateBytes (b : PleBank) (n : Nat) : Bytes :=
  let t := b.template n
  memRead b.store (leAt t 4 4 * 16) (leAt t 2 2)

/-- Word 3 of an actuator: VALID, BODY, BE, WIDTH, START. -/
def actWord (r : Bytes) : Word := wordAt r 3

/-- Where an actuator is mounted. -/
def mountOf (r : Bytes) : Mount := ⟨fld (actWord r) 30 29, signed 32 (leAt r 0 4), signed 32 (leAt r 4 4)⟩

/-- Base byte of a template's fields: 24 past a bus frame's header (R336). -/
def templateBase (t : Bytes) : Nat := if byteAt t 12 % 2 = 1 then 0 else 24

/-- Pending orders accepted under the bank that is not active (R337). -/
def State.pleDrain (s : State) : Nat := (s.ple.orders.filter fun o => o.bank != s.ple.bank).length

/-! ### Orders (R339) -/

/-- OP of an order. -/
def PleOrder.op (o : PleOrder) : Nat := byteAt o.bytes 0

/-- FLAGS of an order. -/
def PleOrder.flag (o : PleOrder) (b : Nat) : Bool := byteAt o.bytes 1 / 2 ^ b % 2 == 1

/-- ORDER_ID. -/
def PleOrder.id (o : PleOrder) : Nat := leAt o.bytes 8 4

/-- ACTUATOR. -/
def PleOrder.actuator (o : PleOrder) : Nat := leAt o.bytes 2 2

/-- TEMPLATE. -/
def PleOrder.template (o : PleOrder) : Nat := leAt o.bytes 4 2

/-- QUEUE. -/
def PleOrder.queue (o : PleOrder) : Nat := leAt o.bytes 6 2

/-- What names an order: its owner and ORDER_ID (R340). -/
def PleOrder.key (o : PleOrder) : Nat × Nat := (o.owner, o.id)

/-- An edge of an order: the first, or the second. -/
def PleOrder.edge (o : PleOrder) (second : Bool) : PleEdge := if second then o.second.getD PleEdge.none else o.first

/-- Replace an edge. -/
def PleOrder.setEdge (o : PleOrder) (second : Bool) (e : PleEdge) : PleOrder :=
  if second then { o with second := some e } else { o with first := e }

/-- The edges an order has. -/
def PleOrder.which (o : PleOrder) : List Bool := if o.second.isSome then [false, true] else [false]

/-- Edges that are not committed. -/
def PleOrder.open_ (o : PleOrder) : List Bool := o.which.filter fun b => (o.edge b).launch.isNone

/-- An edge closes: the second, or the one edge of an order with FLAGS.CLOSE. -/
def PleOrder.closing (o : PleOrder) (second : Bool) : Bool := second || (o.second.isNone && o.flag 2)

/-- Field value of an edge. -/
def PleOrder.value (o : PleOrder) (second : Bool) : Nat := leAt o.bytes (if second then 14 else 12) 2

/-- Target of an edge. -/
def PleOrder.target (o : PleOrder) (second : Bool) : Target :=
  let z (k : Nat) : Int := signed 32 (leAt o.bytes k 4)
  match o.op, second with
  | 3, _ => .line (z 16) (z 20) (z 24) (z 28)
  | 4, false => .line (z 16) (z 20) (z 24) (z 28)
  | 4, true => .line (z 32) (z 36) (z 40) (z 44)
  | _, true => .point (z 24) (z 28)
  | _, false => .point (z 16) (z 20)

/-- The edges of an order are at points. -/
def PleOrder.atPoints (o : PleOrder) : Bool := o.op == 1 || o.op == 2

/-- A pending order by what names it. -/
def State.pleOrder (s : State) (k : Nat × Nat) : Option PleOrder := s.ple.orders.find? fun o => o.key == k

/-- Change a pending order. -/
def State.modOrder (s : State) (k : Nat × Nat) (f : PleOrder → PleOrder) : State :=
  s.setPle { s.ple with orders := s.ple.orders.map fun o => if o.key = k then f o else o }

/-- Number of the model base. -/
def State.pleBase (s : State) : Nat := if s.regFld R.PLE_CFG 1 0 = 0 then 0 else 2

/-- The present of the model base, in nanoseconds. -/
def State.pleNow (s : State) : Nat := s.tbNs s.pleBase

/-- PLE_MIN_LEAD from now. -/
def State.leadInstant (s : State) : Int := ((s.pleNow + s.regFld R.PLE_MIN_LEAD 15 0 * 1000 : Nat) : Int)

/-! ### Results (R350, R351) -/

/-- A committed launch as a result shows it. -/
def State.launchField (s : State) (e : PleEdge) : Nat :=
  match e.launch with | some l => compactOf s.pleBase l.toNat | none => 0

/-- SHIFT of an edge, in microseconds. -/
def PleEdge.shift (e : PleEdge) : Int :=
  match e.launch, e.l with
  | some a, some b => clampI (-32768) 32767 (roundDiv (a - b) 1000)
  | _, _ => 0

/-- The 32 bytes of an order's result. -/
def State.orderResult (s : State) (o : PleOrder) (status : Nat) : Bytes :=
  let e2 := o.second.getD PleEdge.none
  leBytes 4 o.id ++ [byte status, byte o.flags] ++ leBytes 2 (min o.preds 65535) ++ leBytes 8 (s.launchField o.first) ++
    leBytes 8 (s.launchField e2) ++ leBytes 4 (unsigned 32 o.miss) ++ leBytes 2 (unsigned 16 o.first.shift) ++
    leBytes 2 (unsigned 16 e2.shift)

/-- Deliver a result to the completion ring of the order's ring (R338, R375). -/
def State.postResult (s : State) (prod status : Nat) (result : Bytes) : State :=
  if prod < 0x2000000 then s
  else
    let n := (prod - 0x2000000) / 0x40000
    let i := prod % 0x40000
    s.postCq (s.ringCq 0 n) ⟨2, n, none, 1,
      cqHeader (leAt result 0 4) n 2 (i % max 1 (s.ringSize 0 n)) status 0 1 0 ++ List.replicate 16 0 ++ result, s.now,
      false⟩

/-- Count an order's end by its status: counters of R358, events and Fox measurement 55 (R346, R357). -/
def State.countEnd (s : State) (status : Nat) : State :=
  match status with
  | 1 => (s.satCtr 21 1 8).raise 21 0
  | 2 => (s.satCtr 21 1 9).raise 21 1
  | 3 => s.satCtr 21 1 10
  | 4 => (s.satCtr 21 1 11).raise 21 6
  | 9 => s.satCtr 21 1 12
  | _ => s

/-- An order ends and returns its result. [DEDUCED, assumption 77] -/
def State.endOrder (s : State) (k : Nat × Nat) (status : Nat) : State :=
  match s.pleOrder k with
  | none => s
  | some o =>
    let s := s.setPle { s.ple with orders := s.ple.orders.filter fun x => x.key != k }
    if o.silent then s else (s.countEnd status).postResult o.prod status (s.orderResult o status)

/-! ### Commit (R343, R345-R349) -/

/-- The edge misses and MISS_DROP ends its order: only an entry point is checked (R343). -/
def State.missDrop (s : State) (o : PleOrder) (second : Bool) : Bool :=
  let hw := leAt ((s.pleBank o.bank).actuator o.actuator) 16 4
  !second && o.atPoints && hw != 0 && decide (hw < o.miss.natAbs) && o.flag 1

/-- An edge may not commit now: in `LOST` no edge that opens does (R332), and after EN = 0 none that opens. -/
def State.barred (s : State) (o : PleOrder) (second : Bool) : Bool :=
  !o.closing second && (s.ple.mode == 2 || !s.regBit R.PLE_CTRL 0)

/-- Edges that a commit of an edge may take with it, soonest first, one of each other actuator (R345).
[DEDUCED, assumption 78] -/
def State.batchOf (s : State) (o : PleOrder) (l : Int) : List (PleOrder × Bool) :=
  let co : Int := ((leAt ((s.pleBank o.bank).template o.template) 8 2 * 1000 : Nat) : Int)
  if co = 0 then []
  else
    let all := s.ple.orders.flatMap fun f => f.open_.map fun b => (f, b)
    let fit := all.filter fun (f, b) =>
      f.actuator != o.actuator && f.template == o.template && f.queue == o.queue && f.bank == o.bank &&
      (f.edge b).tryAt.isNone && !s.barred f b &&
      match (f.edge b).l with | some x => decide (x < l + co) | none => false
    let at_ (x : PleOrder × Bool) : Int := ((x.1.edge x.2).l).getD 0
    let before (x y : PleOrder × Bool) : Bool :=
      decide (at_ x < at_ y) || (at_ x == at_ y && decide (x.1.id ≤ y.1.id))
    (fit.mergeSort before).foldl (fun acc x => if acc.any fun y => y.1.actuator == x.1.actuator then acc else acc ++ [x]) []

/-- The frame of a batch: template bytes with each edge's value in its actuator's field. [DEDUCED, assumption 78] -/
def State.batchFrame (s : State) (o : PleOrder) (es : List (PleOrder × Bool)) : Bytes :=
  let b := s.pleBank o.bank
  es.foldl (fun bs (f, second) =>
    let w := actWord (b.actuator f.actuator)
    writeField bs (templateBase (b.template o.template)) (fld w 18 0) (fld w 27 23) (bitOf w 28) (f.value second))
    (b.templateBytes o.template)

/-- An edge is committed at a launch: its frame is out, or on its way to admission (R345, R349). -/
def State.edgeDone (s : State) (k : Nat × Nat) (second : Bool) (launch : Int) (shifted mate : Bool) : State :=
  match s.pleOrder k with
  | none => s
  | some o =>
    let e := o.edge second
    let fl := (if second then 2 else 1) ||| (if shifted then 4 else 0) ||| (if mate then 8 else 0) |||
      (if e.forced then 16 else 0) ||| (if e.late then 32 else 0)
    let o' := { o.setEdge second { e with launch := some launch, tryAt := none } with flags := o.flags ||| fl }
    let s := (s.modOrder k fun _ => o').addCtr 21 1 2 1
    let s := if mate then s.addCtr 21 1 6 1 else s
    let s := if shifted then s.satCtr 21 1 13 else s
    let s := if second then s.setPle { s.ple with spans := kvDel s.ple.spans o.actuator }
      else if o'.open_.isEmpty then s
      else s.setPle { s.ple with spans := kvSet s.ple.spans o.actuator (o.bytes, o.bank) }
    if o'.open_.isEmpty then s.endOrder k o.final else s

/-- A frame of a batch is originated, from no earlier than an instant; the edges are committed, or fail and retry as R348
gives. The first edge of the batch leads it. [DEDUCED, assumption 78] -/
def State.sendBatch (s : State) (o : PleOrder) (es : List (PleOrder × Bool)) (want : Int) : State :=
  let t := (s.pleBank o.bank).template o.template
  let q := o.queue
  let floor_ := (kvGet? s.ple.last q).map fun l => l + ((leAt t 10 2 * 1000 : Nat) : Int)
  let launch := match floor_ with | some f => if want < f then f else want | none => want
  let shifted := decide (launch ≠ want)
  let tag := (es.find? fun x => x.1.flag 3).map fun x => leAt x.1.bytes 56 2
  let (a, s) := (s.addCtr 21 1 4 1).originate 57 (leAt t 0 2) (.order o.id) (some (compactOf s.pleBase launch.toNat)) tag
    (s.batchFrame o es)
  if 0 < a.n ∨ a.fails.isEmpty then
    let s := s.setPle { s.ple with last := kvSet s.ple.last q launch }
    (es.zipIdx).foldl (fun s ((f, b), i) => s.edgeDone f.key b launch shifted (i != 0)) s
  else
    es.foldl (fun s (f, b) =>
      if f.closing b then
        s.modOrder f.key fun x =>
          let e := x.edge b
          x.setEdge b { e with since := some (e.since.getD s.now), tryAt := some s.now }
      else s.endOrder f.key 4) s

/-- The commit of an edge at its predicted launch, with its batch (R345); missed edges end their orders (R343). -/
def State.commitEdge (s : State) (k : Nat × Nat) (second : Bool) : State :=
  match s.pleOrder k with
  | none => s
  | some o =>
    match (o.edge second).l with
    | none => s
    | some l =>
      if s.missDrop o second then s.endOrder k 2
      else
        let mates := s.batchOf o l
        let drop := mates.filter fun x => s.missDrop x.1 x.2
        let s := drop.foldl (fun s x => s.endOrder x.1.key 2) s
        s.sendBatch o ((o, second) :: mates.filter fun x => !s.missDrop x.1 x.2) l

/-- Forced closes: the second edges of the orders named take now + PLE_MIN_LEAD and are committed at once (R349). -/
def State.forceClose (s : State) (ks : List (Nat × Nat)) : State :=
  let l := s.leadInstant
  let s := ks.foldl (fun s k => s.modOrder k fun o =>
    let e := o.edge true
    o.setEdge true { e with l := some l, forced := true }) s
  ks.foldl (fun s k =>
    match s.pleOrder k with
    | some o =>
      let e := o.edge true
      if e.launch.isNone && e.tryAt.isNone then s.commitEdge k true else s
    | none => s) s

/-- Orders whose first edge is committed and whose second is not. -/
def State.openSpans (s : State) : List (Nat × Nat) :=
  (s.ple.orders.filter fun o => o.first.launch.isSome && o.open_ == [true]).map PleOrder.key

/-! ### Prediction (R342-R346) -/

/-- Predict one edge: its launch and miss, none while it waits. -/
def State.predictEdge (s : State) (o : PleOrder) (second : Bool) : Option (Int × Int) × State :=
  let r := (s.pleBank o.bank).actuator o.actuator
  match s.crossing (mountOf r) (o.target second) (s.pleNow - s.ple.tm) (o.edge second).side with
  | none => (none, s)
  | some (t, miss) =>
    let c : Int := ((s.ple.tm + t : Nat) : Int) + clampI (-999) 999 (Config.crossingError s.freeCtr)
    let lat := leAt r (if o.closing second then 10 else 8) 2 * 10000
    (some (c - (lat : Nat), miss), s.tickFree)

/-- An uncommitted edge is predicted: one too late for PLE_MIN_LEAD fails, or commits late, and is then predicted no more
(R346). -/
def State.predictOne (s : State) (k : Nat × Nat) (second : Bool) : State :=
  match s.pleOrder k with
  | none => s
  | some o =>
    if (o.edge second).tryAt.isSome || (o.edge second).launch.isSome || (o.edge second).forced ||
        (o.edge second).late then s
    else
      let (p, s) := s.predictEdge o second
      let e := { o.edge second with side := none }
      let put (s : State) (e : PleEdge) (miss : Int) : State := s.modOrder k fun o =>
        { o.setEdge second e with
          preds := o.preds + 1, seen := true, miss := if !second && o.atPoints then miss else o.miss }
      match p with
      | none => put s { e with l := none } o.miss
      | some (l, miss) =>
        let lead := s.leadInstant
        if lead ≤ l then put s { e with l := some l } miss
        else if o.flag 0 then put s { e with l := some lead, late := true } miss
        else if second then (put s { e with l := some lead } miss).forceClose [k]
        else (put s { e with l := some l } miss).endOrder k 1

/-- The passing of an order's points before its first prediction: it ends `LATE`, or for an entry already passed takes
R346 (R342). -/
def State.passedAtFirst (s : State) (o : PleOrder) (second : Bool) : Bool :=
  o.atPoints &&
  (let m := s.motion
   let r := (s.pleBank o.bank).actuator o.actuator
   let t := s.pleNow - s.ple.tm
   decide ((s.measure (mountOf r) (o.target second) (m.advance t) (s.anglesAt m t)).g ≤ 0))

/-- Predict an order. -/
def State.predictOrder (s : State) (k : Nat × Nat) : State :=
  match s.pleOrder k with
  | none => s
  | some o =>
    if !o.seen && o.first.launch.isNone && s.passedAtFirst o false then
      if o.op = 2 ∧ o.flag 0 ∧ !s.passedAtFirst o true then
        let s := s.modOrder k fun o =>
          { o with first := { o.first with l := some s.leadInstant, late := true }, seen := true, preds := o.preds + 1 }
        s.predictOne k true
      else s.endOrder k 1
    else if !o.seen && o.second.isSome && s.passedAtFirst o true then s.endOrder k 1
    else o.open_.foldl (fun s b => s.predictOne k b) s

/-- Predict every pending edge again, in ascending order of the last launch (R344). -/
def State.predictAll (s : State) : State :=
  if s.ple.mode = 0 then s
  else
    let soon (o : PleOrder) : Int := (o.open_.filterMap fun b => (o.edge b).l).foldl min (2 ^ 70)
    let ks := (s.ple.orders.mergeSort fun x y => decide (soon x ≤ soon y)).map PleOrder.key
    ks.foldl State.predictOrder s

/-! ### Updates of the model (R329-R334) -/

/-- What an update takes: values with their latencies in nanoseconds; angles of the bodies 1-3. -/
structure MotionIn where
  acc : Option Int
  yaw : Option (Int × Nat)
  speed : Option (Int × Nat)
  heading : Option (Int × Nat)
  pos : Option (Int × Int × Nat)
  angles : List (Option (Int × Nat))
  deriving DecidableEq, Repr

/-- Take inputs into a motion, as the update of R330 orders them. -/
def State.takeInputs (s : State) (m : Motion) (i : MotionIn) (t : Nat) : Motion :=
  let src := s.regFld R.PLE_MOT_CFG 3 2
  let m := { m with a := if src = 0 then 0 else match src, i.acc with | 1, some x => x | _, _ => m.a }
  let m := match i.yaw with | some (x, _) => { m with w := x } | none => m
  let m := match i.speed with
    | none => m
    | some (x, lat) =>
      let v := x + divR (m.a * lat) giga
      let a := if src = 2 then
          match s.ple.tSpd with
          | some z =>
            if z < t then
              m.a + divR (divR ((v - m.v) * giga) ((t - z : Nat) : Int) - m.a) (2 ^ s.regFld R.PLE_MOT_CFG 7 4)
            else m.a
          | none => m.a
        else m.a
      { m with v := v, a := a }
  let m := match i.heading with
    | some (x, lat) => { m with psi := unsigned 48 (x + divR (m.w * lat) giga) }
    | none => m
  let m := match i.pos with
    | none => m
    | some (e, n, lat) =>
      let back : Motion := { m with
        e := e, n := n, psi := unsigned 48 (m.psi - divR (m.w * lat) giga), v := m.v - divR (m.a * lat) giga }
      let p := back.advance lat
      let (de, dn) := (⟨0, 0, m.psi⟩ : Pose).place (s.sreg R.PLE_ANT_F) (s.sreg R.PLE_ANT_L)
      { m with e := p.e - de, n := p.n - dn }
  { m with th := m.th.zipIdx.map fun (x, k) =>
      match i.angles.getD k none with
      | none => x
      | some (y, lat) =>
        if s.bodyMode (k + 1) = 2 then
          let back : Motion := { m with v := m.v - divR (m.a * lat) giga, th := m.th.set k y }
          (s.anglesAt back lat).getD k y
        else y }

/-- Write the model to the output cells (R334). -/
def State.motionOut (s : State) : State :=
  if !s.regBit R.PLE_CTRL 1 then s
  else
    let c := s.regFld R.PLE_OUT_CELL 15 0
    let m := s.ple.mot
    let pair (x : Nat) : List Word := [word (x % 2 ^ 24 * 256), word (x / 2 ^ 24 % 2 ^ 24 * 256)]
    s.softCells ⟨0x0A, .machine⟩ c
      (pair (unsigned 48 (roundDiv m.e 65536)) ++ pair (unsigned 48 (roundDiv m.n 65536)) ++
        pair (unsigned 32 (roundDiv m.psi 65536)))

/-- Every open span is closed by force (R349). -/
def State.forceAll (s : State) : State := s.forceClose s.openSpans

/-- The sides on which pending edges stand, before an update takes its inputs. -/
def State.noteSides (s : State) (m : Motion) (th : List Int) : State :=
  if s.ple.mode = 0 then s
  else
    let note (o : PleOrder) (b : Bool) : PleOrder :=
      let k := mountOf ((s.pleBank o.bank).actuator o.actuator)
      o.setEdge b { o.edge b with side := some (decide (0 < (s.measure k (o.target b) m th).g)) }
    let os := s.ple.orders.map fun o => if o.seen then o.open_.foldl note o else o
    s.setPle { s.ple with orders := os }

/-- An update of the model with what it takes (R330). -/
def State.motionUpdate (s : State) (i : MotionIn) : State :=
  let t := s.pleNow
  let m := s.motion
  let d := t - s.ple.tm
  let th := s.anglesAt m d
  let m := { m.advance d with th := th }
  let s := s.noteSides m th
  let m := s.takeInputs m i t
  let run := i.pos.isSome
  let was := s.ple.mode
  let s := s.setPle { s.ple with
    tm := t, mot := m, tSpd := if i.speed.isSome then some t else s.ple.tSpd
    tPos := if run then some t else s.ple.tPos, mode := if run then 1 else was, lastUpd := some s.now }
  let s := if run && was != 1 then s.raise 21 3 else s
  s.motionOut.predictAll

/-- Value, STATE and COUNT of an input's cell or two-cell group. -/
def State.cellGroup (s : State) (cell : Nat) (two sgn : Bool) : Int × Nat × Nat :=
  let w := s.cell cell
  let u := fld w 31 8 + (if two then fld (s.cell (cell + 1)) 31 8 * 2 ^ 24 else 0)
  let k := if two then 48 else 24
  (if sgn then signed k u else (u : Nat), cellState w, fld w 4 0)

/-- Where an input's cell stands: changed since it was last taken, and valid. -/
def State.inputNews (s : State) (key : Nat) (x : Int × Nat × Nat) : Bool × Bool :=
  let changed := match kvGet? s.ple.taken key with
    | some c => c != x.2.2
    | none => x.2.1 != 4
  (changed, x.2.1 == 0)

/-- Note an input as taken, and count one that changed but is not valid (R330). -/
def State.noteInput (s : State) (key : Nat) (x : Int × Nat × Nat) (bad : Bool) : State :=
  let s := s.setPle { s.ple with taken := kvSet s.ple.taken key x.2.2 }
  if bad then s.satCtr 21 1 16 else s

/-- An input that changed and is valid, with the state after it is noted; an input that is not enabled gives none. -/
def State.takeInput (s : State) (key : Nat) (on : Bool) (x : Int × Nat × Nat) : Option Int × State :=
  let (changed, ok) := s.inputNews key x
  if !on || !changed then (none, s)
  else if ok then (some x.1, s.noteInput key x false)
  else (none, s.noteInput key x true)

/-- PLE_INj: enabled, cell and latency in nanoseconds. -/
def State.inputCfg (s : State) (j : Nat) : Bool × Nat × Nat :=
  let r := s.reg (R.PLE_IN j)
  (bitOf r 31, fld r 15 0, fld r 27 16 * 100000)

/-- What a cell-driven update takes: one snapshot of every input and articulation cell (R329, R330). -/
def State.snapshot (s : State) : MotionIn × State :=
  let two (j : Nat) : Bool := j != 3 && j < 5
  let val (j : Nat) : Int × Nat × Nat := s.cellGroup (s.inputCfg j).2.1 (two j) (j != 2)
  let on (j : Nat) : Bool := (s.inputCfg j).1
  let lat (j : Nat) : Nat := (s.inputCfg j).2.2
  let (yaw, s1) := s.takeInput 4 (on 4) (val 4)
  let (acc, s1) := s1.takeInput 5 (on 5) (val 5)
  let (v3, s1) := s1.takeInput 3 (on 3) (val 3)
  let (v6, s1) := s1.takeInput 6 (on 6) (val 6)
  let (hd, s1) := s1.takeInput 2 (on 2) (val 2)
  let sel := match s.regFld R.PLE_MOT_CFG 1 0 with
    | 0 => 3 | 1 => 6 | _ => if on 6 && (val 6).2.1 == 0 then 6 else 3
  let spd := (if sel = 6 then v6 else v3).map fun x => (x * 65536, lat sel)
  let e := s1.inputNews 0 (val 0)
  let n := s1.inputNews 1 (val 1)
  let (pos, s1) :=
    if on 0 && on 1 && e.1 && n.1 && e.2 && n.2 then
      (some ((val 0).1 * 65536, (val 1).1 * 65536, lat 0), (s1.noteInput 0 (val 0) false).noteInput 1 (val 1) false)
    else
      let s1 := if on 0 && e.1 && !e.2 then s1.noteInput 0 (val 0) true else s1
      (none, if on 1 && n.1 && !n.2 then s1.noteInput 1 (val 1) true else s1)
  let (angles, s1) := [1, 2, 3].foldl (fun (acc : List (Option (Int × Nat)) × State) b =>
    let r := s.reg (R.PLE_BODY_CFG b)
    let used := bitOf r 0 && (fld r 5 4 == 1 || (fld r 5 4 == 2 && fld r 31 16 != 0))
    let (x, s1) := acc.2.takeInput (16 + b) used (s.cellGroup (fld r 31 16) true true)
    (acc.1 ++ [x.map fun x => (x * 65536, fld r 15 8 * 1000000)], s1)) ([], s1)
  (⟨acc.map (· * 65536), yaw.map fun x => (x * 65536, 0), spd, hd.map fun x => (x * 65536, lat 2), pos, angles⟩, s1)

/-- What a direct write takes: the fields of PLE_MW_MASK, each with one latency (R331). -/
def State.directInputs (s : State) (lat : Nat) : MotionIn :=
  let mask := s.regFld R.PLE_MW_MASK 7 0
  let v (i : Nat) : Int := s.sreg (R.PLE_MW i) * 65536
  let on (b : Nat) : Bool := mask.testBit b
  { acc := if on 4 then some (v 5) else none
    yaw := if on 3 then some (v 4, lat) else none
    speed := if on 2 then some (v 3, lat) else none
    heading := if on 1 then some ((s.reg (R.PLE_MW 2)).toNat * 65536, lat) else none
    pos := if on 0 then some (v 0, v 1, lat) else none
    angles := [5, 6, 7].map fun b =>
      if on b && s.bodyMode (b - 4) != 0 then some (v (b + 1), lat) else none }

/-- PLE_MW_TIME. -/
def State.directTime (s : State) : Nat :=
  (s.reg (R.PLE_MW_TIME 0)).toNat + (s.reg (R.PLE_MW_TIME 1)).toNat * 2 ^ 32

/-- A write of PLE_MW_GO is accepted: PLE_MW_TIME is not later than the present (R331). -/
def State.directOk (s : State) (v : Word) : Bool :=
  !bitOf v 0 || s.directTime == 0 || decide (Machine.expand s.pleNow s.directTime ≤ s.pleNow)

/-- An accepted write of PLE_MW_GO. -/
def State.directGo (s : State) (v : Word) : State :=
  if !bitOf v 0 || !s.regBit R.PLE_CTRL 0 then s
  else s.motionUpdate (s.directInputs (if s.directTime = 0 then 0 else s.pleNow - Machine.expand s.pleNow s.directTime))

/-- The model base stepped: the model's instants move with it, and pending edges are predicted again (R333). -/
def State.pleBaseStep (s : State) (n : Nat) (d : Int) : State :=
  if n ≠ s.pleBase ∨ !alive s 15 then s
  else
    let mv (t : Nat) : Nat := ((t : Int) + d / frac32).toNat
    let mvE (e : PleEdge) : PleEdge := if e.launch.isSome then e else { e with l := e.l.map (· + d / frac32) }
    (s.setPle { s.ple with
      tm := mv s.ple.tm, tSpd := s.ple.tSpd.map mv, tPos := s.ple.tPos.map mv
      orders := s.ple.orders.map fun o => { o with first := mvE o.first, second := o.second.map mvE } }).predictAll

/-! ### Taking orders (R338-R341) -/

/-- An order that is no CANCEL is refused (R340). -/
def State.orderRefused (s : State) (o : PleOrder) : Bool :=
  let b := s.ple.act
  let r := b.actuator o.actuator
  let w := actWord r
  let t := b.template o.template
  let e := wordAt (s.tbl.act.streamOf (leAt t 0 2)) 0
  let z (k : Nat) : Nat := leAt o.bytes k 8
  let wide (v : Nat) : Bool := decide (2 ^ fld w 27 23 ≤ v)
  !s.regBit R.PLE_CTRL 0 || o.op == 0 || decide (4 < o.op) || decide (16 ≤ byteAt o.bytes 1) ||
  (slice o.bytes 58 6).any (· != 0) ||
  decide (2048 ≤ o.actuator) || !bitOf w 31 || !s.bodyOn (fld w 30 29) ||
  decide (1024 ≤ o.template) || decide (byteAt t 12 < 128) ||
  (fieldBits (fld w 18 0) (fld w 27 23) (bitOf w 28)).any (fun p => leAt t 2 2 ≤ templateBase t + p / 8) ||
  !(bitOf e 31 && fld e 30 28 == 1 && fld e 22 16 * 8 + fld e 27 25 == o.queue && portLine (fld e 22 16)) ||
  wide (o.value false) || (o.second.isSome && wide (o.value true)) ||
  (3 ≤ o.op && z 16 == z 24) || (o.op == 4 && z 32 == z 40)

/-- An order is taken: refused, or accepted and first predicted (R338, R340). -/
def State.takeOrder (s : State) (o : PleOrder) : State :=
  let fail (st : Nat) : State := (s.countEnd st).postResult o.prod st (s.orderResult o st)
  if s.orderRefused o then fail 5
  else if (s.pleOrder o.key).isSome then fail 7
  else if 16384 ≤ s.ple.orders.length then fail 4
  else
    let s := (s.setPle { s.ple with orders := s.ple.orders ++ [o] }).addCtr 21 1 0 1
    if s.ple.mode = 0 then s else s.predictOrder o.key

/-- A CANCEL (R341). [DEDUCED, assumption 77] -/
def State.cancelOrder (s : State) (o : PleOrder) : State :=
  let done (s : State) (st : Nat) : State := s.postResult o.prod st (s.orderResult o st)
  match s.pleOrder o.key with
  | none => done s 6
  | some x =>
    if x.first.launch.isNone then done (s.endOrder x.key 9) 0
    else if x.open_.isEmpty then done s 1
    else done ((s.modOrder x.key fun y => { y with final := 9 }).forceClose [x.key]) 0

/-- An order as its slot gives it. -/
def orderOf (owner prod bank : Nat) (bs : Bytes) : PleOrder :=
  let two := byteAt bs 0 = 2 ∨ byteAt bs 0 = 4
  ⟨owner, prod, bs, bank, PleEdge.none, if two then some PleEdge.none else none, false, 0, 0, 0, 0, false⟩

/-- No order of a ring waits in the intake. -/
def State.noneWaits (s : State) (n : Nat) : Bool :=
  (s.queue 2).items.all fun it => it.prod < 0x2000000 || (it.prod - 0x2000000) / 0x40000 != n

/-- The engine takes the order at the front of its intake, if its OP passes (R338, R372). -/
def State.orderIntake (s : State) (ops : Nat → Bool) : State :=
  if !alive s 15 then s
  else match s.peek? 2, (s.queue 2).items.head? with
  | some ws, some it =>
    if !ops (byteAt (ofWords ws) 0) then s
    else match s.take? 2 with
    | none => s
    | some (_, s) =>
      let n := (it.prod - 0x2000000) / 0x40000
      let ring := decide (0x2000000 ≤ it.prod)
      let s := if ring && s.ringSize 0 n != 0 then
          s.setRingIdx 0 n 0x18 (if s.noneWaits n then s.ringIdx 0 n 0x14 else it.prod % 0x40000 + 1)
        else s
      let o := orderOf (if ring then s.ringOwner 0 n else 255) it.prod s.ple.bank (ofWords ws)
      if o.op = 5 then s.cancelOrder o else s.takeOrder o
  | _, _ => s

/-! ### The engine as a whole (R332, R348, R352, R354) -/

/-- PLE_CTRL.EN goes from 0 to 1: the model starts in `INIT` (R332). -/
def State.pleEnable (s : State) : State :=
  s.setPle { s.ple with
    mode := 0, tm := s.pleNow, mot := Motion.rest, tSpd := none, tPos := none, taken := [], trig := false, lastUpd := none }

/-- Orders that match end `CANCELLED`, their open spans closed by force (R352); `silent` ones return nothing (R385).
[DEDUCED, assumption 77] -/
def State.cancelAll (s : State) (p : PleOrder → Bool) (silent : Bool) : State :=
  let ks := (s.ple.orders.filter p).map PleOrder.key
  let s := ks.foldl (fun s k => s.modOrder k fun o => { o with final := 9, silent := o.silent || silent }) s
  let s := ks.foldl (fun s k =>
    match s.pleOrder k with
    | some o => if o.first.launch.isNone then s.endOrder k 9 else s
    | none => s) s
  s.forceClose (s.openSpans.filter fun k => ks.contains k)

/-- PLE_CTRL.EN goes from 1 to 0 (R352). -/
def State.pleDisable (s : State) : State := s.cancelAll (fun _ => true) false

/-- PD15 leaves a BLOCK reset: the orders it took are reported, and every open-span record is closed by force (R349,
R352). [DEDUCED, assumption 79] -/
def State.pleLeave (s : State) : State :=
  let n := s.ple.lost
  let s := s.setPle { s.ple with lostCnt := min n 65535, lost := 0 }
  let s := if n = 0 then s else s.raise 21 4
  let opened (a : Nat) (x : Bytes × Nat) : PleOrder :=
    { orderOf (0x1000 + a) 0 x.2 x.1 with
      first := { PleEdge.none with launch := some 0 }, second := some PleEdge.none, silent := true }
  let os := s.ple.spans.map fun e => opened e.1 e.2
  (s.setPle { s.ple with orders := s.ple.orders ++ os }).forceClose (os.map PleOrder.key)

/-- The edge to commit next: due, and of those the one with the lowest launch, then ORDER_ID (R345, R352). -/
def State.dueEdge (s : State) : Option ((Nat × Nat) × Bool) :=
  let lim : Int := ((s.pleNow + s.regFld R.PLE_HORIZON 15 0 * 1000 : Nat) : Int)
  let all := s.ple.orders.flatMap fun o => o.open_.filterMap fun b =>
    let e := o.edge b
    match e.l with
    | some l => if l ≤ lim ∧ e.tryAt.isNone ∧ !s.barred o b then some (l, o.id, o.key, b) else none
    | none => none
  (all.foldl (fun (best : Option (Int × Nat × (Nat × Nat) × Bool)) x =>
    match best with
    | none => some x
    | some y => if x.1 < y.1 ∨ (x.1 = y.1 ∧ x.2.1 < y.2.1) then some x else best) none).map fun x => (x.2.2.1, x.2.2.2)

/-- Pending first edges whose launch passes while the model is `LOST` fail (R352). -/
def State.lostLate (s : State) : State :=
  if s.ple.mode ≠ 2 then s
  else
    let now : Int := ((s.pleNow : Nat) : Int)
    (s.ple.orders.filter fun o => o.first.launch.isNone && !o.closing false &&
      match o.first.l with | some l => decide (l < now) | none => false).foldl (fun s o => s.endOrder o.key 1) s

/-- A pending edge waits at its order's EXPIRE (R342); an invalid timestamp never comes (R291). -/
def State.expired (s : State) (o : PleOrder) : Bool :=
  let c := leAt o.bytes 48 8
  !o.silent && c != 0 && compactOk c && decide (Machine.expand s.pleNow c ≤ s.pleNow) && o.open_.any fun b =>
    (o.edge b).l.isNone && (o.edge b).tryAt.isNone

/-! ### Loading (R337, R357) -/

/-- Bytes of a record and of a structure: 0 actuators, 1 templates, 2 store. -/
def pleRec (k : Nat) : Nat := if k = 0 then 32 else 16

/-- Bytes of a structure. -/
def pleSize (k : Nat) : Nat := match k with | 0 => 65536 | 1 => 16384 | _ => 131072

/-- Bytes of a structure of a bank. [DEDUCED, assumption 28] -/
def PleBank.part (b : PleBank) (k : Nat) : List Host.Cell := match k with | 0 => b.acts | 1 => b.tpls | _ => b.store

/-- Replace the bytes of a structure. -/
def PleBank.setPart (b : PleBank) (k : Nat) (m : List Host.Cell) : PleBank :=
  match k with | 0 => { b with acts := m } | 1 => { b with tpls := m } | _ => { b with store := m }

/-- A write of PLE_LD_CTRL is allowed (R357). -/
def State.pleLoadOk (s : State) (v : Word) : Bool :=
  let k := fld v 1 0
  let dst := (s.reg R.PLE_LD_DST).toNat
  let len := (s.reg R.PLE_LD_LEN).toNat
  let src := (s.reg (R.PLE_LD_SRC 0)).toNat + s.regFld (R.PLE_LD_SRC 1) 15 0 * 2 ^ 32
  !(bitOf v 31 || bitOf v 8) ||
  (s.ple.load.isNone && s.pleDrain == 0 && k ≤ 2 &&
    (bitOf v 8 || (dst % pleRec k == 0 && len % pleRec k == 0 && dst + len ≤ pleSize k &&
      (inDram src len || inScratch src len))))

/-- A load ends with a result and LD_DONE. -/
def State.pleLoadEnd (s : State) (result : Nat) : State :=
  ((s.setPle { s.ple with load := none }).setReg R.PLE_LD_STAT (word (result * 256))).raise 21 7

/-- An accepted write of PLE_LD_CTRL (R357). [DEDUCED, assumption 151] -/
def State.pleLoadGo (s : State) (v : Word) : State :=
  let k := fld v 1 0
  let src := (s.reg (R.PLE_LD_SRC 0)).toNat + s.regFld (R.PLE_LD_SRC 1) 15 0 * 2 ^ 32
  let len := (s.reg R.PLE_LD_LEN).toNat
  if bitOf v 8 then
    (s.setPle { s.ple with shd := s.ple.shd.setPart k [], load := some ⟨true, k, 0, 0, 0⟩ }).shadowWritten
  else if !bitOf v 31 then s
  else if len = 0 then s.pleLoadEnd 0
  else (s.setPle { s.ple with load := some ⟨false, k, src, (s.reg R.PLE_LD_DST).toNat, len⟩ }).shadowWritten

/-- The load completes: its records stand in the shadow structure. -/
def State.pleLoadDone (s : State) : State :=
  match s.ple.load with
  | none => s
  | some j =>
    let s := if j.clear then s else
      s.setPle { s.ple with
        shd := s.ple.shd.setPart j.struct_ (memWrite (s.ple.shd.part j.struct_) j.dst (s.read j.src j.len)) }
    s.pleLoadEnd 0

/-- Numbers of a structure's records that hold a byte other than zero, ascending. -/
def PleBank.listed (b : PleBank) (k : Nat) : List Nat :=
  ((b.part k).map fun e => e.1 / pleRec k).foldr (fun n l => if l.head? = some n then l else n :: l) []

/-- The checks of R337 over a bank: the first failure, as (structure, index, reason). -/
def PleBank.armCheck (b : PleBank) : Option (Nat × Nat × Nat) :=
  let actOk (i : Nat) : Bool :=
    let w := actWord (b.actuator i)
    !bitOf w 31 || (1 ≤ fld w 27 23 && fld w 27 23 ≤ 16)
  let tplOk (i : Nat) : Bool :=
    let t := b.template i
    let n := leAt t 2 2
    byteAt t 12 < 128 || (1 ≤ n && n ≤ 2072 && leAt t 4 4 * 16 + n ≤ 131072 &&
      (byteAt t 12 % 2 == 1 || leAt (b.templateBytes i) 12 2 + 24 == n))
  match firstBad 5 8 (b.listed 0) actOk with
  | some x => some x
  | none => firstBad 6 9 (b.listed 1) tplOk

/-! ### Registers (R324, R325, R357) -/

/-- PLE_STATUS as it reads. -/
def State.pleStatus (s : State) : Word :=
  word (s.ple.mode + 4 * s.ple.bank + (if 0 < s.pleDrain then 8 else 0) + (if s.ple.load.isSome then 16 else 0) +
    65536 * s.ple.lostCnt)

/-- PLE_BODYb_STATE: the articulation angle in force. -/
def State.bodyAngle (s : State) (b : Nat) : Word :=
  if b = 0 then 0 else word (unsigned 32 (roundDiv (s.motion.th.getD (b - 1) 0) 65536))

/-- The arrangement of the bodies is allowed (R324, R325). -/
def State.bodiesOk (s : State) : Bool :=
  [1, 2, 3].all fun b =>
    let r := s.reg (R.PLE_BODY_CFG b)
    let p := fld r 2 1
    let mode := fld r 5 4
    !bitOf r 0 ||
    (p < b && s.bodyOn p && mode ≤ 2 && (b == 1 || (p ≤ 1 && mode ≤ 1)) &&
      (mode != 2 || (p == 0 && s.reg (R.PLE_BODY_HL b) == 0 && s.reg (R.PLE_BODY_DRAW b) != 0)))

/-- A value written at an offset of the PLE window is accepted (R324, R325, R331, R353, R357). -/
def State.pleCheck (s : State) (off : Nat) (v : Word) : Bool :=
  let cfg := (0x90 ≤ off && off ≤ 0xA8) || (0xC0 ≤ off && off < 0xDC) || (0x100 ≤ off && off < 0x180)
  if cfg && s.regBit R.PLE_CTRL 0 then false
  else if off = 0x90 then fld v 1 0 == 0 || fld v 1 0 == 2
  else if off = 0x94 then 200 ≤ fld v 15 0 && fld v 15 0 ≤ 50000 && s.regFld R.PLE_MIN_LEAD 15 0 ≤ fld v 15 0
  else if off = 0x98 then 50 ≤ fld v 15 0 && fld v 15 0 ≤ s.regFld R.PLE_HORIZON 15 0
  else if off = 0x9C then 1 ≤ fld v 15 0 && fld v 15 0 ≤ 60000
  else if off = 0xA0 then
    fld v 1 0 != 3 && fld v 3 2 != 3 && fld v 7 4 ≤ 8 && 1 ≤ fld v 15 8 && fld v 15 8 ≤ 100 &&
      1 ≤ fld v 31 16 && fld v 31 16 ≤ 10000
  else if off = 0xAC then fld v 15 0 % 2 == 0
  else if 0x100 ≤ off ∧ off < 0x180 then (s.setReg (0x10150000 + off) v).bodiesOk && (off % 32 != 0 || fld v 5 4 != 3)
  else if off = 0x230 then s.directOk v
  else if off = 0x240 then s.pleLoadOk v
  else true

/-! ### Commands -/

/-- PLE_UPDATE (R330). -/
def execPleUpdate (s : State) : Host.Outcome State Fault Refusal :=
  .next <|
    let due := match s.ple.lastUpd with | some t => decide (t + 500000 ≤ s.now) | none => true
    if s.ple.trig && due && s.regBit R.PLE_CTRL 0 && alive s 15 then
      let (i, s) := (s.setPle { s.ple with trig := false }).snapshot
      (s.motionUpdate i).settle
    else s

/-- MODEL_POS_TIMEOUT (R332). -/
def execModelPosTimeout (s : State) : Host.Outcome State Fault Refusal :=
  .next <|
    let due := match s.ple.tPos with
      | some t => decide (t + s.regFld R.PLE_MOT_CFG 31 16 * 1000000 ≤ s.pleNow)
      | none => false
    if s.ple.mode == 1 && due && s.regBit R.PLE_CTRL 0 && alive s 15 then
      (((s.setPle { s.ple with mode := 2 }).raise 21 2).forceAll).settle
    else s

/-- PLE_ORDER_POINT (R339); it also takes an order whose OP is unknown, which is refused. -/
def execPleOrderPoint (s : State) : Host.Outcome State Fault Refusal :=
  .next (s.orderIntake fun op => op == 1 || op == 0 || decide (5 < op)).settle

/-- PLE_ORDER_SPAN (R339). -/
def execPleOrderSpan (s : State) : Host.Outcome State Fault Refusal := .next (s.orderIntake fun op => op == 2).settle

/-- PLE_ORDER_LINE (R339). -/
def execPleOrderLine (s : State) : Host.Outcome State Fault Refusal := .next (s.orderIntake fun op => op == 3).settle

/-- PLE_ORDER_LINE_SPAN (R339). -/
def execPleOrderLineSpan (s : State) : Host.Outcome State Fault Refusal := .next (s.orderIntake fun op => op == 4).settle

/-- PLE_CANCEL (R341). -/
def execPleCancel (s : State) : Host.Outcome State Fault Refusal := .next (s.orderIntake fun op => op == 5).settle

/-- PLE_COMMIT: the edge that is due first, with its batch (R345). -/
def execPleCommit (s : State) : Host.Outcome State Fault Refusal :=
  .next <|
    if !alive s 15 then s
    else
      let s := s.lostLate
      match s.dueEdge with
      | some (k, b) => (s.commitEdge k b).settle
      | none => s

/-- PLE_ORDER_EXPIRE: orders with an edge that waits at EXPIRE (R342). [DEDUCED, assumption 77] -/
def execPleOrderExpire (s : State) : Host.Outcome State Fault Refusal :=
  .next <|
    if !alive s 15 then s
    else
      ((s.ple.orders.filter s.expired).foldl (fun s o =>
        if o.first.launch.isNone then s.endOrder o.key 3
        else (s.modOrder o.key fun o => { o with final := 3 }).forceClose [o.key]) s).settle

/-- PLE_CLOSE_RETRY: closing edges not admitted, 100 µs after they were last offered (R348). -/
def execPleCloseRetry (s : State) : Host.Outcome State Fault Refusal :=
  .next <|
    if !alive s 15 then s
    else
      let due := s.ple.orders.flatMap fun o => (o.open_.filter fun b =>
        match (o.edge b).tryAt with | some t => decide (t + 100000 ≤ s.now) | none => false).map fun b => (o.key, b)
      (due.foldl (fun s (k, b) =>
        match s.pleOrder k with
        | some o => ((s.satCtr 21 1 14).raise 21 5).sendBatch o [(o, b)] s.leadInstant
        | none => s) s).settle

/-- CLOSE_FAIL: a closing edge not admitted 100 ms after its first commit (R348). -/
def execCloseFail (s : State) : Host.Outcome State Fault Refusal :=
  .next <|
    if !alive s 15 then s
    else
      let due := s.ple.orders.flatMap fun o => (o.open_.filter fun b =>
        !(o.edge b).failed && (o.edge b).tryAt.isSome &&
        match (o.edge b).since with | some t => decide (t + 100000000 ≤ s.now) | none => false).map fun b => (o, b)
      due.foldl (fun s (o, b) =>
        (s.modOrder o.key fun o => o.setEdge b { o.edge b with failed := true }).fault 21 3
          [word o.id, word o.actuator, 0, 0]) s

/-- PLE_LOAD_DONE (R357). -/
def execPleLoadDone (s : State) : Host.Outcome State Fault Refusal :=
  .next (if alive s 15 then s.pleLoadDone else s)

end Sys2Proof.Machine
end

