-- ==== Sys2Proof/Machine/TableCmds.lean ====
section
/-! DEFINITION. Table commands, from the mailbox and from the table command rings (06_tables_and_learning.md R179-R204,
R373). -/

namespace Sys2Proof.Machine

/-! ### Commands and records (R199, R200) -/

/-- A table command (R199). -/
structure TCmd where
  op : Nat
  table : Nat
  shadow : Bool
  replace : Bool
  toGen : Nat
  incl : Bool
  count : Nat
  tag : Nat
  data : Nat
  result : Nat
  cursor : Nat
  len : Nat
  deriving DecidableEq, Repr

/-- A command from its 32 bytes. -/
def TCmd.of (b : Bytes) : TCmd :=
  let w := wordAt b 0
  ⟨fld w 7 0, fld w 11 8, bitOf w 12, bitOf w 13, fld w 14 14, bitOf w 15, fld w 31 16, leAt b 4 2, leAt b 8 8,
    leAt b 16 8, leAt b 24 4, leAt b 28 1⟩

/-- Masks of the words of a body: reserved bits read as zero (R9, R182-R198, R616). -/
def bodyMask (t : Nat) : List Nat :=
  let f := 0xFFFFFFFF
  match t with
  | 0 => [0xFFFF0FFF, 0xFFFF1FFF, 0xC1FF3FFF, 0xCFFFE1FF, 0, 0, 0, 0]
  | 1 => [0x8000FFFF]
  | 2 => [f, f, 0xA0FFFFFF, 0]
  | 3 => [f, f, f, f, f, 0xE0000FFF]
  | 4 => [f, 0x0FFFFFFF, 0xFCFF0FFF, 0]
  | 5 => [f, f, f, f]
  | 6 => [f, 0x000000FF, f, 0x0000FFFF, 0xFFFF807F, 0x00FF0000]
  | 7 => [f, f, f, f, 0x000000FF, f, 0x0000FFFF, 0xFFFF807F, 0x00FF0000]
  | 8 => [f, f, 0x00010000, 0]
  | 9 => List.replicate 32 f ++ [0xC000FFFF]
  | _ => [0xFFFFFF, 0xFFFFFF, 0xFFFFFF, 0xFFFFFF, 0xE, 0, 0, 0]

/-- The body of a record with its reserved bits zero. -/
def cleanBody (t : Nat) (rcd : Bytes) : Bytes :=
  let b := slice rcd 8 (bodyLen t)
  ofWords ((bodyMask t).zipIdx.map fun (m, i) => wordAt b i &&& word m)

/-- INDEX of a record. -/
def recIndex (rcd : Bytes) : Nat := leAt rcd 0 4

/-- A record as a command returns it: slot or index, RSTATUS, MOVE_GEN, body. -/
def mkRecord (t i st mg : Nat) (body : Bytes) : Bytes :=
  slice (leBytes 4 i ++ [byte st, byte mg, 0, 0] ++ body) 0 (recLen t)

/-- An index of a direct table or of the tracker exists (R182-R186, R194-R198). -/
def indexOk (t i : Nat) : Bool :=
  i < tableSize t && !(t == 1 && 24 ≤ i / 2048 && 64 ≤ i % 2048) && !(t == 3 && i == 4095)

/-- A direct table's entry is present: its VALID bit, or always where it has none (R201). -/
def present (t : Nat) (e : Bytes) : Bool :=
  match t with
  | 0 => leAt e 0 4 / 2 ^ 31 == 1
  | 1 => leAt e 0 4 / 2 ^ 31 == 1
  | 3 => leAt e 20 4 / 2 ^ 31 == 1
  | 9 => leAt e 128 4 / 2 ^ 31 == 1
  | _ => true

/-- Every port set in a bitmap may be sent to (R185, R186). -/
def portsOk (bs : Bytes) : Bool := (portsOf (slice bs 0 16)).all portTarget

/-- Address bits beyond the prefix length are 0 (R192). -/
def prefixOk (t : Nat) (key : Bytes) : Bool :=
  let l := prefixLen t key
  l ≤ (if t = 7 then 128 else 32) && lpmKey t key l == slice key 0 (keyLen t)

/-- An INSERT of a body is not refused (R183, R185, R186, R192, R197, R616). -/
def insertOk (t : Nat) (b : Bytes) : Bool :=
  match t with
  | 0 =>
    let w0 := wordAt b 0
    let w3 := wordAt b 3
    fld w0 30 28 ≤ 4 && fld w3 31 30 ≤ 2 && fld (wordAt b 2) 31 30 ≤ 2 && fld (wordAt b 1) 29 16 ≤ 9216 &&
    portTarget (fld w0 22 16) && (!bitOf w3 8 || (fld w0 30 28 == 1 && 64 ≤ fld w0 22 16 && fld w0 22 16 ≤ 67))
  | 2 =>
    byteAt b 0 ≤ 23 && byteAt b 1 ≤ 1 && (byteAt b 1 == 0 || byteAt b 0 ≤ 3) && leAt b 2 4 < 2 ^ 29 && leAt b 6 2 == 0
  | 3 => portsOk b && leAt b 16 4 < 2 ^ 29
  | 5 => portsOk b
  | 6 => prefixOk 6 b && fld (wordAt b 4) 30 29 ≤ 2
  | 7 => prefixOk 7 b && fld (wordAt b 7) 30 29 ≤ 2
  | 9 => (List.range 64).all fun i => (b.getD i 0) &&& ~~~ (b.getD (64 + i) 0) == 0
  | _ => true

/-- What one record of a command did: RSTATUS, slot or index, MOVE_GEN, body, machine. -/
structure RecDone where
  st : Nat
  i : Nat
  mg : Nat
  body : Bytes
  s : State

/-- The entry of a direct table as its body; all zero where none is held. -/
def State.entryOf (s : State) (t i : Nat) (shadow : Bool) : Bytes :=
  if t = 8 then s.tbl.slot (i / 256) (i % 256)
  else if t = 10 then
    match kvGet? s.tbl.pol i with
    | some p => (p.refill s.now).shown
    | none => List.replicate 32 0
  else kvGet (s.tbl.table t shadow) i (List.replicate (bodyLen t) 0)

/-- A direct table's entry is there to be found or deleted (R201). -/
def State.held (s : State) (t i : Nat) (shadow : Bool) : Bool :=
  let e := s.entryOf t i shadow
  if t = 8 then trackState e != 0 else present t e

/-- SEARCH of one record (R201). -/
def State.recSearch (s : State) (c : TCmd) (rcd : Bytes) : RecDone :=
  let body := cleanBody c.table rcd
  if hashed c.table then
    let m := s.tbl.table c.table c.shadow
    match s.lookup c.table m (keyOf c.table body) with
    | some k => let e := kvGet m k []; ⟨0, k, moveGen c.table e, e, s⟩
    | none => ⟨1, 0, 0, body, s⟩
  else
    let i := recIndex rcd
    if !indexOk c.table i then ⟨4, i, 0, body, s⟩
    else if s.held c.table i c.shadow then ⟨0, i, 0, s.entryOf c.table i c.shadow, s⟩
    else ⟨1, i, 0, body, s⟩

/-- INSERT of one record into the tracker: NAME and PIN are set (R194). -/
def State.trackInsert (s : State) (i : Nat) (body : Bytes) : Nat × State :=
  let c := i / 256
  let name := leAt body 0 8
  let pin := byteAt body 10 % 2
  let other := (List.range 256).any fun t =>
    t != i % 256 && trackState (s.tbl.slot c t) != 0 && leAt (s.tbl.slot c t) 0 8 == name
  if other then (2, s)
  else
    let e := s.tbl.slot c (i % 256)
    let e' := if trackState e != 0 && leAt e 0 8 == name then putBytes e 10 [byte pin]
      else leBytes 8 name ++ [0xFE#8, 4#8, byte pin, 0#8] ++ List.replicate 4 0
    (0, s.setTbl { s.tbl with track := kvSet s.tbl.track i e' })

/-- A direct entry written, an all-zero one not held (R201). -/
def putEntryOf (m : Kv Bytes) (i : Nat) (b : Bytes) : Kv Bytes := if b.all (· == 0) then kvDel m i else kvSet m i b

/-- INSERT of one record (R177, R182-R201). [DEDUCED, assumption 150] -/
def State.recInsert (s : State) (c : TCmd) (rcd : Bytes) : RecDone :=
  let t := c.table
  let body := cleanBody t rcd
  let i := recIndex rcd
  if !insertOk t body || (!hashed t && !indexOk t i) then ⟨4, i, 0, body, s⟩
  else if hashed t then
    let e := putBytes body (flagOff t) (leBytes 4 (putBit (word (leAt body (flagOff t) 4)) 31 true).toNat)
    let (g, sh) := s.hctrl t (keyOf t e)
    let (st, k, s) := s.hashInsert t (if sh then 1 - g else g) c.shadow c.replace e
    let s := s.setTbl { s.tbl with seq := s.tbl.seq + 1 }
    let s := if t = 4 ∧ st = 0 then
        s.freePending fun q => macKey q.mac q.fid == keyOf 4 e else s
    ⟨st, k, moveGen t (kvGet (s.tbl.table t c.shadow) k (List.replicate 64 0)), e, s⟩
  else if t = 8 then
    let (st, s) := s.trackInsert i body
    ⟨st, i, 0, body, s⟩
  else if t = 10 then
    let p := Policer.write (kvGet? s.tbl.pol i) s.now body
    ⟨0, i, 0, body, s.setTbl { s.tbl with pol := kvSet s.tbl.pol i p }⟩
  else ⟨0, i, 0, body, s.setTable t c.shadow (putEntryOf (s.tbl.table t c.shadow) i body)⟩

/-- DELETE of one record (R201). -/
def State.recDelete (s : State) (c : TCmd) (rcd : Bytes) : RecDone :=
  let t := c.table
  let body := cleanBody t rcd
  let i := recIndex rcd
  if hashed t then
    let m := s.tbl.table t c.shadow
    match s.lookup t m (keyOf t body) with
    | some k => ⟨0, k, moveGen t (kvGet m k []), body, s.setTable t c.shadow (kvDel m k)⟩
    | none => ⟨1, 0, 0, body, s⟩
  else if !indexOk t i then ⟨4, i, 0, body, s⟩
  else if !s.held t i c.shadow then ⟨1, i, 0, body, s⟩
  else if t = 10 then ⟨0, i, 0, body, s.setTbl { s.tbl with pol := kvDel s.tbl.pol i }⟩
  else ⟨0, i, 0, body, s.setTable t c.shadow (kvDel (s.tbl.table t c.shadow) i)⟩

/-! ### Whole commands -/

/-- What a command did: status of R201, entries affected, CURSOR, records out, CRC of R202, machine. -/
structure CmdDone where
  st : Nat
  aff : Nat
  cursor : Nat
  out : List Bytes
  crc : Word
  s : State

/-- Final value of the CRC-32C of R93. -/
def auditCrc (b : Bytes) : Word := ~~~ (crc32c 0xFFFFFFFF b)

/-- A refused command. -/
def cmdRejected (s : State) : CmdDone := ⟨4, 0, 0, [], 0, s⟩

/-- Run a per-record command over its records, in order (R201). -/
def State.runRecords (s : State) (c : TCmd) (recs : List Bytes) : CmdDone :=
  let f := fun (acc : State × List Bytes × Nat × Nat) rcd =>
    let (s, out, ok, _) := acc
    let d := match c.op with
      | 1 => s.recSearch c rcd
      | 2 => s.recInsert c rcd
      | _ => s.recDelete c rcd
    (d.s, out ++ [mkRecord c.table d.i d.st d.mg d.body], if d.st = 0 then ok + 1 else ok, d.st)
  let (s, out, ok, last) := recs.foldl f (s, [], 0, 0)
  let st := if recs.length = 1 then last else if ok = recs.length then 0 else 6
  let key := match recs with
    | r :: _ => if hashed c.table then keyOf c.table (cleanBody c.table r) else slice r 0 4
    | [] => []
  let s := if c.shadow && (c.op == 2 || c.op == 3) && decide (0 < ok) then s.shadowWritten else s
  ⟨st, ok, 0, out, if recs.isEmpty then 0 else auditCrc key, s⟩

/-- Entries a walk gives, from a slot or index onward: each with its position (R180). -/
def State.walkFrom (s : State) (t : Nat) (shadow : Bool) (cursor n : Nat) : List (Nat × Bytes) :=
  if t = 5 ∨ t = 10 then
    ((List.range' cursor n).filter (· < tableSize t)).map fun i => (i, s.entryOf t i shadow)
  else if t = 8 then
    (((s.tbl.track.filter fun e => cursor ≤ e.1 && trackState e.2 != 0)).take n)
  else (((s.tbl.table t shadow).filter fun e => cursor ≤ e.1 && (hashed t || present t e.2)).take n)

/-- NEXT (R180, R181). [DEDUCED, assumption 53] -/
def State.cmdNext (s : State) (c : TCmd) : CmdDone :=
  let k := walkKey c.table c.shadow
  let w := if c.cursor = 0 then (⟨0, [], false⟩ : Walk) else kvGet s.tbl.walks k ⟨c.cursor, [], false⟩
  let setWalk (s : State) (w : Option Walk) : State :=
    s.setTbl { s.tbl with walks := match w with | some w => kvSet s.tbl.walks k w | none => kvDel s.tbl.walks k }
  if w.ovf then ⟨7, 0, 0xFFFFFFFF, [], 0, setWalk s none⟩
  else
    let m := s.tbl.table c.table c.shadow
    let carried := (w.carry.take c.count).map fun e =>
      mkRecord c.table ((s.lookup c.table m (keyOf c.table e)).getD 0) 0 (moveGen c.table e) e
    let l := s.walkFrom c.table c.shadow c.cursor (c.count - carried.length + 1)
    let now := l.take (c.count - carried.length)
    let rest := l.drop (c.count - carried.length)
    let out := carried ++ now.map fun e =>
      mkRecord c.table e.1 0 (if hashed c.table then moveGen c.table e.2 else 0) e.2
    let cur := match rest, now.getLast? with
      | r :: _, _ => r.1
      | [], some e => e.1 + 1
      | [], none => c.cursor
    let carry := w.carry.drop c.count
    if rest.isEmpty && carry.isEmpty then ⟨0, out.length, 0xFFFFFFFF, out, 0, setWalk s none⟩
    else ⟨0, out.length, cur, out, 0, setWalk s (some ⟨cur, carry, false⟩)⟩

/-- FLUSH_BY_PORT (R191). -/
def State.cmdFlush (s : State) (c : TCmd) (mask : Bytes) : CmdDone :=
  let inMask (p : Nat) : Bool := byteAt mask (p / 8) / 2 ^ (p % 8) % 2 == 1
  let gone (e : Nat × Bytes) : Bool :=
    let w := word (leAt e.2 8 4)
    !bitOf w 26 && inMask (fld w 6 0) && (c.incl || !bitOf w 30)
  let n := (s.tbl.mac.filter gone).length
  let s := s.setTbl { s.tbl with mac := s.tbl.mac.filter fun e => !gone e }
  ⟨0, n, 0, [], auditCrc (slice mask 0 16), s.freePending fun q => inMask q.last⟩

/-- AGE_SWEEP of the MAC table over buckets [b, b + n) (R191). -/
def State.sweepMac (s : State) (b n : Nat) : Nat × State :=
  let inside (k : Nat) : Bool := 4 * b ≤ k && k < 4 * (b + n)
  let old (e : Nat × Bytes) : Bool :=
    let w := word (leAt e.2 8 4)
    inside e.1 && !bitOf w 30 && !bitOf w 28
  let clear (e : Nat × Bytes) : Nat × Bytes :=
    let w := word (leAt e.2 8 4)
    if inside e.1 && !bitOf w 30 then (e.1, putBytes e.2 8 (leBytes 4 (putBit w 28 false).toNat)) else e
  ((s.tbl.mac.filter old).length, s.setTbl { s.tbl with mac := (s.tbl.mac.filter fun e => !old e).map clear })

/-- AGE_SWEEP (R191, R193, R194). [DEDUCED, assumption 51] -/
def State.cmdSweep (s : State) (c : TCmd) : CmdDone :=
  let x := s.tbl
  match c.table with
  | 4 =>
    let (n, s) := s.sweepMac c.cursor c.count
    ⟨0, n, if Machine.buckets 4 ≤ c.cursor + c.count then 0xFFFFFFFF else c.cursor + c.count, [], 0, s⟩
  | 6 => ⟨0, 0, 0, [], 0, s.setTbl { x with filter4 := x.v4.foldl (fun f e => filterAdd 6 f (keyOf 6 e.2)) [] }⟩
  | 7 => ⟨0, 0, 0, [], 0, s.setTbl { x with filter6 := x.v6.foldl (fun f e => filterAdd 7 f (keyOf 7 e.2)) [] }⟩
  | _ =>
    let gone (e : Nat × Bytes) : Bool := trackState e.2 != 0 && byteAt e.2 8 == 0xFE && byteAt e.2 10 % 2 == 0
    ⟨0, (x.track.filter gone).length, 0, [], 0, s.setTbl { x with track := x.track.filter fun e => !gone e }⟩

/-- Keys a REHASH_MOVE acts on: of one prefix length in an LPM table (R179, R199). -/
def rehashKey (c : TCmd) (key : Bytes) : Bool := !(c.table == 6 || c.table == 7) || prefixLen c.table key == c.len

/-- Move entries of the other generation into TO_GEN, slot by slot; stop at one that finds no place (R177-R179). -/
def State.moveEntries (s : State) (c : TCmd) : List Bytes → Nat → Nat × Bool × State
  | [], n => (n, false, s)
  | e :: l, n =>
    let t := c.table
    let m := s.tbl.table t c.shadow
    let key := keyOf t e
    match s.place t c.toGen m key with
    | none => (n, true, (s.satCtr 10 1 5).raise 10 0)
    | some (k, mv) =>
      let (m, s) := s.walkMoves t c.shadow mv m
      let (b0, b1) := s.buckets t (1 - c.toGen) key
      let src := ((inBucket t m key b0).orElse fun _ => inBucket t m key b1).getD k
      let (m, s) := s.walkMoves t c.shadow [(src, k)] (kvSet m src (withGen t c.toGen (kvGet m src e)))
      (s.setTable t c.shadow m).moveEntries c l (n + 1)

/-- REHASH_MOVE (R179). [DEDUCED, assumption 150] -/
def State.cmdRehash (s : State) (c : TCmd) : CmdDone :=
  let t := c.table
  let key0 : Bytes := if t = 7 then List.replicate 16 0 ++ [byte c.len, 0, 0, 0]
    else if t = 6 then List.replicate 4 0 ++ [byte c.len, 0, 0, 0] else List.replicate 8 0
  if (t = 6 ∧ 32 < c.len) ∨ (t = 7 ∧ 128 < c.len) ∨ !(s.hctrl t key0).2 then cmdRejected s
  else
    let m := s.tbl.table t c.shadow
    let todo := ((m.filter fun e => genOf t e.2 != c.toGen && rehashKey c (keyOf t e.2)).take c.count).map (·.2)
    let (n, stuck, s) := s.moveEntries c todo 0
    let s := if c.shadow && decide (0 < n) then s.shadowWritten else s
    ⟨if stuck then (if n = 0 then 3 else 6) else 0, n, 0, [], 0, s⟩

/-- Run a table command over its records or its mask (R199-R204). [DEDUCED, assumption 150] -/
def State.tableRun (s : State) (c : TCmd) (mailbox : Bool) (recs : List Bytes) (mask : Bytes) : CmdDone :=
  if !opPermitted c.table c.op || (c.shadow && !banked c.table) then cmdRejected s
  else if mailbox && decide (1 < c.count) && c.op ≤ 4 then cmdRejected s
  else if c.op = 5 then
    if mask.all (· == 0) then ⟨0, 0, 0, [], auditCrc (slice mask 0 16), s⟩ else s.cmdFlush c mask
  else if c.count = 0 then ⟨0, 0, 0, [], 0, s⟩
  else match c.op with
    | 4 => s.cmdNext c
    | 6 => s.cmdSweep c
    | 7 => s.cmdRehash c
    | _ => s.runRecords c recs

/-- A change by this master is a safety change (R97). -/
def safetyOrigin (o : Nat) : Bool := o ≤ 2 || o == 8 || o == 0xB

/-- Run a command for a master, or complete it with `LOCKED` at the mark; its audit entry is made as it completes
(R89, R93, R97, R202). -/
def State.tableCommand (s : State) (m : Master) (c : TCmd) (ring : Nat) (recs : List Bytes) (mask : Bytes) : CmdDone :=
  if !safetyOrigin m.origin && s.holding then ⟨5, 0, 0, [], 0, s⟩
  else
    let d := s.tableRun c (ring == 0xFFFF) recs mask
    { d with s := d.s.logTable m c.table c.op ring d.st d.aff d.crc }

/-- TBL_CMD_LAST names a completed command and TBL_CMD_OPEN none (R206). -/
def State.cmdClosed (s : State) (tag ring : Nat) : State :=
  (s.setReg R.TBL_CMD_LAST (word (tag * 65536 + ring))).setReg R.TBL_CMD_OPEN 0xFFFFFFFF#32

/-- The mailbox command that waits, from TBL_MCMD0-7. -/
def State.mailboxCmd (s : State) : TCmd := TCmd.of (ofWords ((List.range 8).map fun i => s.reg (R.TBL_MCMD i)))

/-- Bytes of TBL_MDATA0-35. -/
def State.mailboxData (s : State) : Bytes := ofWords ((List.range 36).map fun i => s.reg (R.TBL_MDATA i))

/-- Put a record into TBL_MDATA. -/
def State.setMailboxData (s : State) (rcd : Bytes) : State :=
  (List.range ((rcd.length + 3) / 4)).foldl (fun s i => s.setReg (R.TBL_MDATA i) (wordAt rcd i)) s

/-- The command taken is the one named; a command whose opcode no row names is refused by the first of them (R200).
[DEDUCED, assumption 50] -/
def opFits (cop op : Nat) : Bool := cop == op || (op == 1 && (cop == 0 || 7 < cop))

/-- Run the mailbox command, if one of this opcode was started (R199, R206). -/
def State.runMailbox (s : State) (op : Nat) : State :=
  match s.tbl.mgo with
  | none => s
  | some m =>
    let c := s.mailboxCmd
    if !opFits c.op op || !s.auditReady then s
    else
      let data := s.mailboxData
      let recs := if c.count = 0 then [] else [slice data 0 (recLen c.table)]
      let d := s.tableCommand m c 0xFFFF recs (slice data 0 16)
      let s := match d.out with | r :: _ => d.s.setMailboxData r | [] => d.s
      let s := s.setReg R.TBL_MSTAT (word (2 ^ 31 + min d.aff 0x7FFF * 65536 + d.st))
      let s := (s.setReg R.TBL_MCURSOR (word d.cursor)).cmdClosed c.tag 0xFFFF
      s.setTbl { s.tbl with mgo := none }

/-- The name under which a ring's command stands in the intake: its ring and index. -/
def tcProducer (ring i : Nat) : Nat := 0x1000000 + ring * 0x40000 + i

/-- The master that a ring owner is (R30, R361). -/
def ownerMaster (o : Nat) : Master :=
  if o < 8 then ⟨0x20 + o, .machine⟩ else if o = 0x20 then ⟨1, .machine⟩ else ⟨0x10, .machine⟩

/-- Run the command at the front of the intake, if it has this opcode and no mailbox command waits (R202, R373). -/
def State.runRing (s : State) (op : Nat) : State :=
  match s.tbl.mgo, (s.queue 3).items with
  | none, i :: _ =>
    let c := TCmd.of (ofWords i.words)
    if !i.done || !opFits c.op op || !s.auditReady || i.prod < 0x1000000 then s
    else
      let ring := (i.prod - 0x1000000) / 0x40000
      let idx := (i.prod - 0x1000000) % 0x40000
      let o := s.ringOwner 3 ring
      let len := recLen c.table
      let recs := (List.range c.count).map fun k => s.ownRead o (c.data + k * len) len
      let d := s.tableCommand (ownerMaster o) c ring (if c.op ≤ 3 then recs else []) (s.ownRead o c.data 16)
      let s := (List.range d.out.length).foldl (fun s k => s.ownWrite o (c.result + k * len) (d.out.getD k [])) d.s
      let s := s.cmdClosed c.tag ring
      let s := match s.take? 3 with | some (_, s') => s'.evalQueue 3 | none => s
      let h := cqHeader c.tag ring 3 (idx % max 1 (s.ringSize 3 ring)) d.st 0 1 0
      let b := leBytes 2 (min d.aff 65535) ++ [0, 0] ++ leBytes 4 d.cursor ++ List.replicate 40 0
      s.postCq (s.ringCq 3 ring) ⟨3, ring, some idx, 1, h ++ b, s.now, false⟩
  | _, _ => s

/-- A table command of one opcode runs. [DEDUCED, assumption 50] -/
def State.runTable (s : State) (op : Nat) (ring : Bool) : State :=
  if !alive s 4 then s else if ring then s.runRing op else s.runMailbox op

/-! ### Hash control blocks (R179, R205) -/

/-- Which table and key class a hash control block address belongs to: table, and prefix length. -/
def hcbTable (a : Nat) : Option (Nat × Nat) :=
  if R.HCB_MAC_SEED0 ≤ a ∧ a < R.HCB_MAC_SEED0 + 16 then some (4, 0)
  else if R.HCB_EXT_SEED0 ≤ a ∧ a < R.HCB_EXT_SEED0 + 16 then some (2, 0)
  else if R.HCB_V4_SEED0 0 ≤ a ∧ a < R.HCB_V4_SEED0 33 then some (6, (a - R.HCB_V4_SEED0 0) / 16)
  else if R.HCB_V6_SEED0 0 ≤ a ∧ a < R.HCB_V6_SEED0 129 then some (7, (a - R.HCB_V6_SEED0 0) / 16)
  else none

/-- Entries of a generation under a hash control block (R179, R200). -/
def State.hcnt (s : State) (t l g : Nat) : Nat :=
  let p (e : Nat × Bytes) : Bool := genOf t e.2 == g && (t == 2 || t == 4 || prefixLen t (keyOf t e.2) == l)
  if t = 2 then (s.tbl.act.ext.filter p).length + (s.tbl.shd.ext.filter p).length
  else ((s.tbl.table t false).filter p).length

/-- HCNT as it reads (R206). -/
def State.hcntWord (s : State) (t l : Nat) : Word := word (s.hcnt t l 1 % 65536 * 65536 + s.hcnt t l 0 % 65536)

/-- A write to a hash control block is allowed (R179, R206): a SEED while its generation is empty; SHADOW_EN cleared while
the shadow generation is empty, set while no other length of the family has it; COMMIT while SHADOW_EN stands and the old
generation is empty. -/
def State.hcbOk (s : State) (a : Nat) (v : Word) : Bool :=
  match hcbTable a with
  | none => true
  | some (t, l) =>
    let base := a - a % 16
    let h := s.reg (base + 8)
    let g := fld h 0 0
    match a % 16 / 4 with
    | 0 => s.hcnt t l 0 == 0
    | 1 => s.hcnt t l 1 == 0
    | 2 =>
      let other := match t with
        | 6 => (List.range 33).any fun k => k != l && s.regBit (R.HCB_V4_HCTRL k) 1
        | 7 => (List.range 129).any fun k => k != l && s.regBit (R.HCB_V6_HCTRL k) 1
        | _ => false
      if bitOf v 2 then bitOf h 1 && s.hcnt t l g == 0
      else if bitOf v 1 then bitOf h 1 || !other
      else !bitOf h 1 || s.hcnt t l (1 - g) == 0
    | _ => true

/-- HCTRL after an accepted write (R179, R206). -/
def hctrlNew (old v : Word) : Word :=
  if bitOf v 2 then word (1 - fld old 0 0) else putBit old 1 (bitOf v 1)

/-! ### Commands -/

/-- TBL_SEARCH (R201). -/
def execTblSearch (ring : Bool) (s : State) : Host.Outcome State Fault Refusal := .next (s.runTable 1 ring)

/-- TBL_INSERT (R177). -/
def execTblInsert (ring : Bool) (s : State) : Host.Outcome State Fault Refusal := .next (s.runTable 2 ring)

/-- TBL_DELETE (R201). -/
def execTblDelete (ring : Bool) (s : State) : Host.Outcome State Fault Refusal := .next (s.runTable 3 ring)

/-- TBL_NEXT (R180). -/
def execTblNext (ring : Bool) (s : State) : Host.Outcome State Fault Refusal := .next (s.runTable 4 ring)

/-- TBL_FLUSH_BY_PORT (R191). -/
def execTblFlushByPort (ring : Bool) (s : State) : Host.Outcome State Fault Refusal := .next (s.runTable 5 ring)

/-- TBL_AGE_SWEEP (R191). -/
def execTblAgeSweep (ring : Bool) (s : State) : Host.Outcome State Fault Refusal := .next (s.runTable 6 ring)

/-- TBL_REHASH_MOVE (R179). -/
def execTblRehashMove (ring : Bool) (s : State) : Host.Outcome State Fault Refusal := .next (s.runTable 7 ring)

/-- The table ager's sweep of every bucket, with origin 0x0B and ring number 0xFFFE (R191, R202).
[DEDUCED, assumption 51] -/
def State.agerSweep (s : State) : State :=
  let (n, s) := s.sweepMac 0 (Machine.buckets 4)
  (s.logTable ⟨0xB, .machine⟩ 4 6 0xFFFE 0 n 0).setReg R.TBL_CMD_LAST 0xFFFE

/-- TABLE_AGER_TICK (R191): a period of TBL_AGER seconds ends. [DEDUCED, assumption 51] -/
def execTableAgerTick (s : State) : Host.Outcome State Fault Refusal :=
  .next (if alive s 4 && s.regFld R.TBL_AGER 15 0 != 0 && s.auditReady then s.agerSweep else s)

/-- PEND_LEARN_EXPIRE (R188): pending entries whose lifetime has ended are freed and counted. -/
def execPendLearnExpire (s : State) : Host.Outcome State Fault Refusal :=
  .next (if alive s 4 then
    let n := (s.tbl.pend.filter fun q => q.expiry ≤ s.now).length
    (List.range n).foldl (fun s _ => s.satCtr 10 1 4) (s.freePending fun q => q.expiry ≤ s.now)
  else s)

end Sys2Proof.Machine
end

