-- ==== Sys2Proof/Machine/Images.lean ====
section
/-! DEFINITION. The selection record, and the images that the keeper loads: the route image, its arming and the route epoch,
the guard manifest (08_signal_plane.md R270-R278, 10_placement_engine.md R337, 13_guards_and_faults.md R428-R433,
18_update_and_lifecycle.md R586). -/

namespace Sys2Proof.Machine

/-! ### The selection record (R586) -/

/-- Address of a position of the selection record. -/
def selAt (k : Nat) : Nat := 0x41240000 + 0x40 * k

/-- A position's bytes hold a record: MAGIC and CHECK are valid, and SEQ is neither 0 nor 0xFFFFFFFF.
[DEDUCED, assumption 140] -/
def selValid (r : Bytes) : Bool :=
  r.take 4 == ascii "PGSR" && leAt r 56 4 == (crc32c 0xFFFFFFFF#32 (r.take 56)).toNat &&
    leAt r 60 4 != 0 && leAt r 60 4 != 0xFFFFFFFF

/-- The winner: its position and bytes. -/
def State.selWinner (s : State) : Option (Nat × Bytes) :=
  let a := s.read (selAt 0) 64
  let b := s.read (selAt 1) 64
  match selValid a, selValid b with
  | true, true => if leAt a 60 4 < leAt b 60 4 then some (1, b) else some (0, a)
  | true, false => some (0, a)
  | false, true => some (1, b)
  | false, false => none

/-- A record where no position holds one: no fallback, both slots `EMPTY`, no route trial.
[DEDUCED, assumption 119] -/
def selBlank : Bytes :=
  ascii "PGSR" ++ [0, 0xFF#8] ++ List.replicate 7 0 ++ [0xFF#8] ++ List.replicate 50 0

/-- The record in force. [DEDUCED, assumption 119] -/
def State.sel (s : State) : Bytes := match s.selWinner with | some x => x.2 | none => selBlank

/-- A record with one byte changed. -/
def selPut (r : Bytes) (o v : Nat) : Bytes := putBytes r o [byte v]

/-- Write a record to the position that does not hold the winner, SEQ one above the winner's. -/
def State.writeSel (s : State) (r : Bytes) : State :=
  let (k, seq) := match s.selWinner with
    | some (p, w) => (1 - p, leAt w 60 4 + 1)
    | none => (0, 1)
  let body := r.take 56
  s.write (selAt k) (body ++ leBytes 4 (crc32c 0xFFFFFFFF#32 body).toNat ++ leBytes 4 seq)

/-- STATE of a firmware slot in a record. -/
def selState (r : Bytes) (slot : Nat) : Nat := byteAt r (6 + slot)

/-- A bit of FLAGS. -/
def selFlag (r : Bytes) (b : Nat) : Bool := byteAt r 14 / 2 ^ b % 2 == 1

/-- FLAGS with one bit. -/
def selSetFlag (r : Bytes) (b : Nat) (v : Bool) : Bytes :=
  selPut r 14 (byteAt r 14 - (if selFlag r b then 2 ^ b else 0) + (if v then 2 ^ b else 0))

/-! ### Images with a header of 64 bytes and sections of 16 (R270, R428) -/

/-- A section: TYPE, FLAGS, OFFSET, LENGTH, COUNT. -/
structure ImgSection where
  type_ : Nat
  flags : Nat
  off : Nat
  len : Nat
  count : Nat
  deriving DecidableEq, Repr

/-- The section table. -/
def imgSections (bs : Bytes) : List ImgSection :=
  (List.range (min 32 (leAt bs 24 2))).map fun i =>
    let o := 64 + 16 * i
    ⟨leAt bs o 2, leAt bs (o + 2) 2, leAt bs (o + 4) 4, leAt bs (o + 8) 4, leAt bs (o + 12) 4⟩

/-- TOTAL_LEN. -/
def imgTotal (bs : Bytes) : Nat := leAt bs 20 4

/-- The bytes of a section. -/
def ImgSection.bytes (x : ImgSection) (bs : Bytes) : Bytes := slice bs x.off x.len

/-- An image as its TOTAL_LEN gives it, at most `max` bytes. [DESIGN CHOICE, assumption 128] -/
def State.readImage (s : State) (a max : Nat) : Bytes := s.read a (min max (imgTotal (s.read a 64)))

/-- Header and section table are in order: the section types are known, or optional. [DEDUCED, assumption 140] -/
def imgForm (bs magic : Bytes) (majors known : List Nat) (max : Nat) : Bool :=
  let n := leAt bs 24 2
  bs.take 4 == magic && majors.contains (leAt bs 4 2) && leAt bs 8 2 == 0x0960 && 1 ≤ n && n ≤ 32 &&
    64 + 16 * n + 96 ≤ imgTotal bs && imgTotal bs ≤ max &&
    (imgSections bs).all fun x =>
      x.off % 16 == 0 && x.off + x.len ≤ imgTotal bs - 96 && (known.contains x.type_ || x.flags % 2 == 1)

/-- SHA-384 over every byte before the signature (R272). -/
def imgDigest (bs : Bytes) : Bytes := sha384 (bs.take (imgTotal bs - 96))

/-- The signature verifies against its signer's key: `rom` of Henyaty, or the OEM key (R272, R428).
[DESIGN CHOICE, assumption 102] -/
def State.imgSigned (s : State) (rom : Nat) (bs : Bytes) : Bool :=
  let sig := beVal (slice bs (imgTotal bs - 96) 96)
  match byteAt bs 26 with
  | 0 => Config.ecdsaVerify (Config.romKey rom) (beVal (imgDigest bs)) sig
  | 1 => s.key.oemFused && beVal (sha384 (beBytes 97 Config.oemKey)) == beVal s.oemHash &&
      Config.ecdsaVerify Config.oemKey (beVal (imgDigest bs)) sig
  | _ => false

/-- The keeper writes a register, which is recorded where the register is logged (R89). [DEDUCED, assumption 129] -/
def State.keeperPut (s : State) (a : Nat) (v : Word) : State :=
  let old := s.reg a
  let s := s.setReg a v
  match regAt a with
  | some l => if l.row.log then s.logWrite keeper a old v else s
  | none => s

/-! ### Arming (R274, R275, R337) -/

/-- The first failed check of the shadow banks. -/
def State.armError (s : State) : Option (Nat × Nat × Nat) :=
  match s.sig.shd.armCheck with
  | some x => some x
  | none => s.ple.shd.armCheck

/-- SIG_ARM_ERR names a failed check. -/
def State.armFailed (s : State) (x : Nat × Nat × Nat) : State :=
  s.setReg R.SIG_ARM_ERR (word (x.1 * 2 ^ 28 + x.2.2 * 2 ^ 24 + x.2.1))

/-- SIG_RI_ARM.OK is written 1 by the keeper. -/
def State.arm (s : State) : State :=
  match s.armError with
  | some x => (s.armFailed x).refuse keeper R.SIG_RI_ARM (s.reg R.SIG_RI_ARM) 1
  | none => s.keeperPut R.SIG_RI_ARM 1

/-! ### Loading a route image (R270-R273) -/

/-- Table of a section type 0x0001-0x0006 (R271). -/
def sectionTable (ty : Nat) : Nat := [0, 0, 1, 2, 3, 5, 9].getD ty 0

/-- The records of a table section. -/
def tableRecords (bs : Bytes) (x : ImgSection) : List Bytes :=
  let n := recLen (sectionTable x.type_)
  (List.range x.count).map fun i => slice bs (x.off + i * n) n

/-- Every structure fits (R271, R273, R337). -/
def routeFits (bs : Bytes) : Bool :=
  (imgSections bs).all fun x =>
    if 1 ≤ x.type_ ∧ x.type_ ≤ 6 then x.count ≤ 65535 && x.count * recLen (sectionTable x.type_) ≤ x.len
    else if 0x10 ≤ x.type_ ∧ x.type_ ≤ 0x15 then decide (x.len ≤ sigSize (x.type_ - 0x10))
    else if x.type_ = 0x20 then
      let a := leAt bs x.off 4
      let t := leAt bs (x.off + 4) 4
      let n := leAt bs (x.off + 8) 4
      decide (a ≤ 2048) && decide (t ≤ 1024) && decide (n ≤ 131072) && decide (16 + a * 32 + t * 16 + n ≤ x.len)
    else true

/-- Section types of a route image (R271). -/
def routeTypes : List Nat := [1, 2, 3, 4, 5, 6, 0x10, 0x11, 0x12, 0x13, 0x14, 0x15, 0x20, 0x30]

/-- FMT_MAJORs that the behaviour level takes (R607). [DEDUCED, assumption 131] -/
def State.routeMajors (s : State) : List Nat := if s.regFld R.UPD_BLEVEL 1 0 = 1 then [1] else [1, 2]

/-- The SIG shadow bank that an image fills: each structure dense from index 0, the rest zero. -/
def routeSig (bs : Bytes) : SigBank :=
  (imgSections bs).foldl (fun b x =>
    if 0x10 ≤ x.type_ ∧ x.type_ ≤ 0x15 then b.setPart (x.type_ - 0x10) (memWrite [] 0 (x.bytes bs)) else b) SigBank.empty

/-- The PLE shadow bank that an image fills (R337). -/
def routePle (bs : Bytes) : PleBank :=
  match (imgSections bs).find? fun x => x.type_ == 0x20 with
  | none => ⟨[], [], []⟩
  | some x =>
    let a := leAt bs x.off 4 * 32
    let t := leAt bs (x.off + 4) 4 * 16
    let o := x.off + 16
    ⟨memWrite [] 0 (slice bs o a), memWrite [] 0 (slice bs (o + a) t),
      memWrite [] 0 (slice bs (o + a + t) (leAt bs (x.off + 8) 4))⟩

/-- One of the keeper's table commands on its ring, over the shadow bank of a table (R273).
[DEDUCED, assumption 131] -/
def State.keeperTable (s : State) (op t ring : Nat) (recs : List Bytes) : State :=
  (s.tableCommand keeper ⟨op, t, true, true, 0, false, recs.length, 0, 0, 0, 0, 0⟩ ring recs []).s

/-- The shadow bank of a table is made to hold exactly the records of an image. [DEDUCED, assumption 131] -/
def State.loadTable (s : State) (bs : Bytes) (ring ty : Nat) : State :=
  let t := sectionTable ty
  let xs := (imgSections bs).filter fun x => x.type_ == ty
  let s := xs.foldl (fun s x => if x.count = 0 then s else s.keeperTable 2 t ring (tableRecords bs x)) s
  let recs := xs.flatMap (tableRecords bs)
  let kept (e : Nat × Bytes) : Bool := recs.any fun r =>
    if hashed t then keyOf t (cleanBody t r) == keyOf t e.2 else recIndex r == e.1
  let gone := (s.tbl.table t true).filter fun e => !kept e
  if gone.isEmpty then s else s.keeperTable 3 t ring (gone.map fun e => mkRecord t e.1 0 0 e.2)

/-- ROUTE_IMAGE_LOAD: the keeper loads the image at an address, with its table commands on a ring of its own (R273).
[DESIGN CHOICE, assumption 128] -/
def execRouteImageLoad (src ring : Nat) (s : State) : Host.Outcome State Fault Refusal :=
  .next <|
    let bs := s.readImage src 0x1000000
    if !alive s 1 || !alive s 4 || !alive s 15 || s.sig.load.isSome || s.ple.load.isSome || s.drainCount != 0 ||
        s.pleDrain != 0 || !imgForm bs (ascii "PGRT") s.routeMajors routeTypes 0x1000000 || !routeFits bs then s
    else
      let s := s.shadowWritten
      let s := s.setSig { s.sig with shd := routeSig bs }
      let s := s.setPle { s.ple with shd := routePle bs }
      let s := [1, 2, 3, 4, 5, 6].foldl (fun s ty => s.loadTable bs ring ty) s
      if !s.imgSigned 2 bs || leAt bs 16 4 < leAt s.sel 20 4 then s
      else
        let d := imgDigest bs
        let s := s.keeperPut R.SIG_RI_SHD_VER (word (leAt bs 12 4))
        let s := s.keeperPut R.SIG_RI_SHD_DIG (wordAt d 0)
        (s.setSig { s.sig with shdDigest := d }).arm

/-! ### The route epoch (R276-R278) -/

/-- The switch takes effect: every shadow bank of SIG, TBL and PLE becomes active as one step. -/
def State.routeEpoch (s : State) (m : Master) : State :=
  let s := s.initChanged
  let s := s.setSig { s.sig with
    act := s.sig.shd, shd := s.sig.act, bank := 1 - s.sig.bank, switch := none, lastMs := []
    epochMs := some s.nowMs, actDigest := s.sig.shdDigest }
  let s := s.setTbl { s.tbl with act := s.tbl.shd, shd := s.tbl.act }
  let s := s.setPle { s.ple with act := s.ple.shd, shd := s.ple.act, bank := 1 - s.ple.bank }
  let s := s.setReg R.SIG_EPOCH_STAT (word ((s.regFld R.SIG_EPOCH_STAT 15 0 + 1) % 65536))
  let s := (s.setReg R.SIG_RI_ACT_VER (s.reg R.SIG_RI_SHD_VER)).setReg R.SIG_RI_ACT_DIG (s.reg R.SIG_RI_SHD_DIG)
  let s := (s.setReg R.SIG_RI_ARM 0).setReg R.SIG_EPOCH_CTRL 0
  let r := s.sel
  let slot := if byteAt r 13 = 0xFF then byteAt r 12 else byteAt r 13
  (s.raise 22 2).logUpdate m 0xB (word (2 + 256 * slot)) (s.reg R.SIG_RI_ACT_VER)

/-- ROUTE_EPOCH (R276). [DEDUCED, assumption 66] -/
def execRouteEpoch (s : State) : Host.Outcome State Fault Refusal :=
  .next <|
    match s.sig.switch with
    | some r => if s.switchDue && alive s 15 then s.routeEpoch r.m else s
    | none => s

/-! ### The guard manifest (R428-R430) -/

/-- Section types of a manifest (R429). -/
def manifestTypes : List Nat := [0x101, 0x102, 0x103, 0x104, 0x105, 0x106, 0x30]

/-- Header, MEMBER, SERIAL, GSVN and signature of a manifest are in order. -/
def State.manifestOk (s : State) (bs : Bytes) : Bool :=
  imgForm bs (ascii "PGGM") [1] manifestTypes 0x100000 &&
    (leAt bs 28 4 % 2 == 0 || slice bs 32 8 == s.serial) && leAt s.sel 24 4 ≤ leAt bs 16 4 && s.imgSigned 3 bs

/-- The port records of a manifest. -/
def portRecords (bs : Bytes) : List Bytes :=
  (((imgSections bs).filter fun x => x.type_ == 0x101)).flatMap fun x =>
    (List.range (x.len / 32)).map fun i => slice bs (x.off + 32 * i) 32

/-- The first port that a record names and that has no guard, or that a record named before (R431 reason 1). -/
def badPortRecord : List Bytes → List Nat → Option Nat
  | [], _ => none
  | r :: rs, seen =>
    let p := byteAt r 0
    if !guardedPorts.contains p || seen.contains p then some p else badPortRecord rs (p :: seen)

/-- The guard registers that a port record sets: offset in the record, and register. [DEDUCED, assumption 129] -/
def portRegs (p : Nat) : List (Nat × Nat) :=
  [(4, R.GRD_PCFG p), (8, R.GRD_FRATE p), (12, R.GRD_BRATE p), (16, R.GRD_BBURST p), (20, R.GRD_ACT p), (24, R.GRD_SA p)]

/-- Load the sections of a manifest: guard structures dense from index 0, port registers and ALV_CFG.
[DEDUCED, assumption 129] -/
def State.manifestLoad (s : State) (bs : Bytes) : State :=
  let s := s.setGrd ((imgSections bs).foldl (fun (g : Grd) x =>
    if 0x102 ≤ x.type_ ∧ x.type_ ≤ 0x105 then
      let k := x.type_ - 0x102
      g.setPart k (putRecs [] 0 (grdRec k).1 (x.bytes bs))
    else g) { s.grd with idMap := [], pairs := [], rules := [], safe := [] })
  let s := guardedPorts.foldl (fun s p => (portRegs p).foldl (fun s x => s.setReg x.2 (resetVal x.2)) s) s
  let s := (portRecords bs).foldl (fun s r =>
    if guardedPorts.contains (byteAt r 0) then
      (portRegs (byteAt r 0)).foldl (fun s x => s.keeperPut x.2 (word (leAt r x.1 4))) s
    else s) s
  match (imgSections bs).find? fun x => x.type_ == 0x106 with
  | some x => s.keeperPut R.ALV_CFG (word (leAt bs x.off 4))
  | none => s

/-- GUARD_MANIFEST_APPLY: the keeper verifies the copy at an address, loads it and writes APPLY, or writes FAIL (R430).
[DESIGN CHOICE, assumption 128] -/
def execGuardManifestApply (src : Nat) (s : State) : Host.Outcome State Fault Refusal :=
  .next <|
    let bs := s.readImage src 0x100000
    if !alive s 1 || s.grd.load.isSome then s
    else if s.regBit (winBase 6 + 0x20) 0 then s.refuse keeper R.GRD_APPLY 0 1
    else if !s.manifestOk bs then (s.logWrite keeper R.GRD_APPLY 0 2).manifestFailed
    else
      let d := imgDigest bs
      let s := s.manifestLoad bs
      let s := s.keeperPut R.GRD_MAN_VER (word (leAt bs 12 4))
      let s := s.keeperPut R.GRD_MAN_DIG (wordAt d 0)
      let s := s.setGrd { s.grd with digest := d }
      let bad := badPortRecord (portRecords bs) []
      let s := match s.applyError bad with
        | some _ => s
        | none => s.logWrite keeper R.GRD_APPLY 0 1
      (s.apply keeper bad).settle

end Sys2Proof.Machine
end

