-- ==== Sys2Proof/Machine/Queues.lean ====
section
/-! DEFINITION. Queue primitives: a producer's words, held producers, timeouts, spill stages, flush, pops (R106-R127). -/

namespace Sys2Proof.Machine

/-- An item's words are all written when they fill the queue's entry (R109). -/
def itemFull (q n : Nat) : Bool := queueEntry q ≤ 4 * n

/-- A later word of the producer's unfinished item; a completed item from before a flush mark is discarded (R109, R121). -/
def Queue.word (v : Queue) (q prod now : Nat) (w : Word) : Option Queue :=
  match v.items.findIdx? fun i => !i.done && i.prod == prod with
  | none => none
  | some k =>
    match v.items[k]? with
    | none => none
    | some i =>
      let ws := i.words ++ [w]
      if itemFull q ws.length then
        if i.marked then some (v.drop k)
        else some { v with items := v.items.set k { i with words := ws, done := true, last := now } }
      else some { v with items := v.items.set k { i with words := ws, last := now } }

/-- A slot is reserved by an item's first word (R109). -/
def State.reserve (s : State) (q prod : Nat) (w : Word) : State :=
  let v := (s.queue q).roomTail (s.spillSlot q).isSome
  let t := if v.items.isEmpty then s.now else v.timer
  let i : QItem := ⟨[w], itemFull q 1, false, prod, s.now⟩
  (s.setQueue q { v with items := v.items ++ [i], timer := t }).noteDepth q

/-- A producer writes a word (R106, R109): a later word of its item, a word of an item that is ignored, or a first word,
which finds a slot, is ignored on a flag-class queue, or is held on a hold-class one. [DEDUCED, assumption 137] -/
def State.queueWord (s : State) (q prod : Nat) (w : Word) : State :=
  let v := s.queue q
  match kvGet? v.skip prod with
  | some n => s.setQueue q { v with skip := if n ≤ 1 then kvDel v.skip prod else kvSet v.skip prod (n - 1) }
  | none =>
    match v.word q prod s.now w with
    | some v' => (s.setQueue q v').evalQueue q
    | none =>
      if v.held.any (·.1 == prod) then s
      else if !s.queueFull q then (s.reserve q prod w).evalQueue q
      else if queueHold q then s.setQueue q { v with held := v.held ++ [(prod, w)] }
      else
        let left := queueEntry q / 4 - 1
        let s := if left = 0 then s else s.setQueue q { v with skip := kvSet v.skip prod left }
        ((s.setQStat q 3).incReg (R.QP_OVR_CNT q)).evalQueue q

/-- The first held producer's word lands once there is space (R106). -/
def State.resumeHeld (s : State) (q : Nat) : State :=
  let v := s.queue q
  match v.held with
  | (prod, w) :: rest =>
    if s.queueFull q then s else ((s.setQueue q { v with held := rest }).reserve q prod w).evalQueue q
  | [] => s

/-- An unfinished item has been silent for ITEM_TO (R110). [DEDUCED, assumption 137] -/
def State.itemLate (s : State) (q : Nat) (i : QItem) : Bool :=
  !i.done && s.regFld (R.QP_CFG q) 23 16 * 1000 ≤ s.now - i.last

/-- Close every silent unfinished item: discarded and counted as TRUNCATED (R110). [DEDUCED, assumption 137] -/
def State.closeLate (s : State) (q : Nat) : State :=
  let v := s.queue q
  let cut := v.items.filter (s.itemLate q)
  if cut.isEmpty then s
  else
    let v' := (List.range v.items.length).foldr (fun k w =>
      match w.items[k]? with
      | some i => if s.itemLate q i then w.drop k else w
      | none => w) v
    let s := (s.setQueue q v').setQStat q 5
    cut.foldl (fun s _ => s.incReg (R.QP_TRUNC_CNT q)) s

/-- A spill queue moves entries between its stages; an uncorrectable middle entry is discarded instead (R108, R117).
[DEDUCED, assumption 138] -/
def State.stageMove (s : State) (q : Nat) (bad : Bool) : State :=
  match s.spillSlot q with
  | none => s
  | some _ =>
    let v := s.queue q
    if bad then
      if v.mid = 0 then s
      else ((((s.setQueue q (v.drop v.head)).setQStat q 7).incReg R.QMG_SPILL_ECC_CNT).fault 9 1 [])
    else s.setQueue q v.settle

/-- A queue non-empty, unpopped and not flushing for STRAND x 10 us is stranded, once until the next pop (R119). -/
def State.strand (s : State) (q : Nat) : State :=
  let v := s.queue q
  let t := s.regFld (R.QP_CFG q) 15 0
  if t = 0 || v.items.isEmpty || v.flushing || v.stranded || s.now - v.timer < t * 10000 then s
  else ((s.setQueue q { v with stranded := true }).setQStat q 4).evalQueue q

/-- A flush mark: wholly written items go at once, unfinished ones when they end (R121). [DEDUCED, assumption 148] -/
def State.flush (s : State) (q : Nat) : State :=
  let v := s.queue q
  let v' := (List.range v.items.length).foldr (fun k w =>
    match w.items[k]? with
    | some i => if i.done then w.drop k else { w with items := w.items.set k { i with marked := true } }
    | none => w) v
  (s.setQueue q v').evalQueue q

/-- What a pop of the audit export queue does to the record: under WRAP it exports, under HOLD it is noted (R96, R100). -/
def State.exportPop (s : State) (ws : List Word) : State :=
  let seq := word (leAt (ofWords ws) 22 4)
  let s := { s with aud := { s.aud with popped := seq + 1 } }
  if s.regBit R.AUD_CTRL 0 then s.setReg R.AUD_EXP_SEQ (seq + 1) else s

/-- Deliver a popped item to the staging area with result OK (R126). -/
def State.deliver (s : State) (q : Nat) (ws : List Word) : State :=
  let s := (List.range ws.length).foldl (fun s k => s.setReg (R.QP_DATA q k) (ws.getD k 0)) s
  let s := s.setReg (R.QP_POPSTAT q) 0
  let s := if q = 1 then s.exportPop ws else s
  s.evalQueue q

/-- A register pop (R126): an item, EMPTY on a flag-class queue, or pending on a hold-class one. -/
def State.popQueue (s : State) (q : Nat) : State :=
  match s.take? q with
  | some (ws, s') => s'.deliver q ws
  | none =>
    if queueHold q then
      (s.setQueue q { s.queue q with popPend := true }).setReg (R.QP_POPSTAT q) 2
    else s.setReg (R.QP_POPSTAT q) 1

/-- A pending pop ends with EMPTY (R126). -/
def State.cancelPop (s : State) (q : Nat) : State :=
  let v := s.queue q
  if v.popPend then (s.setQueue q { v with popPend := false }).setReg (R.QP_POPSTAT q) 1 else s

/-- A pending pop completes with the first item (R122, R126). -/
def State.servePop (s : State) (q : Nat) : State :=
  if (s.queue q).popPend then
    match s.take? q with
    | some (ws, s') => (s'.setQueue q { s'.queue q with popPend := false }).deliver q ws
    | none => s
  else s

/-! ### Register checks -/

/-- Regions [base, base + size) of two slots meet. -/
def spansMeet (b1 n1 b2 n2 : Nat) : Bool := b1 < b2 + n2 && b2 < b1 + n1 && 0 < n1 && 0 < n2

/-- A write of a slot's BIND is allowed (R113, R116). -/
def State.bindOk (s : State) (k : Nat) (v : Word) : Bool :=
  let q := fld v 6 0
  let cur := s.reg (R.QMG_SPILL_BIND k)
  let reg := s.reg (R.QMG_SPILL_REGION k)
  let others := (List.range 8).filter (· != k)
  if k < 3 then (s.queue k).items.isEmpty
  else
    (!bitOf cur 31 || (s.queue (fld cur 6 0)).items.isEmpty) &&
    (!bitOf v 31 ||
      (spillCapable q && (s.queue q).items.isEmpty &&
       others.all fun j => !(s.regBit (R.QMG_SPILL_BIND j) 31 &&
        (s.regFld (R.QMG_SPILL_BIND j) 6 0 == q ||
         spansMeet (fld reg 8 0) (fld reg 24 16) (s.regFld (R.QMG_SPILL_REGION j) 8 0)
          (s.regFld (R.QMG_SPILL_REGION j) 24 16)))))

/-- A write of a slot's REGION is allowed (R113). -/
def State.regionOk (s : State) (k : Nat) (v : Word) : Bool :=
  let b := s.reg (R.QMG_SPILL_BIND k)
  let others := (List.range 8).filter (· != k)
  fld v 8 0 + fld v 24 16 ≤ 256 && fld v 8 0 ≤ 255 &&
  !(3 ≤ k && bitOf b 31) &&
  (!bitOf b 31 || (s.queue (fld b 6 0)).items.isEmpty) &&
  others.all fun j => !(s.regBit (R.QMG_SPILL_BIND j) 31 &&
    spansMeet (fld v 8 0) (fld v 24 16) (s.regFld (R.QMG_SPILL_REGION j) 8 0) (s.regFld (R.QMG_SPILL_REGION j) 24 16))

/-- QPi_INFO as it reads (R129). -/
def State.queueInfo (s : State) (q : Nat) : Word :=
  let spill := (s.spillSlot q).isSome
  let w := putBit (putBit (putBit 0 31 spill) 30 (queueHold q)) 29 (spillCapable q || q < 3)
  putFld (putFld (putFld w 23 16 (queueEntry q)) 15 8 (queueOwner q)) 4 0 (if spill then 0 else queueK q)

/-- The contents of a queue act: its domain is powered and out of reset. -/
def State.queueAlive (s : State) (q : Nat) : Bool := queueOk q && alive s (queueDomain q)

/-! ### Commands -/

/-- QUEUE_WORD_WRITE (R109). -/
def execQueueWordWrite (q prod v : Nat) (s : State) : Host.Outcome State Fault Refusal :=
  .next (if s.queueAlive q then s.queueWord q prod (Machine.word v) else s)

/-- QUEUE_HOLD_RESUME (R106). -/
def execQueueHoldResume (q : Nat) (s : State) : Host.Outcome State Fault Refusal :=
  .next (if s.queueAlive q then s.resumeHeld q else s)

/-- QUEUE_ITEM_TIMEOUT (R110). -/
def execQueueItemTimeout (q : Nat) (s : State) : Host.Outcome State Fault Refusal :=
  .next (if s.queueAlive q then s.closeLate q else s)

/-- SPILL_STAGE_MOVE (R108). -/
def execSpillStageMove (q : Nat) (bad : Bool) (s : State) : Host.Outcome State Fault Refusal :=
  .next (if s.queueAlive q && alive s 3 then s.stageMove q bad else s)

/-- QUEUE_STRANDED (R119). -/
def execQueueStranded (q : Nat) (s : State) : Host.Outcome State Fault Refusal :=
  .next (if s.queueAlive q then s.strand q else s)

/-- QUEUE_POP_SERVED (R126). -/
def execQueuePopServed (q : Nat) (s : State) : Host.Outcome State Fault Refusal :=
  .next (if s.queueAlive q then s.servePop q else s)

end Sys2Proof.Machine
end

