-- ==== Sys2Proof/Machine/AuditCmds.lean ====
section
/-! DEFINITION. The audit log's own commands: draining to MRAM, export, the GAP record (03_registers_and_audit.md R90,
R95-R98, R103). -/

namespace Sys2Proof.Machine

/-- First address of the audit ring (R95). [DEDUCED, assumption 18] -/
def auditRing : Nat := 0x40200000

/-- Sequence number of an entry. -/
def entrySeq (e : Bytes) : Nat := leAt e 22 4

/-- MRAM address of the entry with a sequence number. -/
def auditAt (seq : Nat) : Nat := auditRing + seq % ringEntries * 32

/-- The oldest pending entry is written to the ring. -/
def State.drainOne (s : State) : State :=
  match s.aud.pend with
  | [] => s
  | e :: rest => ({ s with aud := { s.aud with pend := rest } }).write (auditAt (entrySeq e)) e

/-- The pending buffer is written out (R546, R550). -/
def State.drainAll (s : State) : State := s.aud.pend.foldl (fun s _ => s.drainOne) s

/-- AUDIT_DRAIN: the oldest pending entry goes to MRAM; `ok` is false where its write check fails after three attempts,
and logging then stops until chip reset (R90, R103). -/
def execAuditDrain (ok : Bool) (s : State) : Host.Outcome State Fault Refusal :=
  .next <|
    if s.aud.pend.isEmpty || s.aud.writeFail || !alive s 2 then s
    else if ok then s.drainOne
    else ({ s with aud := { s.aud with writeFail := true } }).fault 3 2 []

/-- Entries have left the export queue without being popped: pushing resumes from AUD_EXP_SEQ (R96). -/
def State.exportLost (s : State) : Bool := (s.queue 1).items.isEmpty && s.aud.popped != s.aud.push

/-- AUDIT_EXPORT_PUSH: the next entry in the ring is copied into the export queue, while that has room (R96). -/
def execAuditExportPush (s : State) : Host.Outcome State Fault Refusal :=
  .next <|
    if !s.regBit R.AUD_CTRL 1 || !alive s 2 || !s.queueAlive 1 then s
    else
      let s := if s.exportLost then
          { s with aud := { s.aud with push := s.reg R.AUD_EXP_SEQ, popped := s.reg R.AUD_EXP_SEQ } }
        else s
      let left := (s.reg R.AUD_SEQ - s.aud.push).toNat - s.aud.pend.length
      if left = 0 ∨ s.queueFull 1 then s
      else
        let e := s.read (auditAt s.aud.push.toNat) 32
        (({ s with aud := { s.aud with push := s.aud.push + 1 } }).append 1 (toWords e)).evalQueue 1

/-- A write of AUD_EXP_ACK is accepted: under HOLD it names an entry that has been pushed, or one before AUD_EXP_SEQ (R96,
R100). -/
def State.expAckOk (s : State) (v : Word) : Bool :=
  s.regBit R.AUD_CTRL 0 || decide ((s.aud.push - 1 - v).toNat < 2 ^ 31)

/-- An accepted write of AUD_EXP_ACK exports every entry up to the one it names (R96). -/
def State.expAck (s : State) (v : Word) : State :=
  if s.regBit R.AUD_CTRL 0 then s
  else if (v - s.reg R.AUD_EXP_SEQ).toNat < 2 ^ 31 then s.setReg R.AUD_EXP_SEQ (v + 1)
  else s

/-- A value of AUD_CTRL is within range (R102). -/
def audCtrlOk (v : Word) : Bool := 1024 ≤ fld v 31 16 && fld v 31 16 ≤ 16384

/-- AUD_CTRL has been written: under WRAP, entries popped and not acknowledged count as exported (R100). -/
def State.audCtrlWritten (s : State) (old : Word) : State :=
  if !bitOf old 0 && s.regBit R.AUD_CTRL 0 && decide ((s.aud.popped - s.reg R.AUD_EXP_SEQ).toNat < 2 ^ 31) then
    s.setReg R.AUD_EXP_SEQ s.aud.popped
  else s

/-- AUD_STATUS as it reads (R102). -/
def State.audStatus (s : State) : Word :=
  word ((if s.holding then 1 else 0) + (if s.reserveOut then 2 else 0) +
    (if s.regBit R.AUD_CTRL 1 && s.queueFull 1 then 4 else 0))

/-- AUDIT_GAP_RECORD: space has returned, and the first entry gives the changes that went unlogged (R98). -/
def execAuditGapRecord (s : State) : Host.Outcome State Fault Refusal :=
  .next (if 0 < s.aud.gap && !s.reserveOut && alive s 2 then s.putGap else s)

end Sys2Proof.Machine
end

