-- ==== Sys2Proof/Machine/Egress.lean ====
section
/-! DEFINITION. Egress: gates, eligibility, selection, ageing, and what a copy goes through on its way out
(05_switch_core.md R145-R155, R159; R17). -/

namespace Sys2Proof.Machine

/-! ### Gate control lists (R149-R151) -/

/-- Hidden state of a port's gate list. -/
def State.gcl (s : State) (p : Nat) : Gcl := kvGet s.swc.gcl p Gcl.none

/-- Replace it. -/
def State.setGcl (s : State) (p : Nat) (g : Gcl) : State := s.setSwc { s.swc with gcl := kvSet s.swc.gcl p g }

/-- A list's gates over one cycle: (start, end, gates), the last entry held to the cycle's end, the list cut off there. -/
def gclSegs (cycle : Nat) : Nat → List Word → List (Nat × Nat × Nat)
  | _, [] => []
  | at_, [w] => if at_ < cycle then [(at_, cycle, fld w 7 0)] else []
  | at_, w :: ws =>
    if at_ < cycle then
      (at_, min cycle (at_ + fld w 31 8), fld w 7 0) :: gclSegs cycle (at_ + fld w 31 8) ws
    else []

/-- Entries of the operational list. -/
def State.operList (s : State) (p : Nat) : List Word :=
  (List.range (s.regFld (R.SWC_GCL_CTRL p) 22 16)).map fun e => s.reg (R.SWC_GCL_OPR p e)

/-- Entries of the administrative list. -/
def State.adminList (s : State) (p : Nat) : List Word :=
  (List.range (s.regFld (R.SWC_GCL_CTRL p) 14 8)).map fun e => s.reg (R.SWC_GCL_ADM p e)

/-- Base time of the administrative list, in nanoseconds. -/
def State.adminBase (s : State) (p : Nat) : Nat :=
  ((s.reg (R.SWC_GCL_BASE_SLO p)).toNat + s.regFld (R.SWC_GCL_BASE_SHI p) 15 0 * 2 ^ 32) * giga +
    s.regFld (R.SWC_GCL_BASE_NS p) 29 0

/-- Nanoseconds until a class's gate closes, from an offset in the cycle; none where it stays open. -/
def segClose (segs : List (Nat × Nat × Nat)) (cycle off tc : Nat) : Option Nat :=
  ((segs ++ segs.map fun x => (x.1 + cycle, x.2.1 + cycle, x.2.2)).find? fun x =>
    decide (off < x.2.1) && !x.2.2.testBit tc).map fun x => x.1 - off

/-- Offset of now in the cycle of the operational list. -/
def State.gclOff (s : State) (p : Nat) : Nat :=
  let g := s.gcl p
  (s.tbNs g.tb - g.base) % max 1 g.cycle

/-- Nanoseconds until the pending change of a port takes effect. -/
def State.changeIn (s : State) (p : Nat) : Option Nat :=
  (s.gcl p).change.map fun t => t - s.tbNs (s.regFld (R.SWC_GCL_CTRL p) 25 24)

/-- The last cycle before a change is extended to it: the length of the fragment that does not run (R150).
[DEDUCED, assumption 42] -/
def State.fragment (s : State) (p : Nat) : Option Nat :=
  match (s.gcl p).change, s.gcl p with
  | some t, g =>
    let f := (t - g.base) % max 1 g.cycle
    if 0 < f ∧ f < g.ext then some f else none
  | none, _ => none

/-- The gates a port's list gives now: the running entry and its gates. [DEDUCED, assumption 42] -/
def State.gclNow (s : State) (p : Nat) : Nat × Nat :=
  let g := s.gcl p
  let segs := gclSegs g.cycle 0 (s.operList p)
  let last := match segs.getLast? with | some x => (segs.length - 1, x.2.2) | none => (0, 0xFF)
  let inFrag := match s.fragment p, s.changeIn p with
    | some f, some d => decide (d ≤ f)
    | _, _ => false
  if inFrag then last
  else if s.tbNs g.tb < g.base then (0, 0xFF)
  else
    match segs.zipIdx.find? fun (x, _) => decide (s.gclOff p < x.2.1) with
    | some (x, i) => (i, x.2.2)
    | none => last

/-- Nanoseconds until a class's gate next closes under the list that will then be operational (R151); none where it does
not. [DEDUCED, assumption 42] -/
def State.closeIn (s : State) (p tc : Nat) : Option Nat :=
  if !(p < 29 && s.regBit (R.SWC_GCL_CTRL p) 0) then none
  else
    let g := s.gcl p
    let old := if (s.operList p).isEmpty then none
      else segClose (gclSegs g.cycle 0 (s.operList p)) g.cycle (s.gclOff p) tc
    match s.changeIn p with
    | none => old
    | some d =>
      let cyc := (s.reg (R.SWC_GCL_CYCLE p)).toNat
      let new := (if (s.adminList p).isEmpty then none
        else segClose (gclSegs cyc 0 (s.adminList p)) cyc 0 tc).map (· + d)
      match old with
      | none => new
      | some c =>
        let stop := d - (s.fragment p).getD 0
        if c < stop then some c else new

/-- Bring the running entry and gates of a port up to now (R149). [DEDUCED, assumption 42] -/
def State.gclAdvance (s : State) (p : Nat) : State :=
  let (e, gs) := s.gclNow p
  let s := (List.range 8).foldl (fun s tc => s.creditStep (p * 8 + tc)) s
  (s.setGcl p { s.gcl p with entry := e, gates := gs }).setFld (R.SWC_GCL_STAT p) 6 1 e

/-- A CHANGE request is allowed (R150). -/
def State.changeOk (s : State) (p : Nat) (len : Nat) : Bool :=
  (s.gcl p).change.isNone &&
  (List.range len).all (fun e => s.regFld (R.SWC_GCL_ADM p e) 31 8 != 0) &&
  (len == 0 || s.reg (R.SWC_GCL_CYCLE p) != 0)

/-- The change time of a request (R150). -/
def State.changeTime (s : State) (p : Nat) : Nat :=
  let now := s.tbNs (s.regFld (R.SWC_GCL_CTRL p) 25 24)
  let b := s.adminBase p
  let c := (s.reg (R.SWC_GCL_CYCLE p)).toNat
  if now < b then b else if c = 0 then now else b + ((now - b) / c + 1) * c

/-- A configuration change is requested. [DEDUCED, assumption 40] -/
def State.requestChange (s : State) (p : Nat) : State :=
  let s := s.setGcl p { s.gcl p with change := some (s.changeTime p) }
  (s.setFld (R.SWC_GCL_CTRL p) 1 1 1).setFld (R.SWC_GCL_STAT p) 0 0 1

/-- A pending change is withdrawn. [DEDUCED, assumption 40] -/
def State.cancelChange (s : State) (p : Nat) : State :=
  let s := s.setGcl p { s.gcl p with change := none }
  (s.setFld (R.SWC_GCL_CTRL p) 1 1 0).setFld (R.SWC_GCL_STAT p) 0 0 0

/-- The administrative list, its length, cycle, extension, base time and time base become operational (R150). -/
def State.takeChange (s : State) (p : Nat) : State :=
  match s.changeIn p with
  | some 0 =>
    let len := s.regFld (R.SWC_GCL_CTRL p) 14 8
    let s := (List.range 64).foldl (fun s e =>
      s.setReg (R.SWC_GCL_OPR p e) (if e < len then s.reg (R.SWC_GCL_ADM p e) else 0)) s
    let s := s.setFld (R.SWC_GCL_CTRL p) 22 16 len
    let s := s.setGcl p ⟨(s.reg (R.SWC_GCL_CYCLE p)).toNat, (s.reg (R.SWC_GCL_EXT p)).toNat, s.adminBase p,
      s.regFld (R.SWC_GCL_CTRL p) 25 24, 0, 0xFF, none⟩
    let s := (s.setFld (R.SWC_GCL_CTRL p) 1 1 0).setFld (R.SWC_GCL_STAT p) 0 0 0
    if len = 0 then s else s.gclAdvance p
  | _ => s

/-! ### Heads (R145, R152-R155, R316) -/

/-- A copy's residence exceeds its queue's limit (R155). -/
def State.aged (s : State) (c : Copy) : Bool :=
  let lim := s.regFld (R.SWC_QAGE c.queue) 23 0
  lim != 0 && decide (lim < (s.nowUs % 2 ^ 32 + 2 ^ 32 - c.admitUs) % 2 ^ 32)

/-- A base counts (R316). -/
def State.baseRuns (s : State) (n : Nat) : Bool := n == 3 || (s.regBit (R.TIM_TB_CFG n) 0 && s.tim.refOk)

/-- Launch of a copy on its base, and that base's present value, in nanoseconds. -/
def State.launchNs (s : State) (c : Copy) : Nat × Nat := (s.expand c.launch, s.tbNs (compactBase c.launch))

/-- A timed head is late beyond tolerance, or its base is not running (R153, R316). -/
def State.late (s : State) (c : Copy) : Bool :=
  c.timed &&
  (!s.baseRuns (compactBase c.launch) ||
    (let (l, now) := s.launchNs c
     let tol := s.regFld (R.SWC_PLT c.port) 15 0 * 100
     tol != 0 && decide (l + tol < now)))

/-- Discard the head of a queue for a cause: its counter, and its ledger bit where `clear`. -/
def State.dropHead (s : State) (q slot cause : Nat) (clear : Bool) : State :=
  match s.copies q with
  | [] => s
  | c :: rest =>
    let s := (s.creditStep q).setCopies q rest
    (s.qCount q slot).endCopy c (some cause) clear

/-- Drop a queue's stale heads: aged, and where `late`, late ones (R146, R153, R155). -/
def State.dropStale (late : Bool) (q : Nat) : Nat → State → State
  | 0, s => s
  | n + 1, s =>
    match s.copies q with
    | [] => s
    | c :: _ =>
      if s.aged c then dropStale late q n ((s.dropHead q 8 4 true).raise 8 4)
      else if late && s.late c then dropStale late q n ((s.dropHead q 10 5 true).raise 8 3)
      else s

/-- Drop the stale heads of a port. -/
def State.dropPortStale (s : State) (p : Nat) : State :=
  (List.range 8).foldl (fun s tc => s.dropStale true (p * 8 + tc) (s.copies (p * 8 + tc)).length) s

/-! ### Wire time and eligibility (R145, R148, R151, R154) -/

/-- Bytes of an Ethernet copy before FCS and padding: tags, tunnel and MACsec included. -/
def State.egressLen (s : State) (c : Copy) : Nat :=
  let bs := s.copyBytes c
  let n := if (s.frameOf c.frame).bus then ((s.encapsulate c.port c.stream bs).1.getD []).length
    else (c.edits.onEth c.port bs).length
  n + (if c.protect = 1 then s.macsecGrowth c.port else 0)

/-- Length of a copy on an Ethernet line: padding, FCS, preamble and gap included. [DEDUCED, assumption 43] -/
def State.wireBytes (s : State) (c : Copy) : Nat := max 60 (s.egressLen c) + 24

/-- Time of a number of bytes on a port's line, in nanoseconds, rounded up. [DEDUCED, assumption 43] -/
def State.byteNs (s : State) (p n : Nat) : Nat := ceilDiv (n * 8000) (s.lineRate p)

/-- Nanoseconds until the preamble of a timed copy must begin; 0 once it may. [DEDUCED, assumption 43] -/
def State.untilStart (s : State) (c : Copy) : Nat :=
  let (l, now) := s.launchNs c
  l - now - (if c.port < 29 then s.byteNs c.port 8 else 0)

/-- Nanoseconds within which a copy must end: before the preamble of every other waiting timed head (R154).
[DEDUCED, assumption 43] -/
def State.launchRoom (s : State) (p q : Nat) : Option Nat :=
  (List.range 8).foldl (fun m tc =>
    if p * 8 + tc = q then m
    else match s.copies (p * 8 + tc) with
      | c :: _ =>
        if c.timed ∧ 0 < s.untilStart c then
          some (match m with | some x => min x (s.untilStart c) | none => s.untilStart c)
        else m
      | [] => m) none

/-- A timed head waits on a port (R143, R154). -/
def State.timedHead (s : State) (p : Nat) : Bool :=
  (List.range 8).any fun tc => match s.copies (p * 8 + tc) with | c :: _ => c.timed | [] => false

/-- The shaper of a queue lets its head go (R148). -/
def State.creditOk (s : State) (q : Nat) : Bool :=
  !s.regBit (R.SWC_QCBS q) 31 || (decide (0 ≤ kvGet s.swc.credit q 0) && s.regFld (R.SWC_QCBS q) 21 0 != 0)

/-- A queue of an Ethernet port is eligible, but for the heads of R154. -/
def State.ready (s : State) (p tc : Nat) : Bool :=
  match s.copies (p * 8 + tc) with
  | [] => false
  | c :: _ =>
    (s.gates p).testBit tc &&
    (match s.closeIn p tc with | some d => decide (s.byteNs p (s.wireBytes c) ≤ d) | none => true) &&
    (!c.timed || s.untilStart c == 0) &&
    s.creditOk (p * 8 + tc)

/-- A queue of an Ethernet port is eligible (R145). -/
def State.eligible (s : State) (p tc : Nat) : Bool :=
  s.ready p tc &&
  match s.copies (p * 8 + tc), s.launchRoom p (p * 8 + tc) with
  | c :: _, some d => decide (s.byteNs p (s.wireBytes c) ≤ d)
  | _, _ => true

/-! ### Selection (R146, R147) -/

/-- The lowest strict class: 0 makes all strict. -/
def State.spLow (s : State) (p : Nat) : Nat := s.regFld (R.SWC_PSCHED p) 2 0

/-- Quantum of a class in bytes. -/
def State.quantum (s : State) (p tc : Nat) : Nat :=
  (if tc < 4 then s.regFld (R.SWC_PQUANT0 p) (8 * tc + 7) (8 * tc)
   else s.regFld (R.SWC_PQUANT1 p) (8 * (tc - 4) + 7) (8 * (tc - 4))) * 64

/-- Deficit of a queue. -/
def State.setDeficit (s : State) (q n : Nat) : State :=
  s.setSwc { s.swc with deficit := if n = 0 then kvDel s.swc.deficit q else kvSet s.swc.deficit q n }

/-- Classes of a round of the classes below n: from a class downward, wrapping. -/
def roundFrom (n c : Nat) : List Nat := (List.range n).map fun k => (c + 2 * n - k) % n

/-- One round of deficit-weighted round robin (R147). [DEDUCED, assumption 44] -/
def State.dwrr (s : State) (p : Nat) (ok : State → Nat → Bool) (size : State → Nat → Nat) :
    List (Nat × Bool) → Option Nat × State
  | [] => (none, s)
  | (c, newTurn) :: rest =>
    let q := p * 8 + c
    if !ok s c then
      let s := if newTurn then s else s.setSwc { s.swc with turn := kvSet s.swc.turn p (c, false) }
      (if (s.copies q).isEmpty then s.setDeficit q 0 else s).dwrr p ok size rest
    else
      let s := if newTurn then s.setDeficit q (kvGet s.swc.deficit q 0 + s.quantum p c) else s
      if s.quantum p c != 0 && size s c ≤ kvGet s.swc.deficit q 0 then
        let s := s.setDeficit q (kvGet s.swc.deficit q 0 - size s c)
        (some c, s.setSwc { s.swc with turn := kvSet s.swc.turn p (c, true) })
      else
        (s.setSwc { s.swc with turn := kvSet s.swc.turn p (c, false) }).dwrr p ok size rest

/-- The next class of a port to serve: strict classes, then the round (R146). [DEDUCED, assumption 44] -/
def State.pick (s : State) (p : Nat) (ok : State → Nat → Bool) (size : State → Nat → Nat) : Option Nat × State :=
  let low := s.spLow p
  match (List.range 8).reverse.find? fun tc => low ≤ tc && ok s tc with
  | some tc => (some tc, s)
  | none =>
    if low = 0 then (none, s)
    else
      let (last, keeps) := kvGet s.swc.turn p (0, false)
      let last := last % low
      let order := if keeps then (roundFrom low last).map fun c => (c, c != last)
        else (roundFrom low (last + low - 1)).map fun c => (c, true)
      s.dwrr p ok size order

/-! ### On the way out (R17) -/

/-- What became of a copy on its way out: sent as these bytes, or discarded for a cause, its ledger bit cleared or kept. -/
inductive WayOut where
  | sent (line : Bytes)
  | gone (cause : Nat) (clear : Bool)
  deriving DecidableEq, Repr

/-- Count in a counter of a bus channel's window (R240, R241). -/
def State.busCount (s : State) (p slot : Nat) : State :=
  if 64 ≤ p then s.satCtr (if p < 96 then 96 + (p - 64) else 120 + (p - 96)) 1 slot else s

/-- Count FORMAT_DROP at a port: slot 8 of a CAN channel, slot 11 of a LIN channel. -/
def State.formatDrop (s : State) (p : Nat) : State := if p < 96 then s.busCount p 8 else s.busCount p 11

/-- The port of the channel a stored bus frame came from. -/
def ingressPort (bs : Bytes) : Nat :=
  let c := byteAt bs 14
  if c < 24 then 64 + c else if c < 32 then 96 + (c - 24) else 0

/-- A copy as its Ethernet port sends it: composed, edited or tunnelled, protected, and judged (R17, R132, R227, R266,
R421). -/
def State.wayOutEth (s : State) (c : Copy) : WayOut × State :=
  let p := c.port
  let f := s.frameOf c.frame
  let (b, s) := if c.packed then s.compose c.bank c.packRule f.bytes else (some f.bytes, s)
  match b with
  | none => (.gone 10 true, s)
  | some bs =>
    let (plain, s) := if f.bus then s.encapsulate p c.stream bs else (some (c.edits.onEth p bs), s)
    match plain with
    | none => (.gone 9 true, s.formatDrop (ingressPort bs))
    | some plain =>
      let (line, s) := if c.protect = 1 then s.macsecTx p c.keySlot plain else (some plain, s)
      match line with
      | none => (.gone 6 true, s.qCount c.queue 14)
      | some line =>
        match s.guard p ⟨c.ingress, c.stream, plain, line.length⟩ with
        | (some k, s) => (.gone 8 (k != 1), s)
        | (none, s) => (.sent (padEth line), s)

/-- The port can start a frame (R146). -/
def State.ethFree (s : State) (p : Nat) : Bool :=
  p < 29 && alive s 3 && alive s (portDomain p) && s.regBit (R.SWC_PCTL p) 0 && s.lineRate p != 0 &&
    (kvGet? s.swc.tx p).isNone

/-- Begin a copy's transmission. -/
def State.startTx (s : State) (c : Copy) (line : Bytes) : State :=
  let s := s.creditStep c.queue
  s.setSwc { s.swc with tx := kvSet s.swc.tx c.port ⟨c, line, true, false, s.now⟩ }

/-- Select on an Ethernet port until a frame starts or nothing is eligible: discarded copies leave the port free. -/
def State.selectEth (p : Nat) : Nat → State → State
  | 0, s => s
  | n + 1, s =>
    if !s.ethFree p then s
    else
      let s := s.dropPortStale p
      let s := (List.range 8).foldl (fun s tc => s.creditStep (p * 8 + tc)) s
      match s.pick p (fun s tc => s.eligible p tc) (fun s tc =>
        match s.copies (p * 8 + tc) with | c :: _ => s.wireBytes c | [] => 0) with
      | (none, s) => s
      | (some tc, s) =>
        match s.copies (p * 8 + tc) with
        | [] => s
        | c :: rest =>
          let s := s.setCopies (p * 8 + tc) rest
          let s := s.setSwc { s.swc with tx := kvSet s.swc.tx p ⟨c, [], false, false, s.now⟩ }
          match s.wayOutEth c with
          | (.sent line, s) => s.startTx c line
          | (.gone k clear, s) =>
            let s := s.setSwc { s.swc with tx := kvDel s.swc.tx p }
            selectEth p n (s.endCopy c (some k) clear)

/-- Copies queued on a port. -/
def State.portLoad (s : State) (p : Nat) : Nat :=
  (List.range 8).foldl (fun n tc => n + (s.copies (p * 8 + tc)).length) 0

/-! ### Completion (R135, R144, R313) -/

/-- The transmit timestamp of a copy: one item in its port's queue, captured at an instant of TB3 (R313).
[DEDUCED, assumption 152] -/
def State.txStamp (s : State) (c : Copy) (at3 : Nat) : State :=
  match c.tag with
  | none => s
  | some tag =>
    let p := c.port
    if !s.regBit (R.TIM_PORT_CFG p) 0 then s
    else
      let n := s.regFld (R.TIM_PORT_CFG p) 2 1
      let back := (s.now - at3) * frac32
      let ts := s.fullStamp n ((s.tb n).val - back) true
      let replay := match c.src with | .replay _ => true | _ => false
      let flags := (if c.timed then 1 else 0) + (if 64 ≤ p && 1 < c.attempts then 2 else 0) + (if replay then 4 else 0)
      let q := if p < 29 then 8 + p else 40 + (p - 64)
      s.push q (toWords (ts ++ leBytes 2 tag ++ [byte flags, byte (if p < 29 then 0 else min c.attempts 255)] ++
        leBytes 4 (at3 % giga)))

/-- The copy in transmission on an Ethernet port is complete: its last bit has been sent. -/
def State.completeEth (s : State) (p : Nat) : State :=
  match kvGet? s.swc.tx p with
  | none => s
  | some t =>
    if !t.whole then s
    else
      let c := t.copy
      let s := s.creditStep c.queue
      let s := s.emit (.frame p t.line (!t.stomp))
      let n := (s.copyBytes c).length
      let s := s.setSwc { s.swc with tx := kvDel s.swc.tx p }
      if t.stomp then s.endCopy c (some 12) true
      else
        let s := (s.addCtr 8 (0x1000 + c.queue) 0 1).addCtr 8 (0x1000 + c.queue) 2 n
        let s := s.txStamp c (t.start + s.byteNs p 8)
        s.endCopy c none true

/-! ### Ageing, purge, links -/

/-- Every queue's consecutive aged heads go (R155). -/
def State.ageSweep (s : State) : State :=
  (s.swc.queues.map (·.1)).foldl (fun s q => s.dropStale false q (s.copies q).length) s

/-- Discard every queued copy of a port (R160, R514). -/
def State.purgePort (s : State) (p : Nat) : State :=
  let s := (List.range 8).foldl (fun s tc =>
    let q := p * 8 + tc
    (s.copies q).foldl (fun s _ => s.dropHead q 12 7 false) s) s
  if s.heldCopies.any fun c => c.port == p then s.modReg (R.SWC_PSTAT p) fun w => putBit w 1 true else s

/-! ### Commands -/

/-- EGRESS_SELECT (R146). -/
def execEgressSelect (p : Nat) (s : State) : Host.Outcome State Fault Refusal :=
  .next (State.selectEth p (s.portLoad p + 1) s).settle

/-- AGEING_SWEEP (R155). -/
def execAgeingSweep (s : State) : Host.Outcome State Fault Refusal :=
  .next (if alive s 3 then s.ageSweep else s)

/-- EGRESS_TX_COMPLETE (R135). -/
def execEgressTxComplete (p : Nat) (s : State) : Host.Outcome State Fault Refusal :=
  .next (if alive s 3 then (s.completeEth p).safeWaits p else s)

/-- GCL_ENTRY_ADVANCE (R149). -/
def execGclEntryAdvance (p : Nat) (s : State) : Host.Outcome State Fault Refusal :=
  .next (if p < 29 && alive s 3 && !(s.operList p).isEmpty then s.gclAdvance p else s)

/-- GCL_CHANGE_TAKE_EFFECT (R150). -/
def execGclChangeTakeEffect (p : Nat) (s : State) : Host.Outcome State Fault Refusal :=
  .next (if p < 29 && alive s 3 then s.takeChange p else s)

/-- ETH_LINK_UP (R160): the link of an Ethernet port comes up at a rate in Mbit/s. -/
def execEthLinkUp (p rate : Nat) (s : State) : Host.Outcome State Fault Refusal :=
  .next (if p < 29 then s.setSwc { s.swc with link := if rate = 0 then s.swc.link else kvSet s.swc.link p rate } else s)

end Sys2Proof.Machine
end

