-- ==== Sys2Proof/Machine/Ingress.lean ====
section
/-! DEFINITION. Reception on the Ethernet ports: the end of a header, the cut-through path, the end of a frame, and the
frames that the ledger replays (05_switch_core.md R136-R144; 06_tables_and_learning.md R170; 15_ledger_and_replay.md
R520-R522). -/

namespace Sys2Proof.Machine

/-- Replace what a port has in reception. -/
def State.setRx (s : State) (p : Nat) (x : Option RxFrame) : State :=
  s.setSwc { s.swc with rx := match x with | some f => kvSet s.swc.rx p f | none => kvDel s.swc.rx p }

/-- A port can receive: its PHY and the switch core act, and its link is up (R160). -/
def State.ethHears (s : State) (p : Nat) : Bool :=
  p < 29 && alive s 3 && alive s (portDomain p) && s.lineRate p != 0

/-! ### Cut-through (R139, R143, R144) -/

/-- The ports that may cut through. -/
def cutPort (p : Nat) : Bool := p < 24 || p == 28

/-- The conditions of R143 and the check of R139 hold for a resolved frame: its one egress port.
[DEDUCED, assumption 139] -/
def State.cutTo (s : State) (p : Nat) (r : Resolved) : Option Nat :=
  match r.egress with
  | [e] =>
    let q := e * 8 + r.tc
    let key := match kvGet? r.prot e with
      | some (1, k) => ((s.txAnOf e k).isSome && s.slotUse k 0 && s.cipOn 0)
      | _ => true
    if s.regBit R.SWC_CTRL 0 && s.regBit (R.SWC_PCTL p) 2 && s.regBit (R.SWC_PCTL e) 2 && cutPort p && cutPort e &&
        decide (s.lineRate e ≤ s.lineRate p) && !r.ledger && (s.copies q).isEmpty && s.ethFree e &&
        !s.regBit (R.SWC_GCL_CTRL e) 0 && !s.timedHead e && !r.packed && !r.bus && !r.timed && key &&
        !s.streamHeld r.stream && !s.regBit R.SWC_STATUS 0 && s.queueFits q 36 && s.descFree != 0 && r.tunnel.isNone
    then some e else none
  | _ => none

/-- Take a frame by the cut-through path: it occupies its cells, its copy goes straight to the line unless the guard
refuses it. The stored frame's number, none where it is discarded. [DEDUCED, assumption 139] -/
def State.cutThrough (s : State) (p e : Nat) (r : Resolved) (hdr : Bytes) (len : Nat) : Option Nat × State :=
  match s.recover r hdr with
  | (none, s) => (none, s)
  | (some r, s) =>
    let bytes := hdr ++ List.replicate (len - hdr.length) 0
    match s.store bytes false p r.rxTime with
    | (none, s) => (none, s)
    | (some id, s) =>
      let c := { s.copyOf r id e none with ct := true }
      let s := s.setSwc { s.swc with frames := kvMod s.swc.frames id (s.frameOf id) fun f => { f with refs := 1 } }
      let s := ((s.setSwc { s.swc with nextId := s.swc.nextId + 1 }).qCount c.queue 4).addCtr 8 (0x2000 + p) 6 1
      let plain := c.edits.onEth e bytes
      let glen := plain.length + (if c.protect = 1 then s.macsecGrowth e else 0)
      match s.guard e ⟨p, c.stream, plain, glen⟩ with
      | (some k, s) => (none, s.endCopy c (some 8) (k != 1))
      | (none, s) =>
        let s := s.creditStep c.queue
        let was := s.descFree
        let s := s.setSwc { s.swc with tx := kvSet s.swc.tx e ⟨c, [], false, false, s.now⟩ }
        let low := s.regFld R.SWC_DESC_LOW 16 0
        (some id, if low ≤ was ∧ s.descFree < low then s.raise 8 0 else s)

/-- The copy of a stored frame that is on a line while the frame is still in reception. -/
def State.cutTx (s : State) (id : Nat) : Option TxCopy :=
  (s.swc.tx.find? fun t => t.2.copy.frame == id && !t.2.whole).map (·.2)

/-- Store the bytes of a cut-through frame at the end of its reception: its cells are those it holds. -/
def State.settleCells (s : State) (id : Nat) (bytes : Bytes) : State :=
  let f := s.frameOf id
  let n := cellsOf bytes.length
  let f := { f with bytes := bytes, rsv := min f.rsv n, pool := n - min f.rsv n }
  s.setSwc { s.swc with frames := kvSet s.swc.frames id f }

/-- The reception of a cut-through frame ends: its line bytes are whole, with an inverted FCS where the frame is bad.
[DEDUCED, assumption 139] -/
def State.endCut (s : State) (id : Nat) (bytes : Bytes) (good : Bool) : State :=
  match s.cutTx id with
  | none => s
  | some t =>
    let s := s.settleCells id bytes
    let plain := t.copy.edits.onEth t.copy.port bytes
    let (line, s) := if t.copy.protect = 1 then s.macsecTx t.copy.port t.copy.keySlot plain else (some plain, s)
    let bad := !good || line.isNone
    let t := { t with line := padEth (line.getD plain), whole := true, stomp := bad }
    let s := s.setSwc { s.swc with tx := kvSet s.swc.tx t.copy.port t }
    if bad then s.addCtr 8 1 4 1 else s

/-! ### Reception -/

/-- The end of a header: the frame is classified, and may start on its egress port (R143, R170). A protected frame is
classified at its end, once it has been opened (R480). -/
def State.headerEnd (s : State) (p len : Nat) (hdr : Bytes) : State :=
  let rx := s.latchRx p 0
  if s.secyOn p && beAt hdr 12 2 == 0x88E5 then s.setRx p (some ⟨⟨none, none⟩, hdr, len, true, none, rx⟩)
  else
    let (plain, s) := if s.secyOn p then let (m, s) := s.macsecRx p hdr; (m.frame, s) else (some hdr, s)
    match plain with
    | none => s.setRx p (some ⟨⟨none, none⟩, hdr, len, false, none, rx⟩)
    | some hdr =>
      let (c, s) := s.classify ⟨p, false, hdr, len, none, .line, false, 0, none, rx⟩
      match c.res.bind fun r => (s.cutTo p r).map fun e => (r, e) with
      | none => s.setRx p (some ⟨c, hdr, len, false, none, rx⟩)
      | some (r, e) =>
        let (id, s) := s.cutThrough p e r hdr len
        s.setRx p (some ⟨{ c with res := none }, hdr, len, false, id, rx⟩)

/-- A frame classified at its header, from its end of reception to admission. -/
def State.admitRx (s : State) (p : Nat) (x : RxFrame) (bytes : Bytes) : State :=
  let s := match x.res.sig with | some (b, h) => s.unpack b h bytes | none => s
  match x.cut with
  | some id => s.endCut id bytes true
  | none =>
    match x.res.res with
    | none => s
    | some r =>
      match r.tunnel with
      | some n => { s with bus := { s.bus with tun := s.bus.tun ++ [TunFrame.mk n bytes x.rxTime] } }
      | none =>
        match s.recover r bytes with
        | (none, s) => s
        | (some r, s) =>
          match s.store bytes false p x.rxTime with
          | (none, s) => s
          | (some id, s) => (s.reachAdmission r id).2

/-- A frame's reception ends, good or not (R136, R138, R144). [DEDUCED, assumption 149] -/
def State.frameEnd (s : State) (p : Nat) (body : Bytes) (good : Bool) : State :=
  match kvGet? s.swc.rx p with
  | none => s
  | some x =>
    let s := s.setRx p none
    let bytes := x.hdr ++ body
    let good := good && bytes.length == x.len && decide (bytes.length ≤ 9216)
    if !good then match x.cut with | some id => s.endCut id bytes false | none => s
    else
      let s := (s.addCtr 8 (0x2000 + p) 0 1).addCtr 8 (0x2000 + p) 2 bytes.length
      if x.macsec then
        match s.macsecRx p bytes with
        | (⟨none, _⟩, s) => s
        | (⟨some plain, _⟩, s) =>
          (s.takeFrame ⟨p, false, plain, plain.length, none, .line, false, 0, none, x.rxTime⟩ id).2
      else s.admitRx p x bytes

/-- A link goes down: a frame in reception is cut short, and nothing is transmitted (R144, R160). -/
def State.linkDown (s : State) (p : Nat) : State :=
  let s := match (kvGet? s.swc.rx p) with
    | some x => match x.cut with | some id => s.endCut id x.hdr false | none => s
    | none => s
  (s.setRx p none).setSwc { (s.setRx p none).swc with link := kvDel s.swc.link p }

/-! ### The replay feed (R521) -/

/-- The restart of a replayed record's ring frame: the frame still in its ring goes on, otherwise R383 completes it.
[DEDUCED, assumption 109] -/
def State.replayRing (s : State) (off : Nat) (r : LedgerRec) : State :=
  match r.origin with
  | none => s
  | some (cookie, slot, ring, cqb) =>
    if (s.txFrames ring).any fun f => f.ledgerRec == some off && f.state == 0 then
      s.setTx ring ((s.txFrames ring).map fun f =>
        if f.ledgerRec = some off ∧ f.state = 0 then
          { f with replayed := true, admitted := 0, delivered := 0, left := 1, fails := [] } else f)
    else
      s.setLdg { s.ldg with late := kvSet s.ldg.late off (LateTx.mk
        ⟨slot, slot, 1, cookie, none, false, r.launch.isSome, r.launch.getD 0, r.bytes.length, 0, 0, 1, [], true, some off,
          false, true, 0⟩ ring (cqb % 128) r.owner) }

/-- The switch core takes the item at the front of the replay feed on port 58. [DEDUCED, assumption 109] -/
def State.takeReplay (s : State) : State :=
  match s.take? 7 with
  | none => s
  | some (ws, s) =>
    let s := s.evalQueue 7
    let off := feedOff ws
    let want := mapPorts (leVal (slice (ofWords ws) 4 12))
    match s.ledgerRec off with
    | none => s
    | some r =>
      if r.freed then s
      else
        let s := s.replayRing off r
        let adjust (x : Resolved) : Resolved :=
          let e := s.tbl.act.streamOf r.stream
          let egress := s.failover (want.filter portTarget)
          { x with
            egress := egress, tc := r.tc, ledger := true, tunnel := none
            prot := egress.map fun p => (p, s.protOf p (fld (wordAt e 2) 31 30) (fld (wordAt e 2) 24 16)) }
        (s.takeFrame ⟨58, r.bus, r.bytes, r.bytes.length, some r.stream, .replay off, r.launch.isSome, r.launch.getD 0,
          none, []⟩ adjust).2

/-! ### Commands -/

/-- INGRESS_HEADER_END (R170): a frame of `len` stored bytes, of which the header has been received. -/
def execIngressHeaderEnd (p len : Nat) (hdr : Bytes) (s : State) : Host.Outcome State Fault Refusal :=
  .next (if s.ethHears p && (kvGet? s.swc.rx p).isNone then (s.headerEnd p len hdr).settle else s)

/-- FRAME_ADMIT (R138): the rest of a frame in reception, and whether its FCS is good. -/
def execFrameAdmit (p : Nat) (body : Bytes) (good : Bool) (s : State) : Host.Outcome State Fault Refusal :=
  .next (if s.ethHears p then (s.frameEnd p body good).settle else s)

/-- ETH_LINK_DOWN (R160). -/
def execEthLinkDown (p : Nat) (s : State) : Host.Outcome State Fault Refusal :=
  .next (if p < 29 then s.linkDown p else s)

/-- REPLAY_FEED_TAKE (R521). -/
def execReplayFeedTake (s : State) : Host.Outcome State Fault Refusal :=
  .next (if alive s 2 && alive s 3 then s.takeReplay.settle else s)

/-- ORPHAN_SWEEP (R516). [DEDUCED, assumption 133] -/
def execOrphanSweep (s : State) : Host.Outcome State Fault Refusal :=
  .next (if alive s 2 then s.orphanSweep.settle else s)

/-- REPLAY_DEADLINE (R520). -/
def execReplayDeadline (s : State) : Host.Outcome State Fault Refusal :=
  .next (if alive s 2 && s.replayLate then s.expireSet.settle else s)

end Sys2Proof.Machine
end

