-- ==== Sys2Proof/Machine/RingCmds.lean ====
section
/-! DEFINITION. Ring work: doorbells, descriptor fetches, delivery into receive buffers, completions, and what a reset
leaves of consumed work (11_host_rings.md R362-R373, R377-R382, R390). -/

namespace Sys2Proof.Machine

/-! ### Fetching (R364-R368, R372, R373) -/

/-- The gateway may fetch from a ring: it is enabled, the queue manager acts, its owner's function is ready, and no
power-fail warning stands (R385, R390). -/
def State.fetches (s : State) (k : RingKind) (n : Nat) : Bool :=
  alive s 3 && s.ringSize k n != 0 && !s.regBit R.SWC_STATUS 0 &&
    (!hostOwner (s.ringOwner k n) || s.fnReady (s.ringOwner k n))

/-- Switch port that an owner's frames enter on (R361). -/
def State.ownerPort (s : State) (n : Nat) : Nat :=
  let o := s.ringOwner 0 n
  if o < 8 then 32 + o else if o = 0x20 then 59 else s.regFld (R.TXRING_BIND n) 14 8

/-- A feature of the owner's grant (R387). -/
def State.granted (s : State) (o bit : Nat) : Bool :=
  match ownerIdx o with
  | some i => s.regBit (R.QMG_OWN_FEAT_LO i) bit
  | none => false

/-- A stream handle lies in an owner's range (R367). -/
def State.streamAllowed (s : State) (o stream : Nat) : Bool :=
  match ownerIdx o with
  | some i => decide (s.regFld (R.QMG_OWN_STRM i) 15 0 ≤ stream) && decide (stream ≤ s.regFld (R.QMG_OWN_STRM i) 31 16)
  | none => false

/-- Slots of a transmit ring from an index on, up to and with the first whose MORE is 0, at most `m`. -/
def State.chainFrom (s : State) (n : Nat) : Nat → Nat → List Bytes
  | 0, _ => []
  | m + 1, i =>
    let d := s.slot 0 n i
    if byteAt d 18 % 2 = 1 then d :: s.chainFrom n m (i + 1) else [d]

/-- A chain is whole: its last descriptor has MORE = 0. -/
def chainWhole (ds : List Bytes) : Bool := match ds.getLast? with | some d => byteAt d 18 % 2 == 0 | none => false

/-- Stored length of a chain. -/
def chainLen (ds : List Bytes) : Nat := ds.foldl (fun n d => n + leAt d 8 2) 0

/-- A chain is refused (R367). -/
def State.chainRefused (s : State) (n : Nat) (ds : List Bytes) : Bool :=
  let o := s.ringOwner 0 n
  let d := ds.headD []
  let timed := byteAt d 18 / 8 % 2 == 1
  decide (8 < ds.length) || decide (9216 < chainLen ds) ||
  ds.any (fun d => byteAt d 18 / 16 != 0 || (slice d 19 13).any (· != 0) || (d.drop 40).any (· != 0)) ||
  (timed && (!s.ringV2 0 n || !s.granted o 2)) ||
  !s.streamAllowed o (leAt d 10 2) ||
  (!hostOwner o && ds.any fun d => leAt d 8 2 != 0 && !s.inSpace o (leAt d 0 8) (leAt d 8 2))

/-- The frame that a chain fetched at an index makes. -/
def txFrameOf (ds : List Bytes) (v2 : Bool) (i size : Nat) : TxFrame :=
  let d := ds.headD []
  let f := byteAt d 18
  { idx := i, slot := i % max 1 size, n := ds.length, cookie := leAt d 12 4
    tsTag := if f / 2 % 2 = 1 then some (leAt d 16 2) else none, quiet := f / 4 % 2 == 1, timed := v2 && f / 8 % 2 == 1
    launch := if v2 && f / 8 % 2 == 1 then leAt d 32 8 else 0, size := chainLen ds, admitted := 0, delivered := 0
    left := 1, fails := [], ledger := false, ledgerRec := none, ledgerFull := false, replayed := false, state := 0 }

/-- A whole chain is taken: refused, empty, failed in DMA, or originated on the ring's port. -/
def State.takeChain (s : State) (n i : Nat) (ds : List Bytes) (fail replayed : Bool) : State :=
  let o := s.ringOwner 0 n
  let f := { txFrameOf ds (s.ringV2 0 n) i (s.ringSize 0 n) with replayed := replayed }
  let put (s : State) (f : TxFrame) : State := s.setTx n ((s.txFrames n).filter (·.idx != i) ++ [f])
  if s.chainRefused n ds then (put s { f with left := 0, size := 0, fails := [(0, 1)] }).flushTx n
  else if f.size = 0 then (put s { f with left := 0 }).flushTx n
  else if fail || (hostOwner o && ds.any fun d => leAt d 8 2 != 0 && 2 ^ 47 < leAt d 0 8 + leAt d 8 2) then
    ((put s { f with left := 0, fails := [(0, 13)] }).fault 9 8 [word n, word i, 0, 0]).flushTx n
  else
    let bytes := ds.flatMap fun d => s.ownRead o (leAt d 0 8) (leAt d 8 2)
    let s := ((put s f).addCtr 9 (0x1000 + n) 0 1).addCtr 9 (0x1000 + n) 2 f.size
    (s.originate (s.ownerPort n) (leAt (ds.headD []) 10 2) (.ring n i) (if f.timed then some f.launch else none) f.tsTag
      bytes).2

/-- Fetch descriptors of a frame ring up to the end of a chain, or to PROD, where the chain waits (R367). -/
def State.fetchTx (s : State) (n : Nat) (fail : Bool) : State :=
  let size := s.ringSize 0 n
  let at_ := s.ringIdx 0 n 0x14
  let left := ringDist size at_ (s.ringIdx 0 n 0x10)
  if left = 0 then s
  else
    let old := kvGet s.rng.chain n []
    let new := s.chainFrom n left at_
    let ds := old ++ new
    let s := (s.slotDown 0 n at_).setRingIdx 0 n 0x14 (at_ + new.length)
    if chainWhole ds then
      (s.setRng { s.rng with chain := kvDel s.rng.chain n }).takeChain n ((at_ + 2 * size - old.length) % (2 * size)) ds
        (fail || s.dmaDown (s.ringOwner 0 n)) false
    else s.setRng { s.rng with chain := kvSet s.rng.chain n ds }

/-- The name under which a ring's order stands in the intake: its ring and index. -/
def orderProducer (ring i : Nat) : Nat := 0x2000000 + ring * 0x40000 + i

/-- Put a fetched item into an intake under the name of its ring and index. -/
def State.intake (s : State) (q prod : Nat) (bs : Bytes) : State :=
  let v := s.queue q
  let t := if v.items.isEmpty then s.now else v.timer
  ((s.setQueue q { v.roomTail (s.spillSlot q).isSome with
    items := v.items ++ [QItem.mk (toWords bs) true false prod s.now], timer := t }).noteDepth q).evalQueue q

/-- Fetch one order into the placement order intake, waiting while that is full (R372); a failed fetch ends the order
(R390). [DEDUCED, assumption 153] -/
def State.fetchOrder (s : State) (n : Nat) (fail : Bool) : State :=
  let at_ := s.ringIdx 0 n 0x14
  if ringDist (s.ringSize 0 n) at_ (s.ringIdx 0 n 0x10) = 0 || s.queueFull 2 then s
  else
    let i := (s.slotDown 0 n at_).setRingIdx 0 n 0x14 (at_ + 1)
    if fail || s.dmaDown (s.ringOwner 0 n) then
      let s := i.fault 9 8 [word n, word at_, 0, 0]
      let s := if s.noneWaits n then s.setRingIdx 0 n 0x18 (at_ + 1) else s
      s.postCq (s.ringCq 0 n) ⟨2, n, none, 1, cqHeader 0 n 2 (at_ % s.ringSize 0 n) 8 0 1 0 ++ List.replicate 48 0,
        s.now, false⟩
    else i.intake 2 (orderProducer n at_) (s.slot 0 n at_)

/-- Fetch one table command into its intake (R373); a failed fetch ends the command (R390).
[DEDUCED, assumption 153] -/
def State.fetchTc (s : State) (n : Nat) (fail : Bool) : State :=
  let at_ := s.ringIdx 3 n 0x14
  if ringDist (s.ringSize 3 n) at_ (s.ringIdx 3 n 0x10) = 0 || s.queueFull 3 then s
  else
    let i := (s.slotDown 3 n at_).setRingIdx 3 n 0x14 (at_ + 1)
    if fail || s.dmaDown (s.ringOwner 3 n) then
      let s := i.fault 9 8 [word n, word at_, 0, 0]
      s.postCq (s.ringCq 3 n) ⟨3, n, some at_, 1, cqHeader 0 n 3 (at_ % s.ringSize 3 n) 7 0 1 0 ++ List.replicate 48 0,
        s.now, false⟩
    else i.intake 3 (tcProducer n at_) (s.slot 3 n at_)

/-! ### Receive (R369-R371, R375) -/

/-- The receive ring a queue is mapped to. -/
def State.rxMap (s : State) (q : Nat) : Option Nat :=
  let w := s.reg (R.QMG_RXMAP (q - 256))
  if bitOf w 31 && s.ringSize 1 (fld w 7 0) != 0 then some (fld w 7 0) else none

/-- The completion ring of a receive ring has no room (R379). -/
def State.rxBlocked (s : State) (n : Nat) : Bool :=
  let c := s.ringCq 1 n
  let size := s.regFld (R.CQ_CFG c) 16 0
  size != 0 && decide (size ≤ s.cqFill c + (s.cq c).wait.length)

/-- A completion of receive ring n for m source slots, which frees `free` slots from an index on. -/
def State.postRx (s : State) (n i free m cookie status cause flags : Nat) (body : Bytes) : State :=
  s.postCq (s.ringCq 1 n) ⟨1, n, some i, free,
    cqHeader cookie n 1 (i % max 1 (s.ringSize 1 n)) status cause m flags ++ body, s.now, false⟩

/-- Body of a receive completion. -/
def State.rxBody (s : State) (n : Nat) (c : Copy) : Bytes :=
  let f := s.frameOf c.frame
  let full (tb : Nat) : Bytes :=
    match f.rxTime[tb]? with | some v => s.fullStamp tb v true | none => List.replicate 16 0
  let a := s.regFld (R.RXRING_CFG n) 21 20
  leBytes 2 f.bytes.length ++ leBytes 2 c.stream ++ [byte c.ingress, byte c.tc, 0, 0] ++
    leBytes 8 (latchCompact f.rxTime a) ++ full a ++ full (s.regFld (R.RXRING_CFG n) 23 22)

/-- Descriptors posted from an index on that hold a frame, at most eight with room: each is (index, buffer, length). -/
def State.rxSpan (s : State) (n : Nat) : Nat → Nat → Nat → Nat → List (Nat × Nat × Nat)
  | 0, _, _, _ => []
  | m + 1, i, need, used =>
    if need = 0 ∨ used = 8 then []
    else
      let d := s.slot 1 n i
      let len := leAt d 8 2
      (i, leAt d 0 8, len) :: s.rxSpan n m (i + 1) (need - len) (if len = 0 then used else used + 1)

/-- Write a byte string across buffers. -/
def State.scatter (s : State) (o : Nat) : List (Nat × Nat × Nat) → Bytes → State
  | [], _ => s
  | (_, a, len) :: rest, bs => (s.ownWrite o a (bs.take len)).scatter o rest (bs.drop len)

/-- Descriptors with BUF_LEN 0 complete on their own with `ZLEN`; those inside a frame's span are freed with it
(R370, R378). -/
def State.postZero (s : State) (n : Nat) (free : Bool) (zs : List (Nat × Nat)) : State :=
  zs.foldl (fun s z =>
    let s := s.satCtr 9 (0x1200 + n) 4
    s.postCq (s.ringCq 1 n) ⟨1, n, if free then some z.1 else none, 1,
      cqHeader z.2 n 1 (z.1 % max 1 (s.ringSize 1 n)) 1 0 1 0 ++ List.replicate 48 0, s.now, false⟩) s

/-- Deliver the copy at the head of a mapped queue into posted buffers (R370, R371); a failed access ends it (R390).
[DEDUCED, assumption 153] -/
def State.rxDeliver (s : State) (q : Nat) (fail : Bool) : State :=
  let s := s.dropStale true q (s.copies q).length
  match s.copies q with
  | [] => s
  | c :: rest =>
    if c.timed && s.untilStart c != 0 then s
    else
      match s.rxMap q with
      | none => ((s.setCopies q rest).satCtr 9 1 3).endCopy c (some 15) true
      | some n =>
        let size := s.ringSize 1 n
        let o := s.ringOwner 1 n
        let at_ := s.ringIdx 1 n 0x14
        let posted := ringDist size at_ (s.ringIdx 1 n 0x10)
        let bs := s.copyBytes c
        let span := s.rxSpan n posted at_ bs.length 0
        let room := span.foldl (fun a x => a + x.2.2) 0
        let used := span.filter fun x => x.2.2 != 0
        let cookie (i : Nat) := leAt (s.slot 1 n i) 12 4
        let lead := (span.takeWhile fun x => x.2.2 == 0).map fun x => (x.1, cookie x.1)
        let fail := fail || s.dmaDown o
        if s.rxBlocked n || (hostOwner o && !s.fnReady o) then s
        else if room < bs.length ∧ used.length < 8 then
          let s := if lead.isEmpty then s else (s.setRingIdx 1 n 0x14 (at_ + lead.length)).postZero n true lead
          if s.regBit (R.RXRING_CFG n) 18 then
            ((s.setCopies q rest).satCtr 9 (0x1200 + n) 6).endCopy c (some 15) true
          else s
        else
          let body := span.drop lead.length
          let mid := (body.filter fun x => x.2.2 == 0).map fun x => (x.1, cookie x.1)
          let first := (body.headD (at_, 0, 0)).1
          let ck := cookie first
          let info := s.rxBody n c
          let s := s.setRingIdx 1 n 0x14 (at_ + span.length)
          let s := s.postZero n true lead
          let s := if fail then (s.slotDown 1 n first).fault 9 8 [word n, word first, 0, 0] else s.scatter o used bs
          let cut := decide (room < bs.length)
          let replay := match c.src with | .replay _ => true | _ => false
          let flags := (if replay then 2 else 0) + (if c.ledger.isSome then 4 else 0) + (if c.timed then 8 else 0)
          let s := s.postRx n first body.length used.length ck (if fail || cut then 8 else 0)
            (if fail then 13 else if cut then 15 else 0) flags info
          let s := s.postZero n false mid
          let s := (s.addCtr 9 (0x1200 + n) 0 1).addCtr 9 (0x1200 + n) 2 (min room bs.length)
          let s := if fail || cut then s.satCtr 9 (0x1200 + n) 5 else s
          if fail then (s.setCopies q rest).endCopy c (some 13) false
          else (((s.setCopies q rest).addCtr 8 (0x1000 + q) 0 1).addCtr 8 (0x1000 + q) 2 bs.length).endCopy c none true

/-! ### Completions -/

/-- A completion that has waited 100 ms for its ring sets CMPL_STALL once (R379). -/
def State.cqStall (s : State) (c : Nat) : State :=
  let q := s.cq c
  match q.wait with
  | e :: rest =>
    if e.stalled || s.now - e.since < 100000000 then s
    else
      ((s.setCq c { q with wait := { e with stalled := true } :: rest }).satCtr 9 (0x1400 + c) 5).raise 9 2
        |>.fault 9 9 [word c, 0, 0, 0]
  | [] => s

/-! ### Disabling and resuming (R382, R390) -/

/-- A ring whose CFG was `old` is disabled: unfetched slots are abandoned, and a chain that waits completes with
`TRUNCATED` and cause 1. [DEDUCED, assumption 82] -/
def State.ringDisable (s : State) (k : RingKind) (n : Nat) (old : Word) : State :=
  match k with
  | 0 =>
    match kvGet? s.rng.chain n with
    | none => s
    | some ds =>
      let size := fld old 16 0
      let i := (s.ringIdx 0 n 0x14 + 2 * size - ds.length) % (2 * size)
      let f := { txFrameOf ds (bitOf old 17) i size with left := 0, state := 1 }
      let s := (s.setRng { s.rng with chain := kvDel s.rng.chain n }).setTx n (s.txFrames n ++ [f])
      s.postCq (s.ringCq 0 n) (s.txEntry n f 8 1)
  | _ => s

/-- A transmit ring's frames when PD3 leaves a BLOCK reset (R382). [DEDUCED, assumption 48] -/
def State.resumeTx (s : State) (n : Nat) : State :=
  let fs := s.txFrames n
  let kept (f : TxFrame) : Bool := match f.ledgerRec with
    | some off => (s.ledgerRec off).any fun r => !r.freed
    | none => false
  let refetch := s.regBit (R.TXRING_CFG n) 20
  let s := s.setTx n (fs.map fun f =>
    if kept f then { f with state := 0, left := 1, delivered := 0, admitted := 0, fails := [] }
    else { f with state := 0, left := if refetch then 1 else 0, delivered := 0, admitted := 0, ledgerRec := none
                  fails := if refetch then [] else [(0, 12)] })
  let s := if refetch then
      (fs.filter fun f => !kept f).foldl (fun s f =>
        s.takeChain n f.idx ((List.range f.n).map fun k => s.slot 0 n (f.idx + k)) false true) s
    else s
  s.flushTx n

/-- FETCH of a transmit frame ring when its unfinished chain is lost: the slots after the last frame. -/
def State.rewindChain (s : State) (n : Nat) : State :=
  match (s.txFrames n).getLast? with
  | some f => s.setRingIdx 0 n 0x14 (f.idx + f.n)
  | none => s.setRingIdx 0 n 0x14 (s.ringIdx 0 n 0x18)

/-- Table commands that did not complete end with `TRUNCATED`, and TBL_CMD_OPEN names the first (R382).
[DEDUCED, assumption 48] -/
def State.resumeTc (s : State) (n : Nat) : State :=
  let done := s.ringIdx 3 n 0x18
  let m := ringDist (s.ringSize 3 n) done (s.ringIdx 3 n 0x14)
  let posted := ((s.cq (s.ringCq 3 n)).wait.filter fun e => e.kind == 3 && e.ring == n).filterMap (·.idx)
  ((List.range m).filter fun k => !posted.contains ((done + k) % (2 * s.ringSize 3 n))).foldl (fun s k =>
    let i := (done + k) % (2 * s.ringSize 3 n)
    let tag := leAt (s.slot 3 n i) 4 2
    let s := if k = 0 then s.setReg R.TBL_CMD_OPEN (word (tag * 65536 + n)) else s
    s.postCq (s.ringCq 3 n) ⟨3, n, some i, 1, cqHeader tag n 3 (i % s.ringSize 3 n) 7 0 1 0 ++ List.replicate 48 0,
      s.now, false⟩) s

/-- The queue manager resumes after a BLOCK reset of PD3 (R382). [DEDUCED, assumption 48] -/
def State.ringsResume (s : State) : State :=
  let s := (List.range 256).foldl (fun s n =>
    if s.ringSize 0 n = 0 then s
    else if s.regBit (R.TXRING_CFG n) 18 then s.setRingIdx 0 n 0x14 (s.ringIdx 0 n 0x18)
    else (s.rewindChain n).resumeTx n) s
  let s := (List.range 256).foldl (fun s n =>
    if s.ringSize 1 n = 0 then s else s.setRingIdx 1 n 0x14 (s.ringIdx 1 n 0x18)) s
  (List.range 16).foldl (fun s n => if s.ringSize 3 n = 0 then s else s.resumeTc n) s

/-! ### Commands -/

/-- TX_DOORBELL (R364). -/
def execTxDoorbell (m : Master) (n v : Nat) (s : State) : Host.Outcome State Fault Refusal :=
  .next (if n < 256 then s.doorbell m n v else s)

/-- RX_DOORBELL (R363). -/
def execRxDoorbell (m : Master) (n v : Nat) (s : State) : Host.Outcome State Fault Refusal :=
  .next (if n < 256 then s.doorbell m (256 + n) v else s)

/-- CQ_DOORBELL (R380). -/
def execCqDoorbell (m : Master) (n v : Nat) (s : State) : Host.Outcome State Fault Refusal :=
  .next (if n < 128 then s.doorbell m (512 + n) v else s)

/-- TC_DOORBELL (R363). -/
def execTcDoorbell (m : Master) (n v : Nat) (s : State) : Host.Outcome State Fault Refusal :=
  .next (if n < 16 then s.doorbell m (640 + n) v else s)

/-- TX_DESC_FETCH (R367); `fail` says that a read of a descriptor or buffer failed. -/
def execTxDescFetch (n : Nat) (fail : Bool) (s : State) : Host.Outcome State Fault Refusal :=
  .next (if n < 256 && s.fetches 0 n && !s.regBit (R.TXRING_CFG n) 18 then (s.fetchTx n fail).settle else s)

/-- ORDER_FETCH (R372). -/
def execOrderFetch (n : Nat) (fail : Bool) (s : State) : Host.Outcome State Fault Refusal :=
  .next (if n < 256 && s.fetches 0 n && s.regBit (R.TXRING_CFG n) 18 then s.fetchOrder n fail else s)

/-- TC_RING_FETCH (R373). -/
def execTcRingFetch (n : Nat) (fail : Bool) (s : State) : Host.Outcome State Fault Refusal :=
  .next (if n < 16 && s.fetches 3 n then s.fetchTc n fail else s)

/-- RX_DELIVER (R370): the head of egress queue q of a software port. -/
def execRxDeliver (q : Nat) (fail : Bool) (s : State) : Host.Outcome State Fault Refusal :=
  .next (if 256 ≤ q && q < 448 && portUsed (q / 8) && alive s 3 && s.regBit (R.SWC_PCTL (q / 8)) 0 then
    (s.rxDeliver q fail).settle else s)

/-- COMPLETION_WRITE (R377); `fail` says that the write failed. -/
def execCompletionWrite (c : Nat) (fail : Bool) (s : State) : Host.Outcome State Fault Refusal :=
  .next (if c < 128 && alive s 3 then s.cqWrite c fail else s)

/-- CMPL_STALL (R379). -/
def execCmplStall (c : Nat) (s : State) : Host.Outcome State Fault Refusal :=
  .next (if c < 128 && alive s 3 then s.cqStall c else s)

/-- CQ_MOD_TIMER (R380). -/
def execCqModTimer (s : State) : Host.Outcome State Fault Refusal :=
  .next (if alive s 3 then (s.rng.cq.map (·.1)).foldl State.cqCheck s else s)

end Sys2Proof.Machine
end

