-- ==== Sys2Proof/Machine/Bridge.lean ====
section
/-! DEFINITION. The PCIe host bridge: BAR4, virtual functions' doorbells, outbound accesses with prefetch, the error
mailbox, and the link (12_host_bridge.md R397-R420, R385). -/

namespace Sys2Proof.Machine

/-- Replace the hidden state of the bridge. -/
def State.setHbr (s : State) (x : Hbr) : State := { s with hbr := x }

/-- A PCIe function as a master (R30). -/
def function (f : Nat) : Master := ⟨0x20 + f, .machine⟩

/-- The outcome of an access, as its master sees it. [DEDUCED, assumption 12] -/
def State.respond (s : State) (r : BusResp) : State := { s with sys := { s.sys with bus := r } }

/-- The link is up (R418). -/
def State.linkUp (s : State) : Bool := s.regBit R.HBR_LINK 16

/-! ### BAR4 and doorbells (R400, R402) -/

/-- Fabric address of an offset of BAR4; none outside the granules LO to HI. -/
def State.bar4Addr (s : State) (x n : Nat) : Option Nat :=
  let lim := s.reg R.HBR_BAR4_LIM
  let a := 0x800000000 + s.regFld R.HBR_BAR4_BASE 11 0 * 0x200000 + x
  let lo := 0x800000000 + fld lim 11 0 * 0x200000
  let hi := 0x800000000 + (fld lim 27 16 + 1) * 0x200000
  if bitOf lim 31 && decide (x + n ≤ 0x40000000) && decide (lo ≤ a) && decide (a + n ≤ hi) && inDram a n then some a
  else none

/-- A BASE is accepted: within LO to HI (R400, R418). -/
def State.bar4BaseOk (s : State) (v : Word) : Bool :=
  let b := fld v 11 0
  let lim := s.reg R.HBR_BAR4_LIM
  b ≤ 3456 && fld lim 11 0 ≤ b && b ≤ fld lim 27 16

/-- A refused inbound access: a posted write is captured, a read completes with Unsupported Request and is counted
(R410). -/
def State.inboundRefused (s : State) (m : Master) (a n : Nat) (write : Bool) (code : Nat) : State :=
  if write then ((s.satCtr 24 1 3).hbrError a m.origin false false code n).respond .discarded
  else (s.satCtr 24 1 2).respond .unsupported

/-- An access of the host through BAR4 (R400). -/
def State.bar4 (s : State) (write : Bool) (x n : Nat) (bs : Bytes) : State :=
  match s.bar4Addr x n with
  | none => s.inboundRefused (function 0) x n write 3
  | some a =>
    if write then (s.write a (slice bs 0 n)).respond .done else s.respond (.bytes (s.read a n))

/-- A write to a doorbell slot of virtual function v (R402). -/
def State.vfDoorbell (s : State) (v j val : Nat) : State :=
  let r := s.reg (R.HBR_VF_DBMAP v j)
  if bitOf r 31 then (s.doorbell (function v) (fld r 9 0) val).respond .done
  else s.inboundRefused (function v) (j * 0x1000) 4 true 3

/-! ### Outbound accesses (R406-R409) -/

/-- Requests of internal masters are issued (R406). -/
def State.outboundOn (s : State) : Bool :=
  s.fnReady 0 && s.linkUp && s.regBit R.HBR_CTRL 0 && alive s 9

/-- The window that governs a read: the lowest that holds it (R408). -/
def State.outWindow (s : State) (a n : Nat) : Option Nat :=
  (List.range 16).find? fun k =>
    let b := s.regFld (R.HBR_OWIN_BASE k) 30 0
    let l := s.regFld (R.HBR_OWIN_LIMIT k) 30 0
    s.regBit (R.HBR_OWIN_CTRL k) 0 && decide (b * 65536 ≤ a) && decide (a + n ≤ (l + 1) * 65536)

/-- The lines that a read also fetches: whole 64-byte lines that begin after its last byte and end within PF_MAX of it,
within the window and the 4 KiB of its last byte (R408). -/
def State.prefetchLines (s : State) (k a n : Nat) : List Nat :=
  let last := a + n - 1
  let first := (last / 64 + 1) * 64
  let top := (s.regFld (R.HBR_OWIN_LIMIT k) 30 0 + 1) * 65536
  ((List.range 8).map fun i => first + 64 * i).filter fun l =>
    l + 63 ≤ last + s.regFld R.HBR_PF_CFG 25 16 && l + 64 ≤ top && l / 4096 == last / 4096

/-- The master's reads may be extended: a core, the keeper or a microengine (R408). -/
def extends_ (m : Master) : Bool :=
  m.origin ≤ 2 || (0x10 ≤ m.origin && m.origin < 0x18) || (0x40 ≤ m.origin && m.origin < 0x50)

/-- The item of a discarded line: cause 0 time, 1 displaced, 2 write, 3 link down (R409). -/
def discardItem (l : HbrLine) (cause : Nat) : List Word :=
  toWords (leBytes 6 l.addr ++ [byte l.origin, byte (l.win + 16 * cause)])

/-- Discard the held lines that match, each into the prefetch-discard log (R409). -/
def State.discardLines (s : State) (p : HbrLine → Bool) (cause : Nat) : State :=
  let gone := s.hbr.lines.filter p
  let s := s.setHbr { s.hbr with lines := s.hbr.lines.filter fun l => !p l }
  gone.foldl (fun s l => (s.satCtr 24 1 0).push 4 (discardItem l cause)) s

/-- A line overlaps a span. -/
def HbrLine.meets (l : HbrLine) (a n : Nat) : Bool := decide (l.addr < a + n) && decide (a < l.addr + 64)

/-- Bytes of a span: those of held lines over what the completion brought. -/
def overlay (a : Nat) (bs : Bytes) (have_ : List (Nat × Bytes)) : Bytes :=
  bs.zipIdx.map fun (b, i) =>
    match have_.find? fun l => l.1 ≤ a + i && a + i < l.1 + 64 with
    | some l => (l.2[a + i - l.1]?).getD 0
    | none => b

/-- Requests that may be issued at a time (R397). -/
def outboundTags : Nat := 256

/-- Issue the oldest waiting read, if a tag is free. -/
def State.issueNext (s : State) : State :=
  if outboundTags ≤ (s.hbr.reads.filter fun r => r.at_.isSome).length then s
  else
    match s.hbr.reads.find? fun r => r.at_.isNone with
    | none => s
    | some r => s.setHbr { s.hbr with
        reads := s.hbr.reads.map fun x => if x.tag = r.tag then { x with at_ := some s.now } else x }

/-- An outbound read of n bytes at a host address (R406, R408, R409). [DEDUCED, assumption 88] -/
def State.outRead (s : State) (m : Master) (a n : Nat) : State :=
  if !s.outboundOn then (s.hbrError a m.origin true true 5 n).respond .error
  else
    let used := s.hbr.lines.filter fun l => l.origin == m.origin && l.meets a n
    let have_ := used.map fun l => (l.addr, l.data)
    let whole := (List.range n).all fun i => have_.any fun l => l.1 ≤ a + i && a + i < l.1 + 64
    let s := s.setHbr { s.hbr with lines := s.hbr.lines.filter fun l => !(l.origin == m.origin && l.meets a n) }
    if whole then s.respond (.bytes (overlay a (List.replicate n 0) have_))
    else
      let w := s.outWindow a n
      let ls := match w with
        | some k => if s.regBit (R.HBR_OWIN_CTRL k) 1 && extends_ m then s.prefetchLines k a n else []
        | none => []
      let r : HbrRead := ⟨s.hbr.tag, m, a, n, w.getD 0, ls, have_, none⟩
      ((s.setHbr { s.hbr with reads := s.hbr.reads ++ [r], tag := s.hbr.tag + 1 }).issueNext).respond .held

/-- A read leaves the list, and the next may be issued. -/
def State.endRead (s : State) (tag : Nat) : State :=
  (s.setHbr { s.hbr with reads := s.hbr.reads.filter fun r => r.tag != tag }).issueNext

/-- Hold the lines of a read, displacing the oldest beyond 32 (R409). -/
def State.holdLines (s : State) (r : HbrRead) (bs : Bytes) : State :=
  let new := r.lines.zipIdx.map fun (l, i) => HbrLine.mk l r.m.origin r.win s.now (slice bs (64 * i) 64)
  let all := s.hbr.lines ++ new
  let surplus := all.length - 32
  let s := s.setHbr { s.hbr with lines := all.drop surplus }
  (all.take surplus).foldl (fun s l => (s.satCtr 24 1 0).push 4 (discardItem l 1)) s

/-- A completion for an outstanding read: status 0 success, 1 UR or CA, 2 poisoned; its bytes are those read, then the
prefetched lines (R407). -/
def State.completion (s : State) (tag status : Nat) (bs : Bytes) : State :=
  match s.hbr.reads.find? fun r => r.tag == tag && r.at_.isSome with
  | none => s
  | some r =>
    let s := s.endRead tag
    if status = 0 then
      (s.holdLines r (bs.drop r.len)).respond (.bytes (overlay r.addr (slice bs 0 r.len) r.have_))
    else (s.hbrError r.addr r.m.origin true true (if status = 1 then 7 else 4) r.len).respond .error

/-- An outbound write (R404, R406, R409). [DEDUCED, assumption 88] -/
def State.outWrite (s : State) (m : Master) (a : Nat) (bs : Bytes) : State :=
  if !s.outboundOn then (s.hbrError a m.origin true false 5 bs.length).respond .discarded
  else ((s.discardLines (fun l => l.meets a bs.length) 2).hostWrite a bs).respond .done

/-- Every outstanding read fails with `NO_MASTER` (R413, R414). -/
def State.failReads (s : State) : State :=
  let rs := s.hbr.reads
  rs.foldl (fun s r => s.hbrError r.addr r.m.origin true true 5 r.len) (s.setHbr { s.hbr with reads := [] })

/-! ### Functions and the link (R385, R413) -/

/-- A ring register's SIZE is 0. -/
def State.zeroSize (s : State) (a : Nat) : State := s.setFld a 16 0 0

/-- A function's rings are treated as disabled, and what waits for its completion rings is discarded (R385). -/
def State.stopRings (s : State) (f : Nat) : State :=
  let tx := (List.range 256).filter fun n => s.ringSize 0 n != 0 && s.ringOwner 0 n == f
  let rx := (List.range 256).filter fun n => s.ringSize 1 n != 0 && s.ringOwner 1 n == f
  let tc := (List.range 16).filter fun n => s.ringSize 3 n != 0 && s.ringOwner 3 n == f
  let cq := (List.range 128).filter fun c => s.regFld (R.CQ_CFG c) 16 0 != 0 && s.regFld (R.CQ_CFG c) 31 24 == f
  let s := tx.foldl (fun s n =>
    (s.setRng { s.rng with chain := kvDel s.rng.chain n }).zeroSize (ringAt 0 n + 8)) s
  let s := rx.foldl (fun s n => s.zeroSize (ringAt 1 n + 8)) s
  let s := tc.foldl (fun s n => s.zeroSize (ringAt 3 n + 8)) s
  cq.foldl (fun s c =>
    let w := (s.cq c).wait
    let s := (s.zeroSize (R.CQ_CFG c)).setCq c CqSt.none
    w.foldl (fun s e => (s.satCtr 9 (0x1400 + c) 4).freeSource e) s) s

/-- A function stops: Function Level Reset, Bus Master Enable cleared, or disabled (R385). -/
def State.functionStop (s : State) (f : Nat) (flr : Bool) : State :=
  let s := s.setHbr { s.hbr with ready := s.hbr.ready.filter (· != f) }
  let s := (s.stopRings f).cancelAll (fun o => o.owner == f) true
  let s := if f = 0 then s.failReads else s
  if flr then
    (((s.setReg (R.QMG_OWN_AQ f) 0).setReg (R.QMG_OWN_FEAT_LO f) 0).setReg (R.QMG_OWN_FEAT_HI f) 0).raise 24 3
  else s

/-- A function stops; a Function Level Reset of the physical function takes every virtual one with it (R413). -/
def State.stopWith (s : State) (f : Nat) (flr : Bool) : State :=
  if f = 0 && flr then (List.range 8).foldl (fun s g => s.functionStop g true) s else s.functionStop f flr

/-- The link resets or goes down (R413, R420). [DEDUCED, assumption 46] -/
def State.linkReset (s : State) : State :=
  let up := s.linkUp
  let busy := !s.hbr.ready.isEmpty
  let s := ((s.setReg R.HBR_LINK 0).failReads).discardLines (fun _ => true) 3
  let s := (List.range 8).foldl (fun s g => s.functionStop g true) s
  let s := if up then s.raise 24 2 else s
  if up && busy then s.fault 24 1 [] else s

/-- The link comes up at a generation and a width, and the functions named are enabled with bus mastering.
[DESIGN CHOICE, assumption 87] -/
def State.linkRise (s : State) (speed width : Nat) (fns : List Nat) : State :=
  let s := s.setReg R.HBR_LINK (word (speed % 16 + width % 32 * 16 + 65536))
  (s.setHbr { s.hbr with ready := ((List.range 8).filter fns.contains) }).raise 24 1

/-- An accepted write of HBR_ERR_ACK (R410). -/
def State.hbrAck (s : State) (v : Word) : State := if bitOf v 0 then s.setReg R.HBR_ERR_STATUS 0 else s

/-! ### Commands -/

/-- BAR4_ACCESS (R400). -/
def execBar4Access (write : Bool) (x n : Nat) (bs : Bytes) (s : State) : Host.Outcome State Fault Refusal :=
  .next (if alive s 9 then s.bar4 write x n bs else s.respond .unsupported)

/-- VF_DOORBELL_WRITE (R402). -/
def execVfDoorbellWrite (v j val : Nat) (s : State) : Host.Outcome State Fault Refusal :=
  .next (if alive s 9 && decide (1 ≤ v) && decide (v ≤ 7) && decide (j < 32) then s.vfDoorbell v j val else s)

/-- OUTBOUND_READ (R406). -/
def execOutboundRead (m : Master) (a n : Nat) (s : State) : Host.Outcome State Fault Refusal :=
  .next (if internalMaster s m && decide (0 < n) then s.outRead m a n else s.respond .error)

/-- OUTBOUND_WRITE (R404). -/
def execOutboundWrite (m : Master) (a : Nat) (bs : Bytes) (s : State) : Host.Outcome State Fault Refusal :=
  .next (if internalMaster s m then s.outWrite m a bs else s.respond .error)

/-- OUTBOUND_COMPLETION (R407). -/
def execOutboundCompletion (tag status : Nat) (bs : Bytes) (s : State) : Host.Outcome State Fault Refusal :=
  .next (if alive s 9 then s.completion tag status bs else s)

/-- OUTBOUND_READ_TIMEOUT: reads not completed within 50 ms (R407). -/
def execOutboundReadTimeout (s : State) : Host.Outcome State Fault Refusal :=
  .next <|
    if !alive s 9 then s
    else
      (s.hbr.reads.filter fun r => match r.at_ with | some t => decide (t + 50000000 ≤ s.now) | none => false).foldl
        (fun s r => (((s.endRead r.tag).satCtr 24 1 1).hbrError r.addr r.m.origin true true 6 r.len).respond .error) s

/-- PREFETCH_LINE_EXPIRE: lines held for HOLD_US (R409). -/
def execPrefetchLineExpire (s : State) : Host.Outcome State Fault Refusal :=
  .next (if alive s 9 then
    s.discardLines (fun l => decide (l.at_ + s.regFld R.HBR_PF_CFG 7 0 * 1000 ≤ s.now)) 0 else s)

/-- PCIE_FUNCTION_STOP (R385). -/
def execPcieFunctionStop (f : Nat) (flr : Bool) (s : State) : Host.Outcome State Fault Refusal :=
  .next (if f < 8 then (s.stopWith f flr).settle else s)

/-- PCIE_LINK_RESET (R413). -/
def execPcieLinkReset (s : State) : Host.Outcome State Fault Refusal := .next s.linkReset.settle

/-- PCIE_LINK_UP (R413); `fns` are the functions that the host enables with bus mastering.
[DESIGN CHOICE, assumption 87] -/
def execPcieLinkUp (speed width : Nat) (fns : List Nat) (s : State) : Host.Outcome State Fault Refusal :=
  .next (if alive s 9 then s.linkRise speed width fns else s)

end Sys2Proof.Machine
end

