-- ==== Sys2Proof/Machine/Can.lean ====
section
/-! DEFINITION. The CAN channels: reception, the transmit attempt and its ends, error counters and bus-off
(07_bus_engines.md R210-R222, R234, R235, R237; R252, R266, R268). -/

namespace Sys2Proof.Machine

/-! ### Channels and microengines (R213, R214, R242) -/

/-- Home microengine of CAN channel n. -/
def canHome (n : Nat) : Nat :=
  if n < 8 then n / 2 else if n < 12 then 4 + (n - 8) / 2 else if n < 20 then 8 + (n - 12) / 2 else 12 + (n - 20) / 2

/-- Home microengine of LIN channel n. -/
def linHome (n : Nat) : Nat := if n < 4 then n else n + 4

/-- Domain of a microengine. -/
def meDomain (m : Nat) : Nat := if m < 8 then 13 else 14

/-- A microengine runs: its RUN bit, in a domain that acts (R242). -/
def State.meRuns (s : State) (m : Nat) : Bool := s.regBit R.MEC_CTRL m && alive s (meDomain m)

/-- A session microengine of a domain runs (R214). -/
def State.sessionRuns (s : State) (d : Nat) : Bool :=
  if d = 13 then s.meRuns 6 || s.meRuns 7 else s.meRuns 14 || s.meRuns 15

/-- Domain of CAN channel n. -/
def canDomain (n : Nat) : Nat := portDomain (64 + n)

/-- Replace the hidden state of a channel. -/
def State.setCanCh (s : State) (n : Nat) (c : CanCh) : State :=
  { s with bus := { s.bus with can := kvSet s.bus.can n c } }

/-- A channel takes part in the bus: it exists, its domain acts, and it is neither off nor bus-off. -/
def State.canOn (s : State) (n : Nat) : Bool := n < 24 && alive s (canDomain n) && s.canState n ≤ 1

/-- A channel counts errors: not in bus monitoring or restricted operation (R211). -/
def State.canCounts (s : State) (n : Nat) : Bool :=
  !s.regBit (R.CAN_CFG n) 5 && !s.regBit (R.CAN_CFG n) 6

/-- WARN of a channel: a counter at 96 or more. -/
def CanCh.warn (c : CanCh) : Bool := decide (96 ≤ c.tec) || decide (96 ≤ c.rec_)

/-- Error passive. -/
def CanCh.passive (c : CanCh) : Bool := decide (127 < c.tec) || decide (127 < c.rec_)

/-- Change a channel's counters; bus-off follows a transmit count above 255, and each state entered raises its event
(R213). -/
def State.canCount (s : State) (n : Nat) (f : CanCh → CanCh) : State :=
  let old := s.canCh n
  let c := f old
  let off := !old.busOff && decide (255 < c.tec)
  let c := { c with
    tec := min c.tec 256, rec_ := min c.rec_ 128, busOff := old.busOff || off
    recovering := old.recovering || (off && s.regBit (R.CAN_CFG n) 7) }
  let s := s.setCanCh n c
  let s := if c.warn && !old.warn then s.raise (96 + n) 2 else s
  let s := if c.passive && !old.passive then s.raise (96 + n) 1 else s
  if off then (s.busCount (64 + n) 7).raise (96 + n) 0 else s

/-- CAN_LAST_ERR of an error: its code, and whether it struck in the data phase (R240). -/
def State.canLastErr (s : State) (n code : Nat) (dataPhase : Bool) : State :=
  s.setReg (R.CAN_LAST_ERR n) (word (code % 8 + (if dataPhase then 8 else 0)))

/-- A receive error: REC rises by 1, or by 8 where the standard says so (R213). -/
def State.canRxError (s : State) (n code : Nat) (dataPhase severe : Bool) : State :=
  let s := (s.canLastErr n code dataPhase).busCount (64 + n) 4
  if s.canCounts n then s.canCount n fun c => { c with rec_ := c.rec_ + (if severe then 8 else 1) } else s

/-- The count REC takes after a good frame while error passive: between 119 and 127, which ISO 11898-1 leaves to the
controller. [DEDUCED, assumption 54] -/
def recAfter (k : Nat) : Nat := 119 + (Config.freeWord k).toNat % 9

/-- A frame has been received without error (R213). [DEDUCED, assumption 54] -/
def State.canRxGood (s : State) (n : Nat) : State :=
  if !s.canCounts n then s
  else if 127 < (s.canCh n).rec_ then
    (s.canCount n fun c => { c with rec_ := recAfter s.freeCtr }).tickFree
  else s.canCount n fun c => { c with rec_ := c.rec_ - 1 }

/-! ### Reception (R211, R221, R222, R235) -/

/-- FORMAT of a frame. -/
def kindFormat : CanKind → Nat
  | .classic => 0 | .fd => 1 | .xl => 2

/-- A received frame in its stored form (R216). -/
def storedFrame (f : CanFrame) (n rx : Nat) : Bytes :=
  let xl := f.kind == .xl
  mkBus (idWord (f.id % (if f.ide then 2 ^ 29 else 2 ^ 11)) f.ide f.rtr)
    (busFlags (kindFormat f.kind) f.brs f.esi (xl && f.sec) false) (if xl then f.sdt else 0) (if xl then f.vcid else 0)
    (if xl then 0 else f.dlc % 16) (if xl then f.af % 2 ^ 32 else 0) n 0 rx f.data

/-- The seal entry a received frame matches: key slot and freshness index (R235). -/
def State.rxSeal (s : State) (n : Nat) (bs : Bytes) : Option (Nat × Nat) :=
  ((List.range 512).find? fun k =>
    s.regBit (R.MEC_RXSEAL k 0) 31 && s.regFld (R.MEC_RXSEAL k 0) 29 0 == leAt bs 0 4 % 2 ^ 30 &&
      s.regFld (R.MEC_RXSEAL k 1) 31 27 == n).map fun k =>
    (s.regFld (R.MEC_RXSEAL k 1) 8 0, s.regFld (R.MEC_RXSEAL k 1) 20 9)

/-- Hand an Address Claimed message seen on C0-C3 to the tracker (R195, R222). [DEDUCED, assumption 57] -/
def State.seeClaim (s : State) (n : Nat) (bs : Bytes) : State :=
  let h := busHdr bs
  if n < 4 && h.format ≤ 1 && h.ide && pgnOf h.id == 0xEE00 && h.len == 8 && s.regBit R.TBL_TRACK_CTRL n && alive s 4 then
    s.claim n (h.id % 256) (leAt bs 24 8)
  else s

/-- A stored bus frame seen on a channel goes on to classification and admission, as received there (R171, R222).
[DEDUCED, assumption 57] -/
def State.busTake (s : State) (port : Nat) (bs : Bytes) (rx : List Nat) : State :=
  let s := if port < 96 then s.seeClaim (port - 64) bs else s
  (s.takeFrame ⟨port, true, bs, bs.length, none, .line, false, 0, none, rx⟩ id).2

/-- The home microengine's handling of a received frame: seal, tracker, classification. -/
def State.canHandle (s : State) (n : Nat) (bs : Bytes) (rx : List Nat) : State :=
  match s.rxSeal n bs with
  | none => s.busTake (64 + n) bs rx
  | some (slot, fv) =>
    match s.sealRx slot fv bs with
    | (true, s) => s.busTake (64 + n) (putBytes bs 4 [byte (byteAt bs 4 ||| 64)]) rx
    | (false, s) =>
      let s := (s.busCount (64 + n) 9).raise (96 + n) 4
      match s.busLookup n bs with
      | some h => s.authFail h
      | none => s

/-- A frame becomes valid on a channel (R221); one of a format that PROTO does not enable is not received (R211). -/
def State.canReceive (s : State) (n sof : Nat) (f : CanFrame) : State :=
  if s.canProto n < (kindFormat f.kind) || !canCarries n (kindFormat f.kind) then
    if s.regBit (R.CAN_CFG n) 8 then s.canRxError n 2 false false else s
  else
    let rx := s.latchRx (64 + n) sof
    let bs := storedFrame f n (latchCompact rx (s.regFld (R.CAN_CFG n) 13 12))
    let s := (s.addCtr (96 + n) 1 0 1).canRxGood n
    if busAgrees bs && s.meRuns (canHome n) then s.canHandle n bs rx else s

/-! ### The transmit attempt (R218-R220, R234) -/

/-- A copy's bytes on a CAN channel before composition: what R220 reckons with. -/
def State.canShape (s : State) (c : Copy) : Option Bytes :=
  s.canLine (c.port - 64) (s.frameOf c.frame).bus (c.edits.onBus (s.copyBytes c))

/-- Sessions of a channel that send or gather (R226). -/
def State.txSessions (s : State) (n : Nat) : List TpTx := s.bus.tx.filter fun t => t.ch == n

/-- The head can join a transmit session: its tag has one, or fewer than four run on the channel. -/
def State.sessionRoom (s : State) (n tag : Nat) : Bool :=
  (s.txSessions n).any (fun t => t.tag == tag) || decide ((s.txSessions n).length < 4)

/-- The launch hold lets a copy start: its reckoned duration ends before every other waiting timed head (R220). -/
def State.canRoom (s : State) (c : Copy) : Bool :=
  match s.launchRoom c.port c.queue, s.canShape c with
  | some d, some line => decide (s.canDuration (c.port - 64) line ≤ 2 * d)
  | _, _ => true

/-- A queue of a CAN port is eligible (R145, R218, R220). -/
def State.canEligible (s : State) (p tc : Nat) : Bool :=
  match s.copies (p * 8 + tc) with
  | [] => false
  | c :: _ =>
    (!c.timed || s.untilStart c == 0) && s.canRoom c &&
    (busFormat (s.copyBytes c) != 4 || !(s.frameOf c.frame).bus ||
      s.sessionRoom (p - 64) (byteAt (s.copyBytes c) 15))

/-- LAUNCH_HOLD: a timed head waits, and another head is held for it (R220). -/
def State.launchHold (s : State) (p : Nat) : Bool :=
  (List.range 8).any fun tc => match s.copies (p * 8 + tc) with
    | c :: _ => c.timed && decide (0 < s.untilStart c)
    | [] => false

/-- The channel may start a frame now. -/
def State.canFree (s : State) (n : Nat) : Bool :=
  s.canOn n && alive s 3 && s.meRuns (canHome n) && s.regBit (R.SWC_PCTL (64 + n)) 0 && s.canCounts n &&
    (kvGet? s.swc.tx (64 + n)).isNone

/-- A sealed copy has the length that its seal needs (R234). -/
def sealFits (line : Bytes) : Bool :=
  let h := busHdr line
  (h.format == 1 && 12 ≤ h.len) || (h.format == 2 && 9 ≤ h.len)

/-- A copy as its channel sends it in one attempt: composed, shaped, sealed and judged (R17, R217, R234, R268). -/
def State.wayOutCan (s : State) (c : Copy) : WayOut × State :=
  let p := c.port
  let f := s.frameOf c.frame
  let (b, s) := if c.packed then s.compose c.bank c.packRule f.bytes else (some f.bytes, s)
  match b with
  | none => (.gone 10 true, s)
  | some bs =>
    match s.canLine (p - 64) f.bus (c.edits.onBus bs) with
    | none => (.gone 9 true, s.formatDrop p)
    | some line =>
      if c.protect = 2 && !sealFits line then (.gone 9 true, s.busCount p 10)
      else
        let (line, s) := if c.protect = 2 then s.sealTx c.keySlot line
          else if c.protect = 1 then (none, s) else (some line, s)
        match line with
        | none => (.gone 6 true, s.qCount c.queue 14)
        | some line =>
          match s.guard p ⟨c.ingress, c.stream, line, (busHdr line).len⟩ with
          | (some k, s) => (.gone 8 (k != 1), s)
          | (none, s) => (.sent line, s)

/-- A FORMAT 4 copy goes to the session of its tag (R226). -/
def State.joinSession (s : State) (n : Nat) (c : Copy) : State :=
  let bs := s.copyBytes c
  let tag := byteAt bs 15
  let seg := byteAt bs 5
  let old := (s.bus.tx.find? fun t => t.ch == n && t.tag == tag).getD ⟨n, tag, byteAt bs 6, [], s.now, false, []⟩
  let new := { old with segs := (old.segs.filter fun x => x.1 != seg) ++ [(seg, c)], last := s.now }
  let gone := old.segs.filter fun x => x.1 == seg
  let s := { s with bus := { s.bus with tx := (s.bus.tx.filter fun t => !(t.ch == n && t.tag == tag)) ++ [new] } }
  gone.foldl (fun s x => (s.busCount (64 + n) 12).endCopy x.2 (some 9) true) s

/-- Select on a CAN channel until an attempt starts or nothing is eligible (R218). -/
def State.selectCan (n : Nat) : Nat → State → State
  | 0, s => s
  | k + 1, s =>
    if !s.canFree n then s
    else
      let p := 64 + n
      let s := s.dropPortStale p
      match s.pick p (fun s tc => s.canEligible p tc) (fun s tc =>
        match s.copies (p * 8 + tc) with | c :: _ => (s.copyBytes c).length | [] => 0) with
      | (none, s) => s
      | (some tc, s) =>
        match s.copies (p * 8 + tc) with
        | [] => s
        | c :: rest =>
          let s := s.setCopies (p * 8 + tc) rest
          if (s.frameOf c.frame).bus && busFormat (s.copyBytes c) == 4 then selectCan n k (s.joinSession n c)
          else
            let c := { c with attempts := c.attempts + 1 }
            let s := s.setSwc { s.swc with tx := kvSet s.swc.tx p ⟨c, [], false, false, s.now⟩ }
            match s.wayOutCan c with
            | (.sent line, s) => s.setSwc { s.swc with tx := kvSet s.swc.tx p ⟨c, line, true, false, s.now⟩ }
            | (.gone why clear, s) =>
              selectCan n k ((s.setSwc { s.swc with tx := kvDel s.swc.tx p }).endCopy c (some why) clear)

/-- A frame leaves the wire undelivered: its copy stands at the head of its queue again, unless its port is being purged
(R160, R218, R237). -/
def State.txBack (s : State) (p : Nat) (c : Copy) : State :=
  let s := s.setSwc { s.swc with tx := kvDel s.swc.tx p }
  if s.regBit (R.SWC_PSTAT p) 1 then (s.qCount c.queue 12).endCopy c (some 7) false
  else s.setCopies c.queue (c :: s.copies c.queue)

/-- A transmit error: a failed attempt; the frame is tried again or abandoned (R219). -/
def State.canTxError (s : State) (n code : Nat) (dataPhase exempt : Bool) : State :=
  match kvGet? s.swc.tx (64 + n) with
  | none => s
  | some t =>
    let s := (s.canLastErr n code dataPhase).busCount (64 + n) 4
    let s := if exempt then s else s.canCount n fun c => { c with tec := c.tec + 8 }
    let c := { t.copy with errs := t.copy.errs + 1 }
    let retx := s.regFld (R.CAN_CFG n) 23 16
    if retx ≠ 255 ∧ retx < c.errs then
      ((s.setSwc { s.swc with tx := kvDel s.swc.tx (64 + n) }).busCount (64 + n) 6).endCopy c (some 11) true
    else s.txBack (64 + n) c

/-- TDCV takes the transmitter delay that an FD or XL frame measured, which only the line gives (R212).
[DESIGN CHOICE, assumption 55] -/
def State.delaySeen (s : State) (n : Nat) : State :=
  (s.setFld (R.CAN_STATUS n) 15 8 ((Config.freeWord s.freeCtr).toNat % 256)).tickFree

/-- A frame is sent to the end of its end-of-frame field (R135, R219, R222). -/
def State.canTxDone (s : State) (n : Nat) : State :=
  match kvGet? s.swc.tx (64 + n) with
  | none => s
  | some t =>
    let p := 64 + n
    let c := t.copy
    let len := (s.copyBytes c).length
    let s := (s.emit (.frame p t.line true)).setSwc { s.swc with tx := kvDel s.swc.tx p }
    let s := (s.addCtr 8 (0x1000 + c.queue) 0 1).addCtr 8 (0x1000 + c.queue) 2 len
    let s := (s.addCtr (96 + n) 1 2 1).canCount n fun x => { x with tec := x.tec - 1 }
    let s := s.txStamp c t.start
    let s := if s.regBit (R.CAN_TDC n) 16 && 1 ≤ busFormat t.line then s.delaySeen n else s
    (s.endCopy c none true).seeClaim n t.line

/-- Bus-off recovery starts (R213). [DEDUCED, assumption 56] -/
def State.canRecover (s : State) (n : Nat) : State :=
  let c := s.canCh n
  if s.canState n = 2 then s.setCanCh n { c with recovering := true } else s

/-- Recovery is complete: the channel is error active (R213), and while ALIVE_OUT is stopped it sends its safe-state set at
once (R435). -/
def State.canRecovered (s : State) (n : Nat) : State :=
  let c := s.canCh n
  if s.canState n = 2 ∧ c.recovering then
    let s := (s.setCanCh n CanCh.start).raise (96 + n) 3
    if s.safeDue then s.sendSafeSet (64 + n) else s
  else s

/-! ### Commands -/

/-- CAN_FRAME_RECEIVED (R221): a frame on channel n whose start of frame lies `sof` nanoseconds back. -/
def execCanFrameReceived (n sof : Nat) (f : CanFrame) (s : State) : Host.Outcome State Fault Refusal :=
  .next (if s.canOn n then (s.canReceive n sof f).settle else s)

/-- CAN_RX_ERROR (R213). -/
def execCanRxError (n code : Nat) (dataPhase severe : Bool) (s : State) : Host.Outcome State Fault Refusal :=
  .next (if s.canOn n then s.canRxError n code dataPhase severe else s)

/-- CAN_TX_SELECT (R218). -/
def execCanTxSelect (n : Nat) (s : State) : Host.Outcome State Fault Refusal :=
  .next (State.selectCan n (s.portLoad (64 + n) + 1) s).settle

/-- CAN_ARB_LOST (R219). -/
def execCanArbLost (n : Nat) (s : State) : Host.Outcome State Fault Refusal :=
  .next (if n < 24 then
    (match kvGet? s.swc.tx (64 + n) with
     | some t => ((s.busCount (64 + n) 5).txBack (64 + n) t.copy).settle.safeWaits (64 + n)
     | none => s) else s)

/-- CAN_TX_ERROR (R219). -/
def execCanTxError (n code : Nat) (dataPhase exempt : Bool) (s : State) : Host.Outcome State Fault Refusal :=
  .next (if n < 24 then (s.canTxError n code dataPhase exempt).settle.safeWaits (64 + n) else s)

/-- CAN_TX_COMPLETE (R219). -/
def execCanTxComplete (n : Nat) (s : State) : Host.Outcome State Fault Refusal :=
  .next (if n < 24 then (s.canTxDone n).settle.safeWaits (64 + n) else s)

/-- CAN_BUSOFF_RECOVERED (R213). -/
def execCanBusoffRecovered (n : Nat) (s : State) : Host.Outcome State Fault Refusal :=
  .next (if n < 24 && alive s (canDomain n) then s.canRecovered n else s)

/-- CAN_OFF_HEAD_CHECK (R213). -/
def execCanOffHeadCheck (n : Nat) (s : State) : Host.Outcome State Fault Refusal :=
  .next (if n < 24 && 2 ≤ s.canState n && alive s 3 then (s.dropPortStale (64 + n)).settle else s)

end Sys2Proof.Machine
end

