-- ==== Sys2Proof/Machine/Lin.lean ====
section
/-! DEFINITION. The LIN channels: schedules, slots, response buffers, and the launch of a timed head on any port
(07_bus_engines.md R229-R233, R237; 05_switch_core.md R152). -/

namespace Sys2Proof.Machine

/-! ### Channels -/

/-- Hidden state of a LIN channel. -/
def State.linCh (s : State) (n : Nat) : LinCh := kvGet s.bus.lin n LinCh.start

/-- Replace it. -/
def State.setLinCh (s : State) (n : Nat) (c : LinCh) : State :=
  { s with bus := { s.bus with lin := kvSet s.bus.lin n c } }

/-- A channel is on: it exists, its domain acts and EN = 1. -/
def State.linOn (s : State) (n : Nat) : Bool := n < 8 && alive s (portDomain (96 + n)) && s.regBit (R.LIN_CFG n) 0

/-- DIR of an ID: 1 subscribe, 2 publish. -/
def State.linDir (s : State) (n id : Nat) : Nat := s.regFld (R.LIN_ID n id) 1 0

/-- A response of an ID as a stored frame (R216): received now on channel n. -/
def State.linFrame (s : State) (n id : Nat) (data : Bytes) : Bytes :=
  mkBus (id % 64) 3 0 0 (if s.regBit (R.LIN_ID n id) 6 && id != 0x3C && id != 0x3D then 1 else 0) 0 (24 + n) 0
    (compactOf 2 (s.tbNs 2)) data

/-! ### Schedules (R230, R232) -/

/-- The table and entry that run: those of a collision-resolving pass, or the schedule's. -/
def LinCh.at_ (c : LinCh) : Nat × Nat := match c.pass with | some x => x | none => (c.table, c.entry)

/-- A requested table takes effect (R230). [DEDUCED, assumption 59] -/
def State.linSwitch (s : State) (n : Nat) : State :=
  let c := s.linCh n
  match c.want, c.pass, c.slot with
  | some t, none, none => (s.setLinCh n { c with table := t, entry := 0, want := none }).raise (120 + n) 5
  | _, _, _ => s

/-- The slot in progress ends: the next entry is due, a pass ends after its last one, and a requested table takes
effect. -/
def State.linAdvance (s : State) (n : Nat) : State :=
  let c := { s.linCh n with slot := none }
  let len (t : Nat) := s.regFld (R.LIN_SCHED_LEN n t) 6 0
  let c := match c.pass with
    | some (t, e) => { c with pass := if e + 1 < len t then some (t, e + 1) else none }
    | none => { c with entry := if c.entry + 1 < len c.table then c.entry + 1 else 0 }
  (s.setLinCh n c).linSwitch n

/-- An undelivered copy of the slot goes back to its buffer, or gives way to a newer one there (R231). -/
def State.linBack (s : State) (n : Nat) (x : LinSlot) : State :=
  match x.copy with
  | none => s
  | some c =>
    let ch := s.linCh n
    let b := kvGet ch.bufs x.id ⟨[], false, none⟩
    if b.copy.isSome then (s.busCount (96 + n) 9).endCopy c (some 11) true
    else s.setLinCh n { ch with bufs := kvSet ch.bufs x.id { b with fresh := true, copy := some c } }

/-- End a slot whose frame was not delivered. -/
def State.linFail (s : State) (n : Nat) : State :=
  match (s.linCh n).slot with
  | none => s
  | some x =>
    let s := s.setLinCh n { s.linCh n with slot := none }
    let s := s.linBack n x
    if s.regBit (R.LIN_CFG n) 1 then s.linAdvance n else s

/-! ### Responses (R231) -/

/-- What the gateway answers for a published ID, fixed at the break: the data and the copy it came from; none for a buffer
that has held nothing, a suppressed composition or a refusal by the guard. -/
def State.linData (s : State) (n id : Nat) (freshOnly : Bool) : Option (Bytes × Option Copy) × State :=
  let p := 96 + n
  let ch := s.linCh n
  let judge (s : State) (ingress stream : Nat) (data : Bytes) : Option Nat × State :=
    s.guard p ⟨ingress, stream, s.linFrame n id data, data.length⟩
  let empty (s : State) : Option (Bytes × Option Copy) × State := (none, s.busCount p 8)
  if s.regBit (R.LIN_ID n id) 7 && !freshOnly then
    let rule := s.regFld (R.LIN_ID n id) 20 8
    match s.compose s.sig.bank rule (s.template rule) with
    | (none, s) => (none, s)
    | (some bs, s) =>
      match judge s 56 0 (busData bs) with
      | (some _, s) => (none, s)
      | (none, s) => (some (busData bs, none), s)
  else
    match kvGet? ch.bufs id with
    | none => empty s
    | some b =>
      match b.copy with
      | none =>
        if b.data.isEmpty then empty s
        else if freshOnly then (none, s)
        else match judge s p 0 b.data with
          | (some _, s) => (none, s)
          | (none, s) => (some (b.data, none), s)
      | some c =>
        let take (s : State) (d : Bytes) : State :=
          s.setLinCh n { s.linCh n with bufs := kvSet (s.linCh n).bufs id ⟨d, false, none⟩ }
        let (d, s) := if c.packed then
            let (x, s) := s.compose c.bank c.packRule (s.copyBytes c)
            (x.map busData, s)
          else (some b.data, s)
        match d with
        | none => (none, (take s b.data).endCopy c (some 10) true)
        | some d =>
          match judge s c.ingress c.stream d with
          | (some k, s) => (none, (take s d).endCopy c (some 8) (k != 1))
          | (none, s) => (some (d, some c), take s d)

/-- A header of a published ID: the slot carries the answer, if there is one. -/
def State.linPublish (s : State) (n id type_ crt : Nat) (freshOnly : Bool) : State :=
  let (d, s) := s.linData n id freshOnly
  s.setLinCh n { s.linCh n with slot := some ⟨id, type_, crt, d.map (·.1), d.bind (·.2), s.now⟩ }

/-- A slot of the schedule begins (R230, R231). -/
def State.linStart (s : State) (n : Nat) : State :=
  let s := s.linFail n
  let c := s.linCh n
  let (t, e) := c.at_
  if s.regFld (R.LIN_SCHED_LEN n t) 6 0 = 0 then
    (if c.pass.isSome then s.linAdvance n else s)
  else
    let w := s.reg (R.LIN_SCH n t e)
    let id := fld w 5 0
    let crt := fld w 13 12
    let wait (id ty : Nat) := s.setLinCh n { c with slot := some ⟨id, ty, crt, none, none, s.now⟩ }
    match fld w 10 8 with
    | 1 => if s.linDir n id = 2 then s.linPublish n id 1 crt false else wait id 1
    | 2 => wait id 2
    | 3 => s.linPublish n id 3 crt true
    | 4 => s.linPublish n 0x3C 4 crt true
    | 5 => wait 0x3D 5
    | _ => wait 0 0

/-- A header received by a slave channel (R232). -/
def State.linHeader (s : State) (n id : Nat) : State :=
  let s := s.linFail n
  match s.linDir n id with
  | 2 => s.linPublish n id 1 0 false
  | 1 => s.setLinCh n { s.linCh n with slot := some ⟨id, 1, 0, none, none, s.now⟩ }
  | _ => s

/-- The slot's frame is complete: its copy completes (R135, R231). -/
def State.linDone (s : State) (n : Nat) : State :=
  match (s.linCh n).slot with
  | none => s
  | some x =>
    let p := 96 + n
    let s := s.setLinCh n { s.linCh n with slot := none }
    let s := match x.data with
      | some d => (s.emit (.frame p (s.linFrame n x.id d) true)).addCtr (120 + n) 1 2 1
      | none => s
    let s := match x.copy with
      | some c =>
        let len := (s.copyBytes c).length
        ((s.addCtr 8 (0x1000 + c.queue) 0 1).addCtr 8 (0x1000 + c.queue) 2 len).endCopy c none true
      | none => s
    if s.regBit (R.LIN_CFG n) 1 then s.linAdvance n else s

/-- A good response in a slot whose break began at `start`: stored under its ID, unpacked and classified (R232, R292).
[DEDUCED, assumption 152] -/
def State.linStore (s : State) (n id : Nat) (data : Bytes) (start : Nat) : State :=
  let rx := s.latchRx (96 + n) (s.now - start)
  let c := s.linCh n
  let s := s.setLinCh n { c with bufs := kvSet c.bufs id ⟨data, false, (kvGet c.bufs id ⟨[], false, none⟩).copy⟩ }
  let s := s.addCtr (120 + n) 1 0 1
  if s.meRuns (linHome n) then s.busTake (96 + n) (putBytes (s.linFrame n id data) 16 (leBytes 8 (latchCompact rx 2))) rx else s

/-- A response in the slot of a header, by its outcome: 0 good, 1 checksum error, 2 none, 3 collision, 4 bit error, 5 sync
error (R232, R241). -/
def State.linResponse (s : State) (n : Nat) (data : Bytes) (outcome : Nat) : State :=
  match (s.linCh n).slot with
  | none => s
  | some x =>
    let p := 96 + n
    let event := x.type_ == 2
    let hears := event || x.type_ == 5 || s.linDir n x.id == 1
    let s := if !hears then s
      else match outcome with
        | 0 => if data.isEmpty || 8 < data.length then s
               else s.linStore n (if event then byteAt data 0 % 64 else x.id) data x.at_
        | 1 => (s.busCount p 5).raise (120 + n) 1
        | 2 => if event then s else (s.busCount p 4).raise (120 + n) 0
        | 3 => if event then (s.busCount p 10).raise (120 + n) 2 else s
        | 4 => s.busCount p 6
        | _ => s.busCount p 7
    let s := s.linFail n
    if event && outcome == 3 && s.regBit (R.LIN_CFG n) 1 then
      s.setLinCh n { s.linCh n with pass := some (x.crt, 0) }
    else s

/-! ### Copies (R231) -/

/-- A queue of a LIN port is eligible. -/
def State.linEligible (s : State) (p tc : Nat) : Bool :=
  match s.copies (p * 8 + tc) with
  | [] => false
  | c :: _ => !c.timed || s.untilStart c == 0

/-- Take the next eligible copy into the buffer of its ID; an unsent older one gives way. -/
def State.linTake (s : State) (n : Nat) : State :=
  let p := 96 + n
  let s := s.dropPortStale p
  match s.pick p (fun s tc => s.linEligible p tc) (fun s tc =>
    match s.copies (p * 8 + tc) with | c :: _ => (s.copyBytes c).length | [] => 0) with
  | (none, s) => s
  | (some tc, s) =>
    match s.copies (p * 8 + tc) with
    | [] => s
    | c :: rest =>
      let s := s.setCopies (p * 8 + tc) rest
      let bs := s.copyBytes c
      if !(s.frameOf c.frame).bus || busFormat bs != 3 || !busAgrees bs then (s.formatDrop p).endCopy c (some 9) true
      else if c.protect = 1 then (s.qCount c.queue 14).endCopy c (some 6) true
      else
        let id := (busHdr bs).id % 64
        let old := kvGet (s.linCh n).bufs id ⟨[], false, none⟩
        let s := match old.copy with
          | some o => (s.busCount p 9).endCopy o (some 11) true
          | none => s
        s.setLinCh n { s.linCh n with bufs := kvSet (s.linCh n).bufs id ⟨busData bs, true, some c⟩ }

/-- The launch of a timed head: the port that can start it selects (R152, R220, R231). -/
def State.launchDue (s : State) (q : Nat) : State :=
  let p := q / 8
  match s.copies q with
  | [] => s
  | c :: _ =>
    if !c.timed || s.untilStart c != 0 then s
    else if p < 29 then State.selectEth p (s.portLoad p + 1) s
    else if 64 ≤ p ∧ p < 88 then State.selectCan (p - 64) (s.portLoad p + 1) s
    else if 96 ≤ p ∧ p < 104 && s.linOn (p - 96) && alive s 3 then s.linTake (p - 96)
    else s

/-! ### Commands -/

/-- LIN_SLOT_START (R230). -/
def execLinSlotStart (n : Nat) (s : State) : Host.Outcome State Fault Refusal :=
  .next (if s.linOn n && s.regBit (R.LIN_CFG n) 1 && s.regBit (R.LIN_SCHED_CTRL n) 2 && s.meRuns (linHome n) then
    (s.linStart n).settle else s)

/-- LIN_BUFFER_TAKE (R231). -/
def execLinBufferTake (n : Nat) (s : State) : Host.Outcome State Fault Refusal :=
  .next (if s.linOn n && alive s 3 && s.meRuns (linHome n) && s.regBit (R.SWC_PCTL (96 + n)) 0 then
    (s.linTake n).settle else s)

/-- LIN_HEADER_RECEIVED (R232). -/
def execLinHeaderReceived (n id : Nat) (s : State) : Host.Outcome State Fault Refusal :=
  .next (if s.linOn n && !s.regBit (R.LIN_CFG n) 1 && id < 64 && s.meRuns (linHome n) then (s.linHeader n id).settle
    else s)

/-- LIN_RESPONSE_RECEIVED (R232). -/
def execLinResponseReceived (n outcome : Nat) (data : Bytes) (s : State) : Host.Outcome State Fault Refusal :=
  .next (if s.linOn n then (s.linResponse n data outcome).settle.safeWaits (96 + n) else s)

/-- LIN_FRAME_COMPLETE (R231). -/
def execLinFrameComplete (n : Nat) (s : State) : Host.Outcome State Fault Refusal :=
  .next (if s.linOn n then (s.linDone n).settle.safeWaits (96 + n) else s)

/-- LIN_WAKE_RX (R233). -/
def execLinWakeRx (n : Nat) (s : State) : Host.Outcome State Fault Refusal :=
  .next (if s.linOn n then s.raise (120 + n) 3 else s)

/-- LIN_BUS_IDLE (R233). -/
def execLinBusIdle (n : Nat) (s : State) : Host.Outcome State Fault Refusal :=
  .next (if s.linOn n then s.raise (120 + n) 4 else s)

/-- TIMED_LAUNCH_DUE (R152). -/
def execTimedLaunchDue (q : Nat) (s : State) : Host.Outcome State Fault Refusal :=
  .next (s.launchDue q).settle

end Sys2Proof.Machine
end

