-- ==== Sys2Proof/Machine/Time.lean ====
section
/-! DEFINITION. Time bases: servo, hold, peer delay, offset engines, GNSS, PPS and TB3 (09_time.md R286-R322). Offsets and
values are in 2^-32 ns unless a definition says otherwise. -/

namespace Sys2Proof.Machine

/-- Replace the time bases' hidden state. -/
def State.setTim (s : State) (x : Tim) : State := { s with tim := x }

/-! ### Rate and counting (R287, R301, R310, R311) -/

/-- Limit of RATE, in 1/256 ppb. -/
def State.rlim (s : State) (n : Nat) : Int := (s.regFld (R.TIM_TB_RLIM n) 9 0 * 256000 : Nat)

/-- TB3's RATE follows TB2 while FOLLOW = 1 and TB2 is locked, clipped to 100 ppm; with FOLLOW = 0 it is TIM_TB3_RATE
(R310). -/
def State.followTb3 (s : State) : State :=
  let b := s.tim.tb3
  let r :=
    if !s.regBit R.TIM_TB3_CFG 0 then signed 32 (s.reg R.TIM_TB3_RATE).toNat
    else if s.tim.tb2.locked then clampI (-25600000) 25600000 s.tim.tb2.rate
    else b.rate
  s.setTb 3 { b with rate := r }

/-- What a tick of `step` (2^-32 ns) adds at a rate in 1/256 ppb. -/
def tickAdd (step : Nat) (rate : Int) : Nat := (step : Int) * (256000000000 + rate) / 256000000000 |>.toNat

/-- One tick of every base that runs: 4 ns of the counting clock, TB3 one 32,768 Hz tick while the reference is away or
the module sleeps (R287, R311); operating time counts in RUN and BATTERY-RUN (R609).
[DESIGN CHOICE, assumption 3 and 144; DEDUCED, assumption 73] -/
def State.tick (s : State) : State :=
  let slow := !s.tim.refOk || s.pwr.mode == .sleep
  let run (s : State) (n : Nat) : State :=
    if s.regBit (R.TIM_TB_CFG n) 0 && s.tim.refOk && powered s 15 then
      let b := s.tb n
      s.setTb n { b with val := b.val + tickAdd (4 * frac32) b.rate }
    else s
  let b := s.tim.tb3
  let add := if slow then tickAdd (tickAdd (30517 * frac32 + 0x9400 * 65536) s.tim.ratio) b.rate
    else tickAdd (4 * frac32) b.rate
  let s := (run (run (run s 0) 1) 2).setTb 3 { b with val := b.val + add }
  if s.pwr.mode == .run || s.pwr.mode == .batteryRun then
    { s with pwr := { s.pwr with runNs := s.pwr.runNs + (if slow then 30518 else 4) } }
  else s

/-! ### Lock, hold and release (R303-R306) -/

/-- Keep the last four. -/
def last4 (l : List Int) : List Int := l.drop (l.length - 4)

/-- A HOLD of a base ends without TB2: unresolved where the base follows a slave port (R305).
[DEDUCED, assumption 71] -/
def State.releaseBlind (s : State) (n : Nat) : State :=
  let b := s.tb n
  if s.regFld (R.TIM_TB_CFG n) 2 1 ≠ 0 then s.setTb n { b with hold := false, asymAlarm := false }
  else (s.setTb n { b with hold := false, asymAlarm := false, asymUnres := true }).raise 20 4

/-- Lock of a base is won or lost; a loss of TB2's lock releases the bases in HOLD (R317). -/
def State.setLocked (s : State) (n : Nat) (v : Bool) : State :=
  let b := s.tb n
  if b.locked == v then s
  else
    let s := (s.setTb n { b with locked := v }).raise 20 1
    if n = 2 ∧ !v then [0, 1].foldl (fun s k => if (s.tb k).hold then s.releaseBlind k else s) s else s

/-- Step a base by a signed amount: STEP_GEN advances and lock is lost (R301-R303). -/
def State.stepBase (s : State) (n : Nat) (d : Int) : State :=
  let b := s.tb n
  let s := s.setTb n { b with val := (b.val + d).toNat, gen := b.gen + 1, lockCnt := 0 }
  (((s.setLocked n false).satCtr 20 (0x10 + n) 5).raise 20 0).pleBaseStep n d

/-- Enter HOLD, or restart its timer (R304, R317). [DEDUCED, assumption 71] -/
def State.enterHold (s : State) (n : Nat) : State :=
  let b := s.tb n
  if b.hold then s.setTb n { b with holdAt := s.now }
  else ((s.setTb n { b with hold := true, holdAt := s.now, during := [], asymWritten := false }).satCtr 20 (0x10 + n) 6).raise
    20 2

/-- Record a sample: u is the offset less the distance to TB2 at the capture (R301). [DEDUCED, assumption 70] -/
def State.noteSample (s : State) (n : Nat) (off : Int) (l : List Nat) : State :=
  let b := s.tb n
  let u := off - (((l.getD n 0 : Nat) : Int) - (l.getD 2 0 : Nat))
  let b := { b with lastOff := off, lastSample := s.now, sampled := true, holdover := false }
  let b := if b.hold then { b with during := last4 (b.during ++ [u]) }
    else { b with pre := last4 (b.pre ++ [u]), tb2Locked := s.tim.tb2.locked }
  (s.setTb n b).satCtr 20 (0x10 + n) 4

/-- Lock after an applied sample (R303). [DEDUCED, assumption 70] -/
def State.lockStep (s : State) (n : Nat) (off : Int) : State :=
  let b := s.tb n
  let w := s.reg (R.TIM_TB_LOCK n)
  if off.natAbs ≤ fld w 15 0 * frac32 then
    let k := b.lockCnt + 1
    let s := s.setTb n { b with lockCnt := min k 255, unlockCnt := 0 }
    if fld w 23 16 ≤ k then s.setLocked n true else s
  else
    let k := b.unlockCnt + 1
    let s := s.setTb n { b with lockCnt := 0, unlockCnt := min k 255 }
    if fld w 23 16 ≤ k then s.setLocked n false else s

/-- One sample of base n at the capture l (R301). [DEDUCED, assumption 70] -/
def State.servo (s : State) (n : Nat) (off : Int) (l : List Nat) : State :=
  let s := s.noteSample n off l
  let b := s.tb n
  let lim := s.regFld (R.TIM_TB_STEP n) 23 0 * frac32
  if b.hold || b.foxHold then s
  else if 0 < lim ∧ lim < off.natAbs then
    if 2 ≤ b.big + 1 then (s.setTb n { b with big := 0 }).stepBase n (-off)
    else s.setTb n { b with big := b.big + 1 }
  else
    let kp : Int := (s.reg (R.TIM_TB_KP n)).toNat
    let ki : Int := (s.reg (R.TIM_TB_KI n)).toNat
    let r := s.rlim n
    let i := clampI (-r) r (roundDiv (b.integ * 2 ^ 40 - ki * off) (2 ^ 40))
    let rate := clampI (-r) r (roundDiv (i * 2 ^ 40 - kp * off) (2 ^ 40))
    let s := (s.setTb n { b with big := 0, integ := i, rate := rate }).lockStep n off
    if n = 2 then s.followTb3 else s

/-- A correction of A (a fraction over `den`) is added to the slave port's ASYM by the policy engine, and recorded
(R305, R306). -/
def State.applyAsym (s : State) (n : Nat) (num : Int) (den : Nat) : State :=
  let p := s.regFld (R.TIM_TB_CFG n) 10 4
  let a := R.TIM_PORT_ASYM p
  let old := s.reg a
  let new := word (unsigned 32 (clampI (-2147483648) 2147483647 (signed 32 old.toNat + roundDiv num (den * 65536))))
  let s := (s.setReg a new).logFox a old new
  let b := s.tb n
  ((s.setTb n { b with hold := false, asymUnres := false }).satCtr 20 (0x10 + n) 7).raise 20 3

/-- The end of a HOLD whose time has passed and which has recorded two samples (R305). [DEDUCED, assumption 71] -/
def State.releaseHold (s : State) (n : Nat) : State :=
  let b := s.tb n
  if s.regFld (R.TIM_TB_CFG n) 2 1 ≠ 0 then s.setTb n { b with hold := false }
  else if b.pre.isEmpty || !(b.tb2Locked && s.tim.tb2.locked && s.regBit (R.TIM_TB_CFG n) 24) then s.releaseBlind n
  else
    let num := b.during.sum * b.pre.length - b.pre.sum * b.during.length
    let den := b.during.length * b.pre.length
    if num.natAbs ≤ s.regFld (R.TIM_TB_ASYM_LIM n) 15 0 * frac32 * den then s.applyAsym n num den
    else (s.setTb n { b with asymAlarm := true }).fault 20 1 []

/-- TIM_TBn_CMD.RELEASE (R306). -/
def State.releaseNow (s : State) (n : Nat) : State :=
  let b := s.tb n
  if !b.hold then s
  else if b.asymWritten || s.regFld (R.TIM_TB_CFG n) 2 1 != 0 then s.setTb n { b with hold := false, asymAlarm := false }
  else s.releaseBlind n

/-- ADJ_S and ADJ_NS of a base, in nanoseconds. -/
def State.adjNs (s : State) (n : Nat) : Int :=
  signed 64 ((s.reg (R.TIM_TB_ADJ_S n 0)).toNat + (s.reg (R.TIM_TB_ADJ_S n 1)).toNat * 2 ^ 32) * giga +
    signed 32 (s.reg (R.TIM_TB_ADJ_NS n)).toNat

/-- A write of TIM_TBn_CMD is accepted (R302). -/
def State.tbCmdOk (s : State) (n : Nat) (v : Word) : Bool :=
  !bitOf v 0 ||
  ((signed 32 (s.reg (R.TIM_TB_ADJ_NS n)).toNat).natAbs < giga &&
    decide (0 ≤ (s.tb n).val + s.adjNs n * frac32))

/-- An accepted write of TIM_TBn_CMD: STEP, HOLD, RELEASE, CLR_UNRES in that order. [DEDUCED, assumption 41] -/
def State.tbCmd (s : State) (n : Nat) (v : Word) : State :=
  let s := if bitOf v 0 then s.stepBase n (s.adjNs n * frac32) else s
  let s := if bitOf v 1 then s.enterHold n else s
  let s := if bitOf v 2 then s.releaseNow n else s
  if bitOf v 3 then s.setTb n { s.tb n with asymUnres := false } else s

/-- A written TIM_TBn_RATE is the RATE in force (R302). -/
def State.rateWritten (s : State) (n : Nat) (v : Word) : State := s.setTb n { s.tb n with rate := signed 32 v.toNat }

/-- A software sample (R300). -/
def State.ofsIn (s : State) (n : Nat) (v : Word) : State := s.servo n (signed 32 v.toNat * 2 ^ 28) (s.latch 0)

/-- Software wrote a slave port's ASYM (R306). -/
def State.asymWrite (s : State) (p : Nat) : State :=
  [0, 1, 2].foldl (fun s n =>
    if (s.tb n).hold && s.regFld (R.TIM_TB_CFG n) 10 4 == p then s.setTb n { s.tb n with asymWritten := true } else s) s

/-! ### Peer delay (R296, R297) -/

/-- A port's peer delay. [DEDUCED, assumption 135] -/
def State.portDelay (s : State) (p : Nat) : PortDelay := kvGet s.tim.pd p PortDelay.none

/-- Replace a port's peer delay. -/
def State.setPd (s : State) (p : Nat) (x : PortDelay) : State := s.setTim { s.tim with pd := kvSet s.tim.pd p x }

/-- The peer-delay engine of a port runs. -/
def State.pdOn (s : State) (p : Nat) : Bool :=
  (p < 24 || p == 28) && s.regBit (R.TIM_PORT_CFG p) 3 && s.regBit R.TIM_CTRL 1 && alive s 15 &&
  (kvGet? s.swc.link p).isSome

/-- A new SLAVE_PORT of a base that follows one: HOLD where the link delays differ or are not valid, and a running HOLD
starts its timer anew (R298, R317). [DEDUCED, assumption 135] -/
def State.slavePortWritten (s : State) (n : Nat) (old new : Word) : State :=
  let p := fld old 10 4
  let q := fld new 10 4
  if p = q then s
  else if (s.tb n).hold then s.enterHold n
  else if fld old 2 1 ≠ 0 ∨ fld new 2 1 ≠ 0 then s
  else
    let a := s.portDelay p
    let b := s.portDelay q
    let thr : Int := (s.regFld (R.TIM_PORT_STEP_THR q) 15 0 * 65536 : Nat)
    if !a.valid || !b.valid || thr < (a.mld - b.mld).natAbs then s.enterHold n else s

/-- The link delay of a port's path has stepped (R298). -/
def State.pathStep (s : State) (p : Nat) : State :=
  let s := (s.satCtr 20 (0x100 + p) 5).raise 20 7
  [0, 1].foldl (fun s n =>
    let c := s.reg (R.TIM_TB_CFG n)
    if fld c 2 1 == 0 && fld c 10 4 == p then s.enterHold n else s) s

/-- A completed exchange with t1-t4 in 2^-16 ns, t1 and t4 on TB3 (R297). [DEDUCED, assumption 69] -/
def State.pdSample (s : State) (p t1 t2 t3 t4 : Nat) : State :=
  let x := s.portDelay p
  let nrr : Nat := match x.lastT3T4 with
    | some (a, b) => if a < t3 ∧ b < t4 then ((t3 - a) * 2 ^ 32 + (t4 - b) / 2) / (t4 - b) else x.nrr
    | none => x.nrr
  let d := roundDiv ((((t4 : Int) - t1) * nrr) - ((t3 : Int) - t2) * 2 ^ 32) (2 ^ 33)
  let x := { x with nrr := nrr, lastT3T4 := some (t3, t4), lost := 0, out := false }
  let s := (s.satCtr 20 (0x100 + p) 3).satCtr 20 (0x100 + p) 6
  let thr := s.regFld (R.TIM_PORT_STEP_THR p) 15 0 * 65536
  if !x.valid then s.setPd p { x with mld := d, valid := true }
  else if thr < (d - x.mld).natAbs then
    if x.step then (s.setPd p { x with mld := roundDiv (d + x.dPrev) 2, step := false }).pathStep p
    else s.setPd p { x with step := true, dPrev := d }
  else s.setPd p { x with step := false, mld := x.mld + roundDiv (d - x.mld) (2 ^ s.regFld (R.TIM_PORT_CFG p) 18 16) }

/-- A captured instant in 2^-16 ns at the 250 ps resolution of a timestamp (R289). [DEDUCED, assumption 69] -/
def captured (v : Nat) : Nat := v / 65536 / 0x4000 * 0x4000

/-- clockIdentity and port number of a gateway port (R296). -/
def State.portIdentity (s : State) (p : Nat) : Bytes :=
  beBytes 4 (s.reg (R.TIM_CLKID 1)).toNat ++ beBytes 4 (s.reg (R.TIM_CLKID 0)).toNat ++ beBytes 2 (p + 1)

/-- Source address of a port's peer-delay messages: TIM_PD_MAC + p, with carry from the last byte (R296). -/
def State.pdMac (s : State) (p : Nat) : Bytes :=
  let base := leBytes 4 (s.reg R.TIM_PD_MAC_LO).toNat ++ leBytes 2 (s.regFld R.TIM_PD_MAC_HI 15 0)
  beBytes 6 ((beVal base + p) % 2 ^ 48)

/-- A peer-delay message of the gateway on a port, in the layout of IEEE 802.1AS-2020: message type, correctionField,
sequenceId, control and log interval, then the body of 20 bytes. [PRESUMED, assumption 136] -/
def State.pdMessage (s : State) (p type_ seq control interval : Nat) (corr : Nat) (flags : Bytes) (body : Bytes) : Bytes :=
  [0x01#8, 0x80, 0xC2, 0, 0, 0x0E] ++ s.pdMac p ++ [0x88#8, 0xF7] ++
    [byte (0x20 + type_), 0x12, 0, 54, 0, 0] ++ flags ++ beBytes 8 corr ++ [0, 0, 0, 0] ++ s.portIdentity p ++
    beBytes 2 seq ++ [byte control, byte interval] ++ body

/-- A PTP timestamp of 10 bytes from 2^-16 ns. [PRESUMED, assumption 136] -/
def ptpStamp (v : Nat) : Bytes := beBytes 6 (v / 65536 / giga) ++ beBytes 4 (v / 65536 % giga)

/-- PDELAY_REQ_SEND: the engine originates Pdelay_Req (R296). -/
def execPdelayReqSend (p : Nat) (s : State) : Host.Outcome State Fault Refusal :=
  .next <|
    if !s.pdOn p then s
    else
      let x := s.portDelay p
      let seq := (x.seqId + 1) % 65536
      let f := s.pdMessage p 2 seq 5 (s.regFld (R.TIM_PORT_CFG p) 15 8) 0 [0, 0] (List.replicate 20 0)
      ((s.setPd p { x with seqId := seq, out := true }).emit (.frame p f true)).satCtr 20 (0x100 + p) 7

/-- PDELAY_REQ_RECEIVED: Pdelay_Resp and Pdelay_Resp_Follow_Up answer a request of a peer (R296). -/
def execPdelayReqReceived (p seq ago : Nat) (peer : Bytes) (s : State) : Host.Outcome State Fault Refusal :=
  .next <|
    if !s.pdOn p then s
    else
      let lat := s.reg (R.TIM_PORT_LAT p)
      let t2 := captured (s.tim.tb3.val - ago * frac32) - fld lat 31 16 * 0x4000
      let t3 := captured s.tim.tb3.val + fld lat 15 0 * 0x4000
      let who := slice peer 0 10
      let s := s.satCtr 20 (0x100 + p) 6
      let r := s.pdMessage p 3 (seq % 65536) 5 0x7F (t2 % 65536) [2, 0] (ptpStamp t2 ++ who)
      let u := s.pdMessage p 0xA (seq % 65536) 5 0x7F (t3 % 65536) [0, 0] (ptpStamp t3 ++ who)
      ((s.emit (.frame p r true)).emit (.frame p u true)).satCtr 20 (0x100 + p) 7

/-- PDELAY_SAMPLE: an exchange is complete, with its corrected timestamps in 2^-16 ns (R297). -/
def execPdelaySample (p t1 t2 t3 t4 : Nat) (s : State) : Host.Outcome State Fault Refusal :=
  .next (if s.pdOn p && (s.portDelay p).out then s.pdSample p t1 t2 t3 t4 else s)

/-- PDELAY_RESPONSE_TIMEOUT: the exchange had no response; three in a row clear PD_VALID (R297). -/
def execPdelayResponseTimeout (p : Nat) (s : State) : Host.Outcome State Fault Refusal :=
  .next <|
    let x := s.portDelay p
    if s.pdOn p && x.out then
      let k := x.lost + 1
      let x := { x with lost := min k 3, out := false }
      (s.setPd p (if 3 ≤ k then { x with valid := false, step := false, lastT3T4 := none } else x)).satCtr 20 (0x100 + p) 4
    else s

/-! ### Offset engines (R299) -/

/-- The base whose offset engine takes Sync of a domain on a port. -/
def State.syncBase (s : State) (p domain : Nat) : Option Nat :=
  if !s.regBit R.TIM_CTRL 0 || !alive s 15 then none
  else [0, 1].find? fun n =>
    let c := s.reg (R.TIM_TB_CFG n)
    fld c 2 1 == 0 && fld c 10 4 == p && fld c 23 16 == domain

/-- A complete Sync: origin and correction in 2^-16 ns, csro the cumulativeScaledRateOffset of the information TLV, l the
bases at its capture. No sample is formed while the port's PD_VALID is 0. [DEDUCED, assumption 69] -/
def State.syncSample (s : State) (n p origin : Nat) (corr csro : Int) (l : List Nat) : State :=
  let d := s.portDelay p
  if !d.valid then s
  else
    let rx : Int := (captured (l.getD n 0) : Int) - (s.regFld (R.TIM_PORT_LAT p) 31 16 * 0x4000 : Nat)
    let delay := roundDiv (d.mld * (2 ^ 41 + csro) * d.nrr) (2 ^ 57)
    let off := (rx - origin - corr - signed 32 (s.reg (R.TIM_PORT_ASYM p)).toNat) * 65536 - delay
    s.servo n off l

/-- SYNC_RECEIVED: a Sync on port p, captured `ago` nanoseconds back; a two-step one awaits its Follow_Up (R299). -/
def execSyncReceived (p domain seq ago : Nat) (twoStep : Bool) (origin : Nat) (corr csro : Int) (s : State) :
    Host.Outcome State Fault Refusal :=
  .next <|
    match s.syncBase p domain with
    | none => s
    | some n =>
      let s := s.satCtr 20 (0x100 + p) 6
      if twoStep then s.setTim { s.tim with sync := kvSet s.tim.sync n ⟨seq, s.latch ago, corr, s.now⟩ }
      else s.syncSample n p origin corr csro (s.latch ago)

/-- FOLLOW_UP_RECEIVED: the Follow_Up of the Sync that waits, within 1 s of it (R299). -/
def execFollowUpReceived (p domain seq origin : Nat) (corr csro : Int) (s : State) : Host.Outcome State Fault Refusal :=
  .next <|
    match s.syncBase p domain with
    | none => s
    | some n =>
      match kvGet? s.tim.sync n with
      | none => s
      | some w =>
        if w.seqId ≠ seq then s
        else
          let s := s.setTim { s.tim with sync := kvDel s.tim.sync n }
          if w.at3 + giga < s.now then s else s.syncSample n p origin (corr + w.corr) csro w.at_

/-- FOLLOW_UP_TIMEOUT: a Sync without its Follow_Up for 1 s is discarded (R299). -/
def execFollowUpTimeout (n : Nat) (s : State) : Host.Outcome State Fault Refusal :=
  .next <|
    match kvGet? s.tim.sync n with
    | some w => if w.at3 + giga ≤ s.now then s.setTim { s.tim with sync := kvDel s.tim.sync n } else s
    | none => s

/-- SERVO_HOLDOVER: no sample for TIMEOUT_MS (R303). -/
def execServoHoldover (n : Nat) (s : State) : Host.Outcome State Fault Refusal :=
  .next <|
    let b := s.tb n
    let t := s.regFld (R.TIM_TB_HOLD n) 31 16 * 1000000
    if n < 3 ∧ 0 < t ∧ b.sampled ∧ !b.holdover ∧ b.lastSample + t ≤ s.now ∧ alive s 15 then
      (s.setTb n { b with holdover := true, lockCnt := 0, unlockCnt := 0 }).setLocked n false
    else s

/-- HOLD_RELEASE: HOLD_MS has passed and two samples were recorded (R305). -/
def execHoldRelease (n : Nat) (s : State) : Host.Outcome State Fault Refusal :=
  .next <|
    let b := s.tb n
    if n < 3 ∧ b.hold ∧ !b.asymAlarm ∧ 2 ≤ b.during.length ∧ alive s 15 ∧
        b.holdAt + s.regFld (R.TIM_TB_HOLD n) 15 0 * 1000000 ≤ s.now then s.releaseHold n
    else s

/-! ### GNSS (R307, R308) -/

/-- TB2 takes PPS_IN and ZDA. -/
def State.ppsOn (s : State) : Bool :=
  s.regFld (R.TIM_TB_CFG 2) 2 1 == 2 && s.regBit R.TIM_PPS_CFG 0 && alive s 15

/-- A sample of TB2 at an edge. -/
def State.ppsSample (s : State) (edge : Nat) (off : Int) : State :=
  s.servo 2 off [edge, edge, edge, edge]

/-- The sample of an edge paired with a UTC second (R308). -/
def State.ppsPair (s : State) (edge utc : Nat) : State :=
  let s := s.setTim { s.tim with ppsDone := true, zda := none, pairAt := some s.now }
  s.ppsSample edge ((edge : Int) - ((utc + s.regFld R.TIM_UTC_OFS 7 0) * giga * frac32 : Nat))

/-- The last edge had no sentence: while TB2 is locked its nanoseconds, folded, are the sample (R308). -/
def State.ppsAlone (s : State) : State :=
  match s.tim.pps with
  | some (_, edge) =>
    if s.tim.ppsDone then s
    else
      let s := s.setTim { s.tim with ppsDone := true }
      if s.tim.tb2.locked then
        let ns := edge % (giga * frac32)
        s.ppsSample edge (if ns < 500000000 * frac32 then (ns : Int) else (ns : Int) - (giga * frac32 : Nat))
      else s
  | none => s

/-- PPS_EDGE: an edge of PPS_IN `ago` nanoseconds back (R307). -/
def execPpsEdge (rising : Bool) (ago : Nat) (s : State) : Host.Outcome State Fault Refusal :=
  .next <|
    if !s.ppsOn || rising == s.regBit R.TIM_PPS_CFG 1 then s
    else
      let at3 := s.now - ago
      let early := match s.tim.pps with
        | some (t, _) => decide (at3 < t + 500000000)
        | none => false
      if early then s.satCtr 20 0x200 5
      else
        let s := s.ppsAlone
        let edge := s.tim.tb2.val - (ago + s.regFld R.TIM_PPS_CFG 31 16) * frac32
        let s := (s.setTim { s.tim with pps := some (at3, edge), ppsDone := false, ppsLost := false }).satCtr 20 0x200 4
        if !s.regBit R.TIM_PPS_CFG 2 then s
        else
          match s.tim.zda with
          | some (t, utc) =>
            if at3 ≤ t + 1100000000 then s.ppsPair edge utc
            else (s.setTim { s.tim with zda := none }).ppsAlone
          | none => s.ppsAlone

/-- A decimal number of exactly k digits. -/
def digits (k : Nat) (bs : Bytes) : Option Nat :=
  if bs.length = k ∧ bs.all (fun b => 48 ≤ b.toNat && b.toNat ≤ 57) then
    some (bs.foldl (fun n b => n * 10 + (b.toNat - 48)) 0)
  else none

/-- A byte string cut at every occurrence of a byte. -/
def splitAt (c : Nat) (bs : Bytes) : List Bytes :=
  bs.foldr (fun b acc =>
    if b.toNat = c then [] :: acc
    else match acc with
      | x :: xs => (b :: x) :: xs
      | [] => [[b]]) [[]]

/-- A hexadecimal digit. -/
def hexVal (b : Byte) : Option Nat :=
  let n := b.toNat
  if 48 ≤ n ∧ n ≤ 57 then some (n - 48)
  else if 65 ≤ n ∧ n ≤ 70 then some (n - 55)
  else if 97 ≤ n ∧ n ≤ 102 then some (n - 87)
  else none

/-- Days of the Gregorian date from 1970-01-01. -/
def daysFrom1970 (y m d : Nat) : Int :=
  let y' : Int := if m ≤ 2 then (y : Int) - 1 else y
  let era := y' / 400
  let yoe := (y' - era * 400).toNat
  let doy := (153 * ((m + 9) % 12) + 2) / 5 + d - 1
  let doe := yoe * 365 + yoe / 4 - yoe / 100 + doy
  era * 146097 + doe - 719468

/-- Days of a month. -/
def monthDays (y m : Nat) : Nat :=
  if m = 2 then (if y % 4 = 0 ∧ (y % 100 ≠ 0 ∨ y % 400 = 0) then 29 else 28)
  else if m = 4 ∨ m = 6 ∨ m = 9 ∨ m = 11 then 30 else 31

/-- The UTC second a ZDA sentence names, none for a bad one (R307). [PRESUMED, assumption 136] -/
def zdaUtc (bs : Bytes) : Option Nat :=
  match splitAt 42 (bs.drop 1) with
  | [body, ck] =>
    let sum := body.foldl (fun (x : Byte) b => x ^^^ b) 0
    let want := match ck.take 2 with
      | [a, b] => (hexVal a).bind fun x => (hexVal b).map fun y => x * 16 + y
      | _ => none
    if bs.head? ≠ some 0x24 ∨ want ≠ some sum.toNat then none
    else match splitAt 44 body with
      | [id, t, dd, mm, yy, _, _] =>
        if id.drop 2 ≠ ascii5 then none
        else
          match digits 6 (t.take 6), digits 2 dd, digits 2 mm, digits 4 yy with
          | some hms, some d, some m, some y =>
            let h := hms / 10000
            let mi := hms / 100 % 100
            let se := hms % 100
            if t.drop 6 ≠ [0x2E, 0x30, 0x30] ∨ 23 < h ∨ 59 < mi ∨ 60 < se ∨ m = 0 ∨ 12 < m ∨ d = 0 ∨
                monthDays y m < d ∨ y < 1970 then none
            else some ((daysFrom1970 y m d).toNat * 86400 + h * 3600 + mi * 60 + se)
          | _, _, _, _ => none
      | _ => none
  | _ => none
where
  /-- The sentence formatter ZDA. -/
  ascii5 : Bytes := [0x5A, 0x44, 0x41]

/-- ZDA_SENTENCE: a sentence from `$` to its checksum (R307). -/
def execZdaSentence (bs : Bytes) (s : State) : Host.Outcome State Fault Refusal :=
  .next <|
    if !s.ppsOn || !s.regBit R.TIM_UART_CFG 3 then s
    else match zdaUtc bs with
      | none => (s.satCtr 20 0x200 7).raise 20 6
      | some utc =>
        let s := (s.satCtr 20 0x200 6).setTim { s.tim with zdaAt := some s.now }
        if s.regBit R.TIM_PPS_CFG 2 then s.setTim { s.tim with zda := some (s.now, utc) }
        else match s.tim.pps with
          | some (t, edge) => if !s.tim.ppsDone && s.now ≤ t + 900000000 then s.ppsPair edge utc else s
          | none => s

/-- PPS_LOST: no edge for 1.5 s (R308). -/
def execPpsLost (s : State) : Host.Outcome State Fault Refusal :=
  .next <|
    match s.tim.pps with
    | some (t, _) =>
      if s.ppsOn && !s.tim.ppsLost && t + 1500000000 ≤ s.now then
        let s := s.ppsAlone
        (s.setTim { s.tim with ppsLost := true }).raise 20 5
      else s
    | none => s

/-- PPS_OUT_PULSE: the selected base has passed a whole second not yet pulsed (R309). -/
def execPpsOutPulse (s : State) : Host.Outcome State Fault Refusal :=
  .next <|
    let n := s.regFld R.TIM_PPSOUT_CFG 2 1
    let sec := s.tbNs n / giga
    let recent := match s.tim.ppsOutAt with
      | some t => decide (s.now < t + 500000000)
      | none => false
    if s.regBit R.TIM_PPSOUT_CFG 0 && alive s 15 && s.tim.ppsOutSec < sec then
      if recent then s.setTim { s.tim with ppsOutSec := sec }
      else (s.setTim { s.tim with ppsOutAt := some s.now, ppsOutSec := sec }).emit (.pps n)
    else s

/-- TIM_PPSOUT_CFG was written: enabled anew, or on another base, the next pulse is at the next whole second (R309). -/
def State.ppsOutWritten (s : State) (old new : Word) : State :=
  if bitOf new 0 && (!bitOf old 0 || fld old 2 1 != fld new 2 1) then
    s.setTim { s.tim with ppsOutSec := s.tbNs (fld new 2 1) / giga }
  else s

/-! ### TB3 and the reference (R311, R312, R317) -/

/-- TB3 saved to the older of its two records. [DEDUCED, assumption 72] -/
def State.saveTb3 (s : State) : State :=
  s.setTim { s.tim with saves := (s.tim.tb3.val :: s.tim.saves).take 2 }

/-- TB3_SAVE: 250 ms after the last save; `ok` is false where the write check fails three times (R312, R322).
[DEDUCED, assumption 72] -/
def execTb3Save (ok : Bool) (s : State) : Host.Outcome State Fault Refusal :=
  .next <|
    let due := match s.tim.saves with
      | v :: _ => decide (v / frac32 + 250000000 ≤ s.now)
      | [] => true
    if !due || !powered s 2 then s
    else if ok then s.saveTb3
    else (s.setTim { s.tim with saves := s.tim.saves.take 1 }).fault 20 3 []

/-- REF_FAIL: the reference oscillator stops or leaves its range; `ratio` is the PD0 oscillator's ratio last measured
against it, in 1/256 ppb (R311, R317). [DEDUCED, assumption 73] -/
def execRefFail (ratio : Int) (s : State) : Host.Outcome State Fault Refusal :=
  .next (if s.tim.refOk then (s.setTim { s.tim with refOk := false, ratio := ratio }).fault 20 2 [] else s)

/-- REF_RETURN (R311). [DEDUCED, assumption 73] -/
def execRefReturn (s : State) : Host.Outcome State Fault Refusal := .next (s.setTim { s.tim with refOk := true })

end Sys2Proof.Machine
end

