-- ==== Sys2Proof/Machine/Transport.lean ====
section
/-! DEFINITION. The session microengines: transport protocols and tunnel termination (07_bus_engines.md R222-R226, R228;
08_signal_plane.md R252). Frame layouts follow SAE J1939-21 and ISO 11783-3. -/

namespace Sys2Proof.Machine

/-! ### Transport-protocol frames -/

/-- Identifier of a transport frame: priority, PGN (a PDU1 one), destination and source. -/
def tpId (prio pgn da sa : Nat) : Nat := prio * 2 ^ 26 + pgn * 256 + da * 256 + sa

/-- The announced PGN in the last three bytes of a connection-management frame. -/
def cmPgn (d : Bytes) : Nat := leAt d 5 3 % 2 ^ 18

/-- What a connection-management frame announces: whether it is ETP and whether it is BAM, and the size in bytes. -/
structure Announce where
  etp : Bool
  bam : Bool
  total : Nat
  deriving DecidableEq, Repr

/-- The announcement in a frame of PGN `pgn`. -/
def announceOf (pgn : Nat) (d : Bytes) : Option Announce :=
  if pgn = 0xEC00 ∧ byteAt d 0 = 16 then some ⟨false, false, leAt d 1 2⟩
  else if pgn = 0xEC00 ∧ byteAt d 0 = 32 then some ⟨false, true, leAt d 1 2⟩
  else if pgn = 0xC800 ∧ byteAt d 0 = 20 then some ⟨true, false, leAt d 1 4⟩
  else none

/-- Packets of a message. -/
def packetsOf (total : Nat) : Nat := (total + 6) / 7

/-- PGN of the connection-management frames of a session. [PRESUMED, assumption 136] -/
def cmOf (etp : Bool) : Nat := if etp then 0xC800 else 0xEC00

/-- PGN of the data frames of a session. -/
def dtOf (etp : Bool) : Nat := if etp then 0xC700 else 0xEB00

/-- Request to send, or BAM. -/
def rtsData (etp bam : Bool) (total pgn : Nat) : Bytes :=
  if etp then [20#8] ++ leBytes 4 total ++ leBytes 3 pgn
  else [if bam then 32#8 else 16#8] ++ leBytes 2 total ++ [byte (packetsOf total), 0xFF#8] ++ leBytes 3 pgn

/-- Clear to send n packets from packet number k. -/
def ctsData (etp : Bool) (n k pgn : Nat) : Bytes :=
  if etp then [21#8, byte n] ++ leBytes 3 k ++ leBytes 3 pgn
  else [17#8, byte n, byte k, 0xFF#8, 0xFF#8] ++ leBytes 3 pgn

/-- Data packet offset: n packets beyond offset k. -/
def dpoData (n k pgn : Nat) : Bytes := [22#8, byte n] ++ leBytes 3 k ++ leBytes 3 pgn

/-- End of message acknowledgement. -/
def ackData (etp : Bool) (total pgn : Nat) : Bytes :=
  if etp then [23#8] ++ leBytes 4 total ++ leBytes 3 pgn
  else [19#8] ++ leBytes 2 total ++ [byte (packetsOf total), 0xFF#8] ++ leBytes 3 pgn

/-- Connection abort for a reason. -/
def abortData (reason pgn : Nat) : Bytes := [0xFF#8, byte reason, 0xFF#8, 0xFF#8, 0xFF#8] ++ leBytes 3 pgn

/-- A frame that a session sends on its channel: the guard judges it as a copy of its own (R421); whether it went out. -/
def State.tpSend (s : State) (n ingress stream id : Nat) (d : Bytes) : Bool × State :=
  let line := mkBus (idWord id true false) 0 0 0 8 0 0xFF 0 0 (slice d 0 8)
  if !s.canOn n || !s.canCounts n then (false, s)
  else
    match s.guard (64 + n) ⟨ingress, stream, line, 8⟩ with
    | (some _, s) => (false, s)
    | (none, s) => (true, ((s.emit (.frame (64 + n) line true)).addCtr (96 + n) 1 2 1).seeClaim n line)

/-- A connection that ended is counted at its channel: TP_ABORT, with its event (R224). -/
def State.tpAbort (s : State) (n : Nat) : State := (s.busCount (64 + n) 12).raise (96 + n) 5

/-! ### Reassembly (R223-R225) -/

/-- Replace the reassembly sessions. -/
def State.setTpRx (s : State) (l : List TpRx) : State := { s with bus := { s.bus with rx := l } }

/-- The enabled entry for a PGN on a channel. -/
def State.tpEntry (s : State) (n pgn : Nat) (etp : Bool) : Option Nat :=
  (List.range 64).find? fun k =>
    s.regBit (R.MEC_TPPGN k 0) 31 && s.regFld (R.MEC_TPPGN k 0) 17 0 == pgn && s.regBit (R.MEC_TPPGN k 1) n &&
      (!etp || s.regBit (R.MEC_TPPGN k 0) 29)

/-- The gateway answers on a session: RESPOND, addressed to OWN_SA, and no broadcast. -/
def State.tpAnswers (s : State) (e da : Nat) (bam : Bool) : Bool :=
  s.regBit (R.MEC_TPPGN e 0) 30 && !bam && s.regFld (R.MEC_TPPGN e 1) 31 24 == da

/-- Answer a session's originator. -/
def State.tpReply (s : State) (n e prio sa da : Nat) (etp : Bool) (d : Bytes) : Bool × State :=
  s.tpSend n (64 + n) (s.regFld (R.MEC_TPPGN e 2) 15 0) (tpId prio (cmOf etp) sa da) d

/-- A session is the one between two addresses for a PGN on a channel. -/
def TpRx.same (x : TpRx) (n sa da pgn : Nat) : Bool := x.ch == n && x.sa == sa && x.da == da && x.pgn == pgn

/-- Drop a session. -/
def State.tpDrop (s : State) (n sa da pgn : Nat) : State :=
  s.setTpRx (s.bus.rx.filter fun x => !x.same n sa da pgn)

/-- End a session for a fault, with a Connection Abort where the gateway answers (R224). -/
def State.tpFail (s : State) (x : TpRx) : State :=
  let s := (s.tpDrop x.ch x.sa x.da x.pgn).tpAbort x.ch
  if s.tpAnswers x.entry x.da x.bam then (s.tpReply x.ch x.entry x.prio x.sa x.da x.etp (abortData 3 x.pgn)).2 else s

/-- Sessions a domain has open. [DEDUCED, assumption 64] -/
def State.tpOpen (s : State) (d : Nat) : Nat := (s.bus.rx.filter fun x => canDomain x.ch == d).length

/-- Sessions that the reassembly region holds, 64 KiB each (R223, R242). [DEDUCED, assumption 64] -/
def State.tpRoom (s : State) : Nat := s.regFld R.MEC_TP_BASE 7 0 * 32

/-- Clear the originator to send the next packets: up to 16, or what is left. -/
def State.tpClear (s : State) (x : TpRx) : State :=
  let sent := x.got.length / 7
  let n := min 16 (packetsOf x.total - sent)
  let y := { x with clear := sent + n, wait := 1250, last := s.now }
  let s := s.setTpRx (s.bus.rx.map fun z => if z.same x.ch x.sa x.da x.pgn then y else z)
  (s.tpReply x.ch x.entry x.prio x.sa x.da x.etp (ctsData x.etp n (sent + 1) x.pgn)).2

/-- A connection is announced on a channel (R223, R224). -/
def State.tpOpenSession (s : State) (n id : Nat) (d : Bytes) : State :=
  let pgn := cmPgn d
  match announceOf (pgnOf id) d with
  | none => s
  | some a =>
    match s.tpEntry n pgn a.etp with
    | none => s
    | some e =>
      let sa := id % 256
      let da := id / 256 % 256
      let prio := id / 2 ^ 26 % 8
      let s := if s.bus.rx.any fun x => x.same n sa da pgn then (s.tpDrop n sa da pgn).tpAbort n else s
      let answers := s.tpAnswers e da a.bam
      let refuse (s : State) (why : Nat) : State :=
        if answers then (s.tpReply n e prio sa da a.etp (abortData why pgn)).2 else s
      if a.total = 0 ∨ 65536 < a.total then refuse (s.busCount (64 + n) 14) 2
      else if 128 ≤ s.tpOpen (canDomain n) then refuse (s.busCount (64 + n) 13) 1
      else if s.tpRoom ≤ s.bus.rx.length then
        let s := s.busCount (64 + n) 13
        refuse (if s.tpRoom = 0 then s else s.raise 54 1) 1
      else
        let x : TpRx := { ch := n, entry := e, sa := sa, da := da, pgn := pgn, prio := prio, total := a.total
                          etp := a.etp, bam := a.bam, got := [], next := 1, clear := 0, last := s.now
                          wait := if a.bam then 750 else 1250 }
        let s := s.setTpRx (s.bus.rx ++ [x])
        if answers then s.tpClear x else s

/-- The stored segments of a whole message (R216, R225). -/
def tpSegments (x : TpRx) (tag : Nat) : List Bytes :=
  let msg := x.got.take x.total
  let n := (x.total + 8191) / 8192
  let pf := x.pgn / 256 % 256
  let id := x.prio * 2 ^ 26 + (if pf < 240 then x.pgn + x.da else x.pgn) * 256 + x.sa
  (List.range n).map fun k =>
    mkBus (idWord id true false) 4 k n 0 x.total x.ch tag 0 ((msg.drop (8192 * k)).take 8192)

/-- A whole message is classified segment by segment and unpacked once, and its segments are admitted in order
(R225, R252). -/
def State.tpAdmit (s : State) (x : TpRx) : State :=
  let tag := s.bus.tag
  let s := { s with bus := { s.bus with tag := (tag + 1) % 256 } }
  let h := s.regFld (R.MEC_TPPGN x.entry 2) 15 0
  let segs := tpSegments x tag
  let whole := (segs.headD []).take 24 ++ x.got.take x.total
  let p := 64 + x.ch
  (segs.zipIdx.foldl (fun (s : State) (bs, k) =>
    let s := s.countRx p bs.length
    let (c, s) := s.classify ⟨p, true, bs, bs.length, some h, .line, false, 0, none, []⟩
    let s := match c.sig with | some (b, h) => if k = 0 then s.unpack b h whole else s | none => s
    match c.res with
    | none => s
    | some r =>
      match s.recover r bs with
      | (none, s) => s
      | (some r, s) =>
        match s.store bs true p [] with
        | (none, s) => s
        | (some i, s) => (s.reachAdmission r i).2) s)

/-- A packet of a session, or the offset that precedes the packets of an extended one (R223). -/
def State.tpData (s : State) (n id : Nat) (d : Bytes) : State :=
  let sa := id % 256
  let da := id / 256 % 256
  let pgn := pgnOf id
  if pgn = 0xC800 ∧ byteAt d 0 = 22 then
    match s.bus.rx.find? fun x => x.same n sa da (cmPgn d) with
    | none => s
    | some x =>
      if leAt d 2 3 * 7 = x.got.length then
        s.setTpRx (s.bus.rx.map fun z => if z.same n sa da x.pgn then { z with next := 1, last := s.now, wait := 750 } else z)
      else s.tpFail x
  else
    match s.bus.rx.find? fun x => x.ch == n && x.sa == sa && x.da == da && pgn == dtOf x.etp with
    | none => s
    | some x =>
      let q := byteAt d 0
      if q + 1 = x.next ∧ !x.got.isEmpty then s
      else if q ≠ x.next then s.tpFail x
      else
        let y := { x with got := x.got ++ slice d 1 7, next := x.next + 1, last := s.now, wait := 750 }
        if x.total ≤ y.got.length then
          let s := s.tpDrop n sa da x.pgn
          let s := if s.tpAnswers x.entry da x.bam then
              (s.tpReply n x.entry x.prio sa da x.etp (ackData x.etp x.total x.pgn)).2 else s
          s.tpAdmit y
        else
          let s := s.setTpRx (s.bus.rx.map fun z => if z.same n sa da x.pgn then y else z)
          if s.tpAnswers x.entry da x.bam && decide (y.clear * 7 ≤ y.got.length) then s.tpClear y else s

/-- A Connection Abort between two nodes ends their session (R224). -/
def State.tpAborted (s : State) (n id : Nat) (d : Bytes) : State :=
  let a := id % 256
  let b := id / 256 % 256
  let pgn := cmPgn d
  let hit := s.bus.rx.filter fun x => x.same n a b pgn || x.same n b a pgn
  if (pgnOf id == 0xEC00 || pgnOf id == 0xC800) && byteAt d 0 == 0xFF then
    hit.foldl (fun s x => (s.tpDrop x.ch x.sa x.da x.pgn).tpAbort x.ch) s
  else s

/-- A session's timeout (R223). [DEDUCED, assumption 64] -/
def State.tpLate (s : State) (n sa da pgn : Nat) : State :=
  match s.bus.rx.find? fun x => x.same n sa da pgn with
  | some x => if x.wait * 1000000 ≤ s.now - x.last then s.tpFail x else s
  | none => s

/-! ### Transmission (R226) -/

/-- Drop a transmit session. -/
def State.txDrop (s : State) (n tag : Nat) : State :=
  { s with bus := { s.bus with tx := s.bus.tx.filter fun t => !(t.ch == n && t.tag == tag) } }

/-- Segments of a session in order. -/
def TpTx.ordered (t : TpTx) : List Copy :=
  (List.range t.nseg).filterMap fun k => (t.segs.find? fun x => x.1 == k).map (·.2)

/-- Every segment copy of a session is discarded, counted once each as TP_ABORT or FORMAT_DROP.
[DEDUCED, assumption 65] -/
def State.txGone (s : State) (t : TpTx) (slot : Nat) : State :=
  let s := s.txDrop t.ch t.tag
  let s := t.segs.foldl (fun s x => (s.busCount (64 + t.ch) slot).endCopy x.2 (some 9) true) s
  if slot = 12 then s.raise (96 + t.ch) 5 else s

/-- The message a session sends: destination, PGN, priority, source, whether extended and whether broadcast. -/
structure TxMsg where
  da : Nat
  pgn : Nat
  prio : Nat
  sa : Nat
  etp : Bool
  bam : Bool
  ingress : Nat
  stream : Nat

/-- What the header of a session's first segment says. -/
def State.txMsg (s : State) (c : Copy) (len : Nat) : TxMsg :=
  let id := (busHdr (c.edits.onBus (s.copyBytes c))).id
  let pdu1 := id / 65536 % 256 < 240
  let da := if pdu1 then id / 256 % 256 else 0xFF
  ⟨da, pgnOf id, id / 2 ^ 26 % 8, id % 256, da != 0xFF && decide (1785 < len), da == 0xFF, c.ingress, c.stream⟩

/-- All segments of a tag are present: the message is announced (R226). -/
def State.txStart (s : State) (n tag : Nat) : State :=
  match (s.txSessions n).find? fun t => t.tag == tag && !t.started with
  | none => s
  | some t =>
    match t.ordered with
    | [] => s
    | c :: rest =>
      if rest.length + 1 < t.nseg then s
      else
        let msg := (c :: rest).flatMap fun c => busData (s.copyBytes c)
        let x := s.txMsg c msg.length
        if x.bam ∧ 1785 < msg.length then s.txGone t 8
        else
          match s.tpSend n x.ingress x.stream (tpId x.prio (cmOf x.etp) x.da x.sa) (rtsData x.etp x.bam msg.length x.pgn) with
          | (false, s) => s.txGone t 12
          | (true, s) =>
            { s with bus := { s.bus with tx := s.bus.tx.map fun y =>
              if y.ch = n ∧ y.tag = tag then { y with started := true, msg := msg, last := s.now } else y } }

/-- Send the data packets of a message from the k-th on, in windows of 16 for an extended one; whether the guard passed
them all. -/
def State.txPackets (s : State) (n : Nat) (x : TxMsg) (msg : Bytes) : Nat → Nat → Bool × State
  | 0, _ => (true, s)
  | m + 1, k =>
    let (ok, s) := if x.etp && k % 16 == 0 then
        s.tpSend n x.ingress x.stream (tpId x.prio (cmOf true) x.da x.sa)
          (dpoData (min 16 (packetsOf msg.length - k)) k x.pgn)
      else (true, s)
    if !ok then (false, s)
    else
      let part := (msg.drop (7 * k)).take 7
      let d := [byte (if x.etp then k % 16 + 1 else k + 1)] ++ part ++ List.replicate (7 - part.length) 0xFF#8
      match s.tpSend n x.ingress x.stream (tpId x.prio (dtOf x.etp) x.da x.sa) d with
      | (false, s) => (false, s)
      | (true, s) => s.txPackets n x msg m (k + 1)

/-- A transmit session ends: its packets have gone and its copies complete, or it aborts (R226). -/
def State.txEnd (s : State) (n tag : Nat) (ok : Bool) : State :=
  match (s.txSessions n).find? fun t => t.tag == tag && t.started with
  | none => s
  | some t =>
    match t.ordered with
    | [] => s
    | c :: _ =>
      if !ok then s.txGone t 12
      else
        let x := s.txMsg c t.msg.length
        match s.txPackets n x t.msg (packetsOf t.msg.length) 0 with
        | (false, s) => s.txGone t 12
        | (true, s) =>
          t.segs.foldl (fun s y =>
            let len := (s.copyBytes y.2).length
            let s := (s.addCtr 8 (0x1000 + y.2.queue) 0 1).addCtr 8 (0x1000 + y.2.queue) 2 len
            (s.txStamp y.2 s.now).endCopy y.2 none true) (s.txDrop n tag)

/-- Segments of a tag have been missing for 1,250 ms (R226). -/
def State.txLate (s : State) (n tag : Nat) : State :=
  match (s.txSessions n).find? fun t => t.tag == tag && !t.started with
  | some t => if t.segs.length < t.nseg ∧ 1250000000 ≤ s.now - t.last then s.txGone t 12 else s
  | none => s

/-! ### Tunnel termination (R228) -/

/-- A channel is in the masks of a receive tunnel entry. -/
def State.inMasks (s : State) (e chan : Nat) : Bool := s.regBit (R.MEC_RXTUN e 1) chan

/-- Port of a channel: 0-23 CAN, 24-31 LIN. -/
def chanPort (c : Nat) : Nat := if c < 24 then 64 + c else 96 + (c - 24)

/-- Count a dropped or skipped message at a CAN channel; a LIN window has no such counter. [DEDUCED, assumption 60] -/
def State.tunCount (s : State) (chan slot : Nat) : State := if chan < 24 then s.busCount (64 + chan) slot else s

/-- The first channel of an entry's CANMASK, where messages that name none are counted. [DEDUCED, assumption 60] -/
def State.firstChan (s : State) (e : Nat) : Nat :=
  ((List.range 24).find? fun c => s.regBit (R.MEC_RXTUN e 1) c).getD 24

/-- One message of a tunnel frame. [DEDUCED, assumption 60] -/
def State.tunItem (s : State) (e : Nat) (rx : List Nat) : AcfItem → State
  | .frame c bs =>
    if !s.inMasks e c || !busAgrees bs then s.tunCount c 11
    else if !s.sessionRuns (portDomain (chanPort c)) then s.tunCount c 11
    else s.busTake (chanPort c) bs rx
  | .skip => s.tunCount (s.firstChan e) 15
  | .bad (some c) => s.tunCount c 11
  | .bad none => s.tunCount (s.firstChan e) 11

/-- The oldest tunnel frame is terminated, message by message. -/
def State.tunTake (s : State) : State :=
  match s.bus.tun with
  | [] => s
  | t :: rest =>
    (tunnelItems t.bytes fun c => latchCompact t.rx (if c < 24 then s.regFld (R.CAN_CFG c) 13 12 else 2)).foldl
      (fun s i => s.tunItem t.entry t.rx i) { s with bus := { s.bus with tun := rest } }

/-! ### Commands -/

/-- The channel hears a frame, and its session microengine runs. -/
def State.tpHears (s : State) (n : Nat) : Bool := s.canOn n && s.sessionRuns (canDomain n)

/-- A classical frame with a 29-bit identifier and eight bytes, as transport frames are. -/
def tpFrame (f : CanFrame) : Bool := f.kind == .classic && f.ide && f.data.length == 8

/-- TP_SESSION_OPEN (R223). -/
def execTpSessionOpen (n : Nat) (f : CanFrame) (s : State) : Host.Outcome State Fault Refusal :=
  .next (if s.tpHears n && tpFrame f then (s.tpOpenSession n (f.id % 2 ^ 29) f.data).settle else s)

/-- TP_DT_RECEIVED (R223). -/
def execTpDtReceived (n : Nat) (f : CanFrame) (s : State) : Host.Outcome State Fault Refusal :=
  .next (if s.tpHears n && tpFrame f then (s.tpData n (f.id % 2 ^ 29) f.data).settle else s)

/-- TP_ABORT_RECEIVED (R224). -/
def execTpAbortReceived (n : Nat) (f : CanFrame) (s : State) : Host.Outcome State Fault Refusal :=
  .next (if s.tpHears n && tpFrame f then s.tpAborted n (f.id % 2 ^ 29) f.data else s)

/-- TP_TIMEOUT (R223). -/
def execTpTimeout (n sa da pgn : Nat) (s : State) : Host.Outcome State Fault Refusal :=
  .next (if n < 24 && s.sessionRuns (canDomain n) then s.tpLate n sa da pgn else s)

/-- TP_TX_SESSION_START (R226). -/
def execTpTxSessionStart (n tag : Nat) (s : State) : Host.Outcome State Fault Refusal :=
  .next (if s.tpHears n then (s.txStart n tag).settle else s)

/-- TP_TX_SEGMENT_TIMEOUT (R226). -/
def execTpTxSegmentTimeout (n tag : Nat) (s : State) : Host.Outcome State Fault Refusal :=
  .next (if n < 24 && s.sessionRuns (canDomain n) then (s.txLate n tag).settle else s)

/-- TP_TX_SESSION_END (R226). -/
def execTpTxSessionEnd (n tag : Nat) (ok : Bool) (s : State) : Host.Outcome State Fault Refusal :=
  .next (if n < 24 && s.sessionRuns (canDomain n) then (s.txEnd n tag ok).settle else s)

/-- TUNNEL_TERMINATE (R228). -/
def execTunnelTerminate (s : State) : Host.Outcome State Fault Refusal :=
  .next (if alive s 3 then s.tunTake.settle else s)

/-- ME_HANG (R243). -/
def execMeHang (n : Nat) (s : State) : Host.Outcome State Fault Refusal :=
  .next (if n < 16 && s.meRuns n then s.fault 54 2 [word n, 0, 0, 0] else s)

end Sys2Proof.Machine
end

