-- ==== Sys2Proof/Machine/Gate.lean ====
section
/-! DEFINITION. Gating and waking a power domain, and leaving a BLOCK reset (16_power_wake_reset.md R531-R533, R542, R543;
R237, R279, R281, R352, R382, R413, R455, R519). -/

namespace Sys2Proof.Machine

/-- Replace the hidden state of the power manager. -/
def State.setPwr (s : State) (x : Pwr) : State := { s with pwr := x }

/-- Domains that software and the policy engine may gate (R63, R532). -/
def gateable (d : Nat) : Bool := d == 7 || (9 ≤ d && d ≤ 14)

/-- Every domain. -/
def domains : List Nat := List.range 16

/-- Windows of a domain's blocks. -/
def windowsOf (d : Nat) : List Nat := windows.filter fun w => domainOf w == d

/-- Ethernet ports whose line lies in a domain. -/
def ethPortsOf (d : Nat) : List Nat := (List.range 29).filter fun p => portDomain p == d

/-- The links of a domain go down. [DEDUCED, assumption 46] -/
def State.linksDown (s : State) (d : Nat) : State := (ethPortsOf d).foldl State.linkDown s

/-- PWR_PD_STATUS with one domain's bit. -/
def State.setPowered (s : State) (d : Nat) (on : Bool) : State := s.modReg R.PWR_PD_STATUS fun w => putBit w d on

/-- Bring the lines of a domain's windows to their levels. -/
def State.evalDomain (s : State) (d : Nat) : State := (windowsOf d).foldl State.evalWindow s

/-- A fault-page register of a window of domain d. -/
def inFaultPage (d : Nat) (l : Loc) : Bool := domainOf l.win == d && faultOff l.win ≤ l.off

/-- A domain is gated: its blocks as by a BLOCK reset, its fault pages lost, its lines low (R533).
[DEDUCED, assumption 141] -/
def State.gate (s : State) (d : Nat) : State :=
  if !powered s d then s
  else
    let s := if d = 9 then s.linkReset else s
    let s := (s.linksDown d).resetDomain d
    let s := { s with regs := regsLose (inFaultPage d) s.regs }
    let s := s.setPwr { s.pwr with inReset := s.pwr.inReset.filter (· != d) }
    (s.setPowered d false).evalDomain d

/-- A domain is powered and in its BLOCK reset until it leaves it (R532). -/
def State.wakeDomain (s : State) (d : Nat) : State :=
  if powered s d then s
  else (s.setPowered d true).setPwr { s.pwr with inReset := if inReset s d then s.pwr.inReset else s.pwr.inReset ++ [d] }

/-- Sessions that a BLOCK reset of PD13 or PD14 ended: their segments are discarded as TP_ABORT (R237).
[DEDUCED, assumption 132] -/
def State.dropGone (s : State) (d : Nat) : State :=
  let ts := s.bus.gone.filter fun t => canDomain t.ch == d
  let s := { s with bus := { s.bus with gone := s.bus.gone.filter fun t => canDomain t.ch != d } }
  ts.foldl (fun s t => s.txGone t 12) s

/-- The ledger leaves a BLOCK reset of PD2: a lost set is formed again, its ages measured from now (R519). -/
def State.reformSet (s : State) : State :=
  match s.ldg.lost with
  | some k => s.formSet k s.nowUs true
  | none => s

/-- Table command rings after a BLOCK reset of PD4: a command it took completes with `TRUNCATED` (R203).
[DEDUCED, assumption 48] -/
def State.tableResume (s : State) : State :=
  (List.range 16).foldl (fun s n => if s.ringSize 3 n = 0 then s else s.resumeTc n) s

/-- Items that ring slots put into an intake and its block has not taken: their slots are fetched or completed anew when
the queue manager resumes, so they go (R382). [DEDUCED, assumption 48] -/
def State.dropIntake (s : State) (q : Nat) : State :=
  let v := s.queue q
  s.setQueue q ((List.range v.items.length).foldr (fun k v =>
    match v.items[k]? with
    | some i => if 0x1000000 ≤ i.prod then v.drop k else v
    | none => v) v)

/-- A domain leaves its BLOCK reset; none does while RESET_N is held (R545). [DEDUCED, assumption 46] -/
def State.leaveReset (s : State) (d : Nat) : State :=
  if !powered s d || !inReset s d || s.pwr.resetPin then s
  else
    let s := s.setPwr { s.pwr with inReset := s.pwr.inReset.filter (· != d) }
    let s := match d with
      | 1 => if s.toggling then s else s.sendSafeSets
      | 2 => s.reformSet
      | 3 => ((s.dropIntake 2).dropIntake 3).ringsResume.formSet 0 s.nowUs false
      | 4 => s.tableResume
      | 9 => s.linkReset
      | 10 | 11 | 12 => s.linksDown d
      | 13 | 14 => s.dropGone d
      | 15 => s.pleLeave
      | _ => s
    (s.evalDomain d).settle

/-! ### Requests (R532, R543) -/

/-- A value of PWR_PD_REQ that names only domains that may be gated. -/
def pdReqOk (v : Word) : Bool := (List.range 32).all fun d => !bitOf v d || gateable d

/-- An accepted write of PWR_PD_REQ over `old`: newly named domains gate, in ascending order, and others wake.
[DEDUCED, assumption 141] -/
def State.pdRequest (s : State) (old new : Word) : State :=
  (List.range 16).foldl (fun s d =>
    if bitOf new d == bitOf old d then s
    else if bitOf new d then s.gate d else s.wakeDomain d) s

/-- A value of PWR_BLK_RST names only domains 2-15. -/
def blkRstOk (v : Word) : Bool := (List.range 32).all fun d => !bitOf v d || (2 ≤ d && d ≤ 15)

/-- An accepted write of PWR_BLK_RST: each named domain that is powered takes a BLOCK reset. -/
def State.blkRst (s : State) (v : Word) : State :=
  (List.range 16).foldl (fun s d => if bitOf v d && powered s d then s.resetDomain d else s) s

/-- A write of PWR_CORE_RST by a master: AC1-AC7, and AC0 from the keeper alone. -/
def coreRstOk (m : Master) (v : Word) : Bool :=
  (List.range 32).all fun c => !bitOf v c || (c < 8 && (c != 0 || m.origin == 1))

/-- BLOCK_RESET_DONE (R542). -/
def execBlockResetDone (d : Nat) (s : State) : Host.Outcome State Fault Refusal := .next (s.leaveReset d)

end Sys2Proof.Machine
end

