-- ==== Sys2Proof/Machine/Fox.lean ====
section
/-! DEFINITION. Pace and the policy engine: measurements, the pace-floor loop, rules, failover groups and battery-only
operation (02_pace_and_policy.md R45-R73). -/

namespace Sys2Proof.Machine

/-- Replace the hidden state of the policy engine. -/
def State.setFox (s : State) (x : Fox) : State := { s with fox := x }

/-! ### Measurements (R58, R59) -/

/-- An external port is up: link up on Ethernet, on the bus on CAN, enabled on LIN. [DEDUCED, assumption 33] -/
def State.portUp (s : State) (p : Nat) : Bool :=
  powered s (portDomain p) &&
  (if p < 64 then (kvGet? s.swc.link p).isSome
   else if p < 96 then s.canState (p - 64) ≤ 1
   else s.regBit (R.LIN_CFG (p - 96)) 0)

/-- Domain that holds a measurement's source; none for one of the power supply or of PD0. -/
def measDomain (i : Nat) : Option Nat :=
  if 1 ≤ i ∧ i ≤ 15 then some i
  else match i with
    | 16 => some 3 | 17 => some 5 | 18 => some 6 | 19 => some 7 | 20 => some 8 | 21 => some 10
    | 29 => some 3 | 30 => some 3 | 31 => some 3 | 48 => some 15 | 49 => some 15 | 50 => some 15
    | 52 => some 2 | 53 => some 2 | 54 => some 8 | 55 => some 15 | 56 => some 1 | 57 => some 9
    | _ => if 32 ≤ i ∧ i < 40 then some 3 else none

/-- A measurement is valid (R59). -/
def State.measOk (s : State) (i : Nat) : Bool :=
  match measDomain i with
  | some d => powered s d
  | none => if 40 ≤ i ∧ i < 48 then portLine (s.regFld (R.FOX_MON_PSEL (i - 40)) 6 0) &&
      s.portUp (s.regFld (R.FOX_MON_PSEL (i - 40)) 6 0) else true

/-- FOX_MEASm as it reads. -/
def State.meas (s : State) (i : Nat) : Nat := (s.reg (R.FOX_MEAS i)).toNat

/-- Lowest of a list of numbers that holds 0xFFFF where it is empty. -/
def lowest (l : List Nat) : Nat := l.foldl min 0xFFFF

/-- Domains PD1-PD15 that are powered. -/
def State.paced (s : State) : List Nat := (List.range' 1 15).filter (powered s)

/-- PACE_OK: every powered domain is at or above its floor. -/
def State.paceOk (s : State) : Bool :=
  s.paced.all fun n => (s.reg (R.FOX_FLOOR_PD n)).toNat ≤ (s.reg (R.PAC_PACE_PD n)).toNat

/-- Count from which the rate of measurement 54, 55 or 56 is taken. [DEDUCED, assumption 36] -/
def State.rateCount (s : State) (i : Nat) : Nat :=
  match i with
  | 54 => s.ctr 25 0 0
  | 55 => s.ctr 21 1 8
  | _ => (guardedPorts.flatMap fun p => (List.range' 2 8).map fun k => s.ctr 6 (0x1000 + p) k).sum

/-- Entries that the DRAM regions of spill queues hold. -/
def State.spillUse (s : State) : Nat :=
  ((s.qs.filter fun e => (s.spillSlot e.1).isSome).map (·.2.mid)).sum

/-- A measurement that the gateway takes of its own state: none for one whose value the environment gives, or that a rate
window gives. [DEDUCED, assumption 36] -/
def State.measNow (s : State) (i : Nat) : Option Nat :=
  if i = 0 then some (lowest (s.paced.map fun n => (s.reg (R.PAC_PACE_PD n)).toNat))
  else if 32 ≤ i ∧ i < 40 then some (s.occ (s.regFld (R.FOX_MON_QSEL (i - 32)) 9 0))
  else if 48 ≤ i ∧ i ≤ 50 then some (min ((s.tb (i - 48)).lastOff.natAbs / frac32) 0xFFFFFFFF)
  else if 60 ≤ i then some (s.reg (R.FOX_SWMEAS (i - 60))).toNat
  else match i with
    | 29 => some (s.poolUse + (s.swc.frames.map fun f => f.2.rsv).sum)
    | 30 => some s.heldCopies.length
    | 31 => some s.spillUse
    | 51 => some (s.tim.tb3.rate.natAbs / 256)
    | 52 => some (s.ldg.used * 16)
    | 53 => some s.unexported
    | 58 => some ((((List.range' 16 8).filter s.measOk).map s.meas).foldl max 0)
    | _ => none

/-- Bring a measurement of the gateway's own state up to now; an invalid one keeps its last value. -/
def State.takeMeas (s : State) (i : Nat) : State :=
  if !s.measOk i then s
  else match s.measNow i with
    | some v => s.setReg (R.FOX_MEAS i) (word v)
    | none => s

/-- Bring the rate of measurement 54, 55 or 56 up to now, each 100 ms.
[DEDUCED, assumption 36; DESIGN CHOICE, assumption 37] -/
def State.takeRate (s : State) (i : Nat) : State :=
  match kvGet? s.fox.rates i with
  | none => s.setFox { s.fox with rates := kvSet s.fox.rates i (s.rateCount i, s.now) }
  | some (c, t) =>
    if s.now < t + 100000000 then s
    else
      let n := s.rateCount i
      let s := s.setFox { s.fox with rates := kvSet s.fox.rates i (n, s.now) }
      if s.measOk i then s.setReg (R.FOX_MEAS i) (satWord ((n - c) * 10)) else s

/-- Bring every measurement that the gateway takes itself up to now. -/
def State.takeAll (s : State) : State :=
  let s := (List.range 64).foldl State.takeMeas s
  let s := [54, 55, 56].foldl State.takeRate s
  s.setReg (R.PAC_PACE_PD 0) (word (s.meas 0))

/-- Since when a domain at 900 mV reports a pace below its floor (R54). -/
def State.watchPace (s : State) (n : Nat) : State :=
  let low := powered s n && decide ((s.reg (R.PAC_PACE_PD n)).toNat < (s.reg (R.FOX_FLOOR_PD n)).toNat) &&
    s.reg (R.FOX_VSET_PD n) == 900
  if !low then
    s.setFox { s.fox with below := kvDel s.fox.below n, paceLost := s.fox.paceLost.filter (· != n) }
  else if (kvGet? s.fox.below n).isSome then s
  else s.setFox { s.fox with below := kvSet s.fox.below n s.now }

/-- The pace of a domain is read: the lowest since it was last read follows it. -/
def State.paceRead (s : State) (n v : Nat) : State :=
  let v := v % 65536
  let low (s : State) (n v : Nat) : State :=
    s.setReg (R.PAC_PACE_LOW_PD n) (word (min v (s.reg (R.PAC_PACE_LOW_PD n)).toNat))
  let s := (s.setReg (R.PAC_PACE_PD n) (word v)).setReg (R.FOX_MEAS n) (word v)
  let s := ((low s n v).takeMeas 0).watchPace n
  low (s.setReg (R.PAC_PACE_PD 0) (word (s.meas 0))) 0 (s.meas 0)

/-- The supply state changes: mains and battery within range, and their events (R58, R556). -/
def State.supplyRead (s : State) (v : Nat) : State :=
  let mains := v < 2
  let was := s.regBit R.PWR_STATUS 3
  let s := s.setFld R.FOX_STATUS 1 0 v
  let s := s.modReg R.PWR_STATUS fun w => putBit (putBit w 3 mains) 4 (v != 1)
  let s := s.setFox { s.fox with
    mains := if !mains then none else if s.fox.mains.isSome then s.fox.mains else some s.now }
  let s := if was && !mains then s.raise 1 2 else if !was && mains then s.raise 1 3 else s
  s.evalSafe

/-- Since when the battery draw exceeds the budget in BATTERY-RUN (R67). [DEDUCED, assumption 38] -/
def State.noteDraw (s : State) : State :=
  if s.pwr.mode != .batteryRun || decide (s.meas 25 ≤ s.regFld R.FOX_BATT_CTRL 15 0) then
    s.setFox { s.fox with overAt := none }
  else if s.fox.overAt.isSome then s
  else s.setFox { s.fox with overAt := some s.now }

/-- FOX_MEAS_UPDATE: a measurement whose value comes from a sensor, an input or a line (R58).
[DESIGN CHOICE, assumption 37] -/
def execFoxMeasUpdate (ix v : Nat) (s : State) : Host.Outcome State Fault Refusal :=
  .next <|
    if ix = 28 then if v < 3 then (s.setReg (R.FOX_MEAS 28) (word v)).supplyRead v else s
    else if !s.measOk ix || 64 ≤ ix || !alive s 2 then s
    else if 1 ≤ ix ∧ ix ≤ 15 then s.paceRead ix v
    else if (16 ≤ ix ∧ ix ≤ 27) ∨ (40 ≤ ix ∧ ix < 48) ∨ ix = 57 ∨ ix = 59 then
      let s := (s.setReg (R.FOX_MEAS ix) (word v)).takeMeas 58
      if ix = 25 then s.noteDraw else s
    else s.takeMeas ix

/-! ### Core voltage (R52-R56) -/

/-- Supply setting of a domain, in mV. -/
def State.vset (s : State) (n : Nat) : Nat := (s.reg (R.FOX_VSET_PD n)).toNat

/-- The loop or the engine steps a supply: the run of steps is recorded once it has stood still (R70).
[DEDUCED, assumption 31] -/
def State.stepVset (s : State) (n v : Nat) : State :=
  let old := s.reg (R.FOX_VSET_PD n)
  let base := match kvGet? s.fox.move n with | some x => x.base | none => old
  (s.setReg (R.FOX_VSET_PD n) (word v)).setFox { s.fox with move := kvSet s.fox.move n ⟨base, s.now⟩ }

/-- Word i of rule n. -/
def State.rule (s : State) (n i : Nat) : Word := s.reg (R.FOX_RULE n i)

/-- ACTION of a rule. [DEDUCED, assumption 31] -/
def State.ruleAction (s : State) (n : Nat) : Nat := fld (s.rule n 0) 23 20

/-- The loop's minimum supply of a domain, with the largest raise of its active rules (R53, R63).
[DEDUCED, assumption 31] -/
def State.vmin (s : State) (n : Nat) : Nat :=
  let on := s.fox.active.filter fun k => s.ruleAction k == 2 && fld (s.rule k 3) 31 24 == n
  680 + 10 * (on.map fun k => fld (s.rule k 3) 4 0).foldl max 0

/-- The loop on one domain at a tick (R53). -/
def State.paceLoop (s : State) (n : Nat) : State :=
  if !s.regBit R.FOX_LOOP_EN n || !powered s n then s
  else
    let p := (s.reg (R.PAC_PACE_PD n)).toNat
    let floor := (s.reg (R.FOX_FLOOR_PD n)).toNat
    let v := s.vset n
    let vmin := s.vmin n
    let hold := s.regFld R.FOX_CTRL 23 16
    let held (s : State) (k : Nat) : State := s.setFox { s.fox with held := kvSet s.fox.held n k }
    if p < floor + 8 ∨ v < vmin then held (if v < 900 then s.stepVset n (v + 10) else s) 0
    else if floor + s.regFld R.FOX_CTRL 15 8 < p then
      let k := kvGet s.fox.held n 0 + 1
      if 0 < hold ∧ hold * 10 ≤ k ∧ vmin + 10 ≤ v then held (s.stepVset n (v - 10)) 0 else held s k
    else held s 0

/-- PACE_LOOP_TICK: every 100 us (R53). -/
def execPaceLoopTick (s : State) : Host.Outcome State Fault Refusal :=
  .next <|
    if !alive s 2 then s
    else
      let s := (List.range' 1 15).foldl (fun s n => (s.paceLoop n).watchPace n) s.takeAll
      s.modReg R.FOX_STATUS fun w => putBit w 3 s.paceOk

/-- PACE_LOST: 1 ms below the floor at 900 mV (R54). -/
def execPaceLost (n : Nat) (s : State) : Host.Outcome State Fault Refusal :=
  .next <|
    match kvGet? s.fox.below n with
    | some t =>
      if alive s 2 && decide (t + 1000000 ≤ s.now) && !s.fox.paceLost.contains n then
        (s.setFox { s.fox with paceLost := s.fox.paceLost ++ [n] }).fault 2 1 [word n]
      else s
    | none => s

/-- SENTINEL_FAIL: the sentinels of a domain differ by more than 0x0020 (R55). -/
def execSentinelFail (n : Nat) (s : State) : Host.Outcome State Fault Refusal :=
  .next <|
    if n = 0 ∨ 15 < n ∨ !powered s n then s
    else
      let s := if s.vset n = 900 then s else s.stepVset n 900
      let s := s.modReg R.FOX_LOOP_EN fun w => putBit w n false
      let s := s.setFox { s.fox with
        sentinel := if s.fox.sentinel.contains n then s.fox.sentinel else s.fox.sentinel ++ [n] }
      s.fault 2 2 [word n]

/-- VSET_AUDIT: a supply that the loop has moved has stood still for 100 ms (R70). -/
def execVsetAudit (n : Nat) (s : State) : Host.Outcome State Fault Refusal :=
  .next <|
    match kvGet? s.fox.move n with
    | some x =>
      if x.last + 100000000 ≤ s.now then
        (s.setFox { s.fox with move := kvDel s.fox.move n }).logFox (R.FOX_VSET_PD n) x.base (s.reg (R.FOX_VSET_PD n))
      else s
    | none => s

/-- FOX_LOOP_EN may be written: a domain whose sentinels failed stays out of the loop until chip reset (R55). -/
def State.loopEnOk (s : State) (v : Word) : Bool := s.fox.sentinel.all fun n => !bitOf v n

/-- FOX_VSET_PDn may be written (R57). -/
def State.vsetOk (s : State) (n : Nat) (v : Word) : Bool :=
  !s.regBit R.FOX_LOOP_EN n && v.toNat % 10 == 0 && 680 ≤ v.toNat && v.toNat ≤ 900

/-! ### Actions (R63, R64, R70) -/

/-- The idle slope word of a queue is written: the credit up to now keeps the old slope, and is clipped to the new bounds
(R148, R163). -/
def State.shaperWritten (s : State) (q : Nat) (v : Word) : State :=
  let s := (s.creditStep q).setReg (R.SWC_QCBS q) v
  let (lo, hi) := s.creditBounds q
  s.setSwc { s.swc with credit := kvSet s.swc.credit q (clampI lo hi (kvGet s.swc.credit q 0)) }

/-- The register, or the command address, that an action acts on. [DEDUCED, assumption 32] -/
def actTarget (code : Nat) (op : Word) : Nat :=
  match code with
  | 3 => R.PWR_PD_REQ
  | 4 => R.PWR_PD_REQ
  | 5 => R.SWC_QCBS (fld op 31 22)
  | 6 => R.FOX_FGRP (fld op 31 24)
  | 7 => R.TIM_TB_CMD (fld op 31 24)
  | _ => R.FOX_EVT_STATUS

/-- The part of the target that an action changes, as it stands. [DEDUCED, assumption 32] -/
def State.actGet (s : State) (code : Nat) (op : Word) : Nat :=
  match code with
  | 3 => (s.regBit R.PWR_PD_REQ (fld op 31 24)).toNat
  | 4 => (s.regBit R.PWR_PD_REQ (fld op 31 24)).toNat
  | 5 => s.regFld (R.SWC_QCBS (fld op 31 22)) 21 0
  | 6 => (s.regBit (R.FOX_FGRP (fld op 31 24)) 30).toNat
  | 7 => (s.tb (fld op 31 24)).foxHold.toNat
  | _ => 0

/-- What an action makes of it. [DEDUCED, assumption 32] -/
def actSet (code : Nat) (op : Word) : Nat := match code with | 4 => 0 | 5 => fld op 21 0 | _ => 1

/-- Put a value into the part of the target that an action changes, with its entry where the value changes. -/
def State.actPut (s : State) (code : Nat) (op : Word) (v : Nat) : State :=
  if s.actGet code op = v then s
  else
    let a := actTarget code op
    let old := s.reg a
    match code with
    | 5 =>
      let new := putFld old 21 0 v
      (s.shaperWritten (fld op 31 22) new).logFox a old new
    | 6 =>
      let new := putBit old 30 (v == 1)
      (s.setReg a new).logFox a old new
    | 7 =>
      let n := fld op 31 24
      (s.setTb n { s.tb n with foxHold := v == 1 }).logFox a (word (s.tb n).foxHold.toNat) (word v)
    | _ =>
      let new := putBit old (fld op 31 24) (v == 1)
      ((s.setReg a new).pdRequest old new).logFox a old new

/-- A GATE or WAKE names a domain that battery shedding holds (R71). [DEDUCED, assumption 38] -/
def State.shedHolds (s : State) (code : Nat) (op : Word) : Bool :=
  (code == 3 || code == 4) && s.fox.shed.contains (fld op 31 24)

/-- A rule's action is applied (R63). -/
def State.fireRule (s : State) (n : Nat) : State :=
  let code := s.ruleAction n
  let op := s.rule n 3
  let s := if code = 0 then s else s.incReg R.FOX_ACT_CNT
  if code = 0 ∨ code = 2 ∨ s.shedHolds code op then s
  else if code = 1 then
    let old := s.reg R.FOX_EVT_STATUS
    let s := s.raise 2 (fld op 4 0)
    if s.reg R.FOX_EVT_STATUS = old then s else s.logFox R.FOX_EVT_STATUS old (s.reg R.FOX_EVT_STATUS)
  else
    let old := s.actGet code op
    let set := actSet code op
    (s.setFox { s.fox with saved := kvSet s.fox.saved n ⟨code, op, old, set⟩ }).actPut code op set

/-- A rule's action is undone, if its target still holds what the action set (R63, R64). [DEDUCED, assumption 32] -/
def State.undoRule (s : State) (n : Nat) : State :=
  match kvGet? s.fox.saved n with
  | none => s
  | some x =>
    let s := s.setFox { s.fox with saved := kvDel s.fox.saved n }
    if s.shedHolds x.code x.op then s
    else if s.actGet x.code x.op = x.set then s.actPut x.code x.op (if x.code = 5 then x.old else 1 - x.set)
    else s.incReg R.FOX_REVERT_SKIP

/-! ### Rules (R60-R62) -/

/-- A value fires (`clear` false) or clears a rule. -/
def State.ruleMeets (s : State) (n v : Nat) (clear : Bool) : Bool :=
  let set := (s.rule n 1).toNat
  let clr := (s.rule n 2).toNat
  if bitOf (s.rule n 0) 30 then (if clear then decide (clr < v) else decide (v ≤ set))
  else if clear then decide (v < clr) else decide (set ≤ v)

/-- Judge one rule against the measurements: the machine after, and what falls due: fire or undo. -/
def State.judgeRule (s : State) (n : Nat) : State × Option Bool :=
  let w := s.rule n 0
  let i := fld w 29 24
  if !bitOf w 31 || !s.measOk i then (s, none)
  else
    let on := s.fox.active.contains n
    let cnt (s : State) (k : Nat) : State :=
      s.setFox { s.fox with cnt := if k = 0 then kvDel s.fox.cnt n else kvSet s.fox.cnt n k }
    if !s.ruleMeets n (s.meas i) on then (cnt s 0, none)
    else
      let k := kvGet s.fox.cnt n 0 + 1
      if k < fld w 15 0 then (cnt s k, none)
      else if on then
        let s := (cnt s 0).setFox { (cnt s 0).fox with active := s.fox.active.filter (· != n) }
        (s, if bitOf w 19 || s.ruleAction n == 2 then some false else none)
      else
        let s := (cnt s 0).setFox { (cnt s 0).fox with active := s.fox.active ++ [n] }
        (s.modReg (R.FOX_HIT (n / 32)) fun h => putBit h (n % 32) true, some true)

/-- Judge the rules in ascending order, then apply what falls due in descending order. -/
def State.ruleTick (s : State) : State :=
  let (s, due) := (List.range 128).foldl (fun (x : State × List (Nat × Bool)) n =>
    match x.1.judgeRule n with
    | (s, some what) => (s, (n, what) :: x.2)
    | (s, none) => (s, x.2)) (s, [])
  due.foldl (fun s x => if x.2 then s.fireRule x.1 else s.undoRule x.1) s

/-- FOX_RULE_TICK: every 100 us, while RULES_EN = 1 (R62). -/
def execFoxRuleTick (s : State) : Host.Outcome State Fault Refusal :=
  .next <|
    if !alive s 2 then s
    else
      let s := s.takeAll
      if s.regBit R.FOX_CTRL 0 then s.ruleTick.settle else s

/-- An action code's operand is valid (R63). [DEDUCED, assumption 147] -/
def actionOk (code : Nat) (op : Word) : Bool :=
  let d := fld op 31 24
  match code with
  | 0 => true
  | 1 => true
  | 2 => 1 ≤ d && d ≤ 15 && 1 ≤ fld op 4 0 && fld op 4 0 ≤ 22
  | 3 => gateable d
  | 4 => gateable d
  | 5 => true
  | 6 => d < 32
  | 7 => d < 3
  | _ => false

/-- A write of word i of rule n is accepted: the rule as it leaves it passes the checks, and words 1-3 change only while
EN = 0 (R61). [DEDUCED, assumption 147] -/
def State.ruleOk (s : State) (n i : Nat) (v : Word) : Bool :=
  let w (k : Nat) : Word := if k = i then v else s.rule n k
  let set := (w 1).toNat
  let clr := (w 2).toNat
  (i == 0 || !bitOf (s.rule n 0) 31) &&
    (if bitOf (w 0) 30 then decide (set ≤ clr) else decide (clr ≤ set)) && actionOk (fld (w 0) 23 20) (w 3)

/-- EN of a rule has been cleared: an active rule clears at once, with its undo where it has one. -/
def State.ruleCleared (s : State) (n : Nat) (old : Word) : State :=
  if !s.fox.active.contains n then s.setFox { s.fox with cnt := kvDel s.fox.cnt n }
  else
    let s := s.setFox { s.fox with active := s.fox.active.filter (· != n), cnt := kvDel s.fox.cnt n }
    if bitOf old 19 then s.undoRule n else s.setFox { s.fox with saved := kvDel s.fox.saved n }

/-- A failover group record is accepted: different external ports of one kind (R65). -/
def fgrpOk (v : Word) : Bool :=
  let a := fld v 14 8
  let b := fld v 6 0
  a != b && portLine a && portLine b && portKind a == portKind b

/-! ### Battery-only operation (R66-R68) -/

/-- The policy engine gates or wakes a domain for battery operation. [DEDUCED, assumption 141] -/
def State.foxGate (s : State) (d : Nat) (on : Bool) : State :=
  let old := s.reg R.PWR_PD_REQ
  let new := putBit old d on
  if old = new then s else ((s.setReg R.PWR_PD_REQ new).pdRequest old new).logFox R.PWR_PD_REQ old new

/-- E0-E3 are disabled, with purge, or enabled again. -/
def State.trunks (s : State) (on : Bool) : State :=
  (List.range 4).foldl (fun s p =>
    let old := s.reg (R.SWC_PCTL p)
    let new := putBit old 0 on
    if old = new then s
    else
      let s := (s.setReg (R.SWC_PCTL p) new).logFox (R.SWC_PCTL p) old new
      if on then s else s.purgePort p) s

/-- BATTERY-RUN begins: trunks and domains are shed (R66). [DEDUCED, assumption 38] -/
def State.enterBattery (s : State) : State :=
  let shed := [7, 9, 10].filter (powered s)
  let s := s.trunks false
  let s := shed.foldl (fun s d => s.foxGate d true) s
  let s := s.setFox { s.fox with shed := shed, overAt := none, lastShed := none }
  let s := s.setPwr { s.pwr with mode := .batteryRun }
  ((s.setFld R.PWR_STATUS 2 0 2).modReg R.FOX_STATUS fun w => putBit w 2 true).noteDraw.settle

/-- BATTERY_RUN_ENTER: measurement 28 has changed to 2 (R66). -/
def execBatteryRunEnter (s : State) : Host.Outcome State Fault Refusal :=
  .next (if s.pwr.mode == .run && s.regFld R.FOX_STATUS 1 0 == 2 && alive s 2 then s.enterBattery else s)

/-- BATT_SHED: the draw is judged against the budget; after 50 ms above it the next domain is shed, and with none left
BATT_OVER is set (R67). [DEDUCED, assumption 38] -/
def execBattShed (s : State) : Host.Outcome State Fault Refusal :=
  .next <|
    if s.pwr.mode != .batteryRun || !alive s 2 then s
    else
      let s := s.noteDraw
      match s.fox.overAt with
      | none => s
      | some t =>
        let ready := match s.fox.lastShed with | some u => decide (u + 50000000 ≤ s.now) | none => true
        if s.now < t + 50000000 ∨ !ready then s
        else
          match (List.range 16).find? fun d =>
            s.regBit R.FOX_BATT_SHED_EXTRA d && powered s d && !s.fox.shed.contains d with
          | some d =>
            let s := s.foxGate d true
            (s.setFox { s.fox with shed := s.fox.shed ++ [d], lastShed := some s.now }).settle
          | none => s.fault 2 3 []

/-- BATTERY_RUN_EXIT: mains has been back for 500 ms (R68). [DEDUCED, assumption 38] -/
def execBatteryRunExit (s : State) : Host.Outcome State Fault Refusal :=
  .next <|
    match s.fox.mains with
    | some t =>
      if s.pwr.mode == .batteryRun && decide (t + 500000000 ≤ s.now) && !s.regBit R.FOX_BATT_CTRL 16 && alive s 2 then
        let shed := domains.filter s.fox.shed.contains
        let s := s.setFox { s.fox with shed := [], overAt := none, lastShed := none }
        let s := shed.foldl (fun s d => s.foxGate d false) s
        let s := s.trunks true
        let s := s.setPwr { s.pwr with mode := .run }
        (s.setFld R.PWR_STATUS 2 0 1).modReg R.FOX_STATUS fun w => putBit w 2 false
      else s
    | none => s

end Sys2Proof.Machine
end

