-- ==== Sys2Proof/Machine/Power.lean ====
section
/-! DEFINITION. The power manager: entry to STANDBY and SLEEP, wake, chip reset, start-up, the power-fail warning, and
what each keeps (16_power_wake_reset.md R531-R557; R56, R446, R486, R518, R519). -/

namespace Sys2Proof.Machine

/-! ### What a reset of the whole module takes (R11, R542, R554) -/

/-- Registers of a class outlive a chip reset or STANDBY (level 0), SLEEP (1), loss of power (2).
[DEDUCED, assumption 112] -/
def keptAt (level : Nat) (k : Keeps) : Bool :=
  match k with
  | .b => false
  | .c => false
  | .w => level == 0
  | .s => level ≤ 1
  | .p => true

/-- A byte of fabric memory that a level keeps: MRAM and NOR at each, DRAM in self-refresh at level 0, scratch at none
(R26, R554). [DEDUCED, assumption 112] -/
def memKept (level a : Nat) : Bool :=
  !((0x08000000 ≤ a && a < 0x08200000) || (1 ≤ level && 0x800000000 ≤ a && a < 0xA00000000))

/-- FOX_VLAST_PDn follows each domain's setting (R56). [DEDUCED, assumption 34] -/
def State.saveVset (s : State) : State :=
  (List.range' 1 15).foldl (fun s n => s.setReg (R.FOX_VLAST_PD n) (s.reg (R.FOX_VSET_PD n))) s

/-- Freshness counters after a restart: transmit counters at their saved value + 2^16, receive counters at theirs
(R486). -/
def Cip.resume (c : Cip) : Kv Nat :=
  ((List.range 2048).map fun i => (i, kvGet c.saved i 0 + 65536)) ++ kvKeep (2048 ≤ ·) c.saved

/-- What the whole module loses at a level. [DEDUCED, assumption 112] -/
def State.loseAll (s : State) (level : Nat) : State :=
  let z := State.reset
  let low := s.toggling || s.alv.ending
  let safe := s.regBit R.ALV_STATUS 1
  let s := s.saveVset
  let s := if low then s.emit (.alive false) else s
  { z with
    regs := regsPut (s.regs.filter fun e => match regAt e.1 with | some l => keptAt level l.row.keeps | none => false)
      R.ALV_STATUS (if safe then 2 else 0)
    mem := s.mem.filter fun e => memKept level e.1
    hostMem := s.hostMem
    sys := { z.sys with bus := s.sys.bus, ctr := kvKeep (fun k => k / 0x100000 == 1 || k / 0x100000 == 26) s.sys.ctr }
    fox := { z.fox with mains := s.fox.mains }
    aud := { s.aud with
      waiting := [], rejMs := [], writeFail := false, push := s.reg R.AUD_EXP_SEQ, popped := s.reg R.AUD_EXP_SEQ }
    swc := { z.swc with nextId := s.swc.nextId }
    tim := { z.tim with tb3 := s.tim.tb3, refOk := s.tim.refOk, ratio := s.tim.ratio, saves := s.tim.saves }
    alv := { s.alv with
      half := none, restartHalf := none, applyAt := none, ending := false
      edgeAt := if low then s.now else s.alv.edgeAt }
    pwr := s.pwr
    ldg := { s.ldg with set := none, lost := none, orphans := [], late := [] }
    cip := { z.cip with fv := s.cip.fv, saved := s.cip.saved, causes := s.cip.causes }
    key := { s.key with att := none }
    upd := { s.upd with job := none, held := [], chunks := [], booted := false }
    out := s.out
    freeCtr := s.freeCtr
    pending := s.pending }.evalSafe

/-! ### Saves (R446, R518, R546, R550) -/

/-- The items of open captures are rewritten to the fault history (R446). [DEDUCED, assumption 94] -/
def State.saveHistory (s : State) : State :=
  s.sys.open_.foldl (fun s e =>
    if s.regBit (fltReg e.1 0x20) 8 then
      s.write (0x41400000 + (e.2.getD 7 0).toNat % 32768 * 32) (ofWords e.2)
    else s) s

/-- The saves before a chip reset or a state entry: the audit pending buffer, the fault history, the freshness counters
(R546). [DEDUCED, assumption 94] -/
def State.saves (s : State) : State :=
  let s := s.drainAll.saveHistory
  s.setCip { s.cip with saved := s.cip.fv }

/-- Admission stops (R163). -/
def State.stopAdmission (s : State) : State := s.modReg R.SWC_STATUS fun w => putBit w 0 true

/-- The saves of the power-fail warning (R550). -/
def State.failSaves (s : State) : State := ((s.saves).saveVset.saveTb3).ledgerFlush

/-! ### Start-up (R541, R542, R547, R548, R56) -/

/-- Count in the PWR counters (R556). -/
def State.pwrCtr (s : State) (k : Nat) : State := s.satCtr 1 1 k

/-- Every domain starts at its last setting + 20 mV, capped at 900 mV; at 900 mV where that is 0 (R56).
[DEDUCED, assumption 34] -/
def State.startVset (s : State) : State :=
  (List.range' 1 15).foldl (fun s n =>
    let v := (s.reg (R.FOX_VLAST_PD n)).toNat
    s.setReg (R.FOX_VSET_PD n) (word (if v = 0 then 900 else min 900 (v + 20)))) s

/-- The supply state that MAINS_OK and BATT_OK give (R58). -/
def State.supply (s : State) : Nat :=
  match s.regBit R.PWR_STATUS 3, s.regBit R.PWR_STATUS 4 with
  | true, false => 1
  | false, true => 2
  | _, _ => 0

/-- Sources latched in PWR_WAKE_SRC that forward (R541). [DEDUCED, assumption 111] -/
def State.wakeLatched (s : State) : List Nat := (List.range 16).filter fun k => s.regBit R.PWR_WAKE_SRC k

/-- Targets of the latched sources in one of the two forwarding registers, joined. [DEDUCED, assumption 111] -/
def State.wakeTargets (s : State) (r : Nat → Nat) (n : Nat) : List Nat :=
  (List.range n).filter fun b => s.wakeLatched.any fun k => s.regBit (r k) b

/-- Forward a wake: TC10 requests and LIN pulses as the domains are powered; CAN frames wait for the first kick (R541).
[DEDUCED, assumption 111] -/
def State.forwardWake (s : State) : State :=
  let eth := s.wakeTargets R.PWR_WFWD_ETH 20
  let bus := s.wakeTargets R.PWR_WFWD_BUS 32
  let s := (eth.filter fun i => powered s (portDomain (4 + i))).foldl (fun s i => s.emit (.tc10 (4 + i) true)) s
  let s := ((bus.filter (24 ≤ ·)).filter fun b => powered s (portDomain (72 + b))).foldl
    (fun s b => s.emit (.linWake (b - 24))) s
  let can := bus.filter (· < 24)
  let s := s.setPwr { s.pwr with fwd := can }
  if can.isEmpty && !(eth.isEmpty && bus.isEmpty) then s.raise 1 5 else s

/-- The ledger forms its replay set for a restart of a kind (R518, R519, R552). -/
def State.ledgerStart (s : State) (kind cause : Nat) : State :=
  if cause = 7 then s.formSet 3 ((s.pwr.pfwAt.getD s.now) / 1000) false
  else match kind with
    | 3 => s.formSet 1 s.nowUs false
    | 4 => s.formSet 2 s.nowUs false
    | 6 => s.ledgerRestore
    | _ => s

/-- The module starts after a reset of a kind of R542: every domain powered, in reset while RESET_N is held. -/
def State.startUp (s : State) (kind cause win src : Nat) : State :=
  let sup := s.supply
  let s := s.startVset
  let s := (s.setFld R.FOX_STATUS 1 0 sup).setReg (R.FOX_MEAS 28) (word sup)
  let s := (s.setReg R.PWR_PD_STATUS 0xFFFF).modReg R.PWR_STATUS fun w => putBit (putFld w 2 0 1) 5 false
  let s := s.setReg R.PWR_RST_CAUSE (word (cause + 16 * kind + 256 * win + 65536 * src))
  let gap := s.regBit R.TIM_TB3_STATUS 0 && kind == 6
  let s := s.setPwr { s.pwr with
    mode := .run, target := .run, chip := none, tc10 := [], fwd := []
    inReset := if s.pwr.resetPin then List.range' 1 15 else []
    keyLowAt := if s.regBit R.PWR_STATUS 6 then none else some s.now
    seqFails := if cause = 5 ∧ win = 1 ∧ src = 3 then s.pwr.seqFails else 0 }
  let s := s.putRestart kind gap
  let s := match kind with | 3 => s.pwrCtr 3 | 4 => s.pwrCtr 2 | 5 => s.pwrCtr 1 | _ => s.pwrCtr 0
  let s := s.setCip { s.cip with fv := s.cip.resume, causes := [] }
  let s := (s.ledgerStart kind cause).setPwr { s.pwr with pfwAt := none }
  let s := s.evalDomain 0
  if sup = 2 then s.enterBattery else s

/-- Causes that drive the cipher alarm drive it again as the cluster starts (R475). [DEDUCED, assumption 106] -/
def State.alarmAgain (s : State) (causes : List Nat) : State :=
  let s := causes.foldl State.cipAlarm s
  if causes.contains 1 then s.fault 17 3 [] else s

/-- Start with the alarm causes that hold. -/
def State.restartModule (s : State) (kind cause win src : Nat) : State :=
  let causes := s.cip.causes
  (s.startUp kind cause win src).alarmAgain causes

/-! ### Entry to STANDBY and SLEEP (R535-R537) -/

/-- A state request is refused (R536). -/
def State.stateReqOk (s : State) (v : Word) : Bool :=
  v.toNat == 0 || (bitOf v 31 && (fld v 2 0 == 3 || fld v 2 0 == 4) && s.pwr.mode != .entering && !s.regBit R.PWR_STATUS 5)

/-- The remaining steps of an entry: saves, selective wake, gating. [DEDUCED, assumption 112] -/
def State.finishEntry (s : State) : State :=
  let sleep := s.pwr.target == .sleep
  let s := s.stopAdmission.saves.saveTb3
  let can := (List.range 8).foldl (fun w n => putBit w (6 + n) (s.regBit (R.CAN_SWK_CFG n) 0)) (s.reg R.PWR_WAKE_EN)
  let s := s.setReg R.PWR_WAKE_EN can
  let s := if sleep then s.ledgerSleep else s
  let s := s.loseAll (if sleep then 1 else 0)
  let s := s.setReg R.PWR_PD_STATUS 1
  s.setPwr { s.pwr with mode := s.pwr.target, tc10 := [], inReset := [], entryAt := s.now, fwd := [] }

/-- The exit from STANDBY or SLEEP (R535, R542). -/
def State.wakeExit (s : State) : State :=
  let sleep := s.pwr.mode == .sleep
  ((s.restartModule (if sleep then 5 else 4) (if sleep then 2 else 3) 0 0).forwardWake).settle

/-- The entry ends; a source latched during it starts the exit at once (R553). -/
def State.endEntry (s : State) : State :=
  let latched := !s.wakeLatched.isEmpty && s.pwr.chip.isNone && s.pwr.entryWake
  let s := s.finishEntry
  if latched then s.wakeExit else s

/-- Entry begins: ALIVE_OUT stops with cause 8 and TC10 partners are asked to sleep (R537). -/
def State.beginEntry (s : State) (target : PwrMode) : State :=
  let ports := (List.range 20).filter fun i => s.regBit R.PWR_TC10_EN i
  let s := (s.aliveStop 8 0 0).setFld R.PWR_STATUS 2 0 5
  let s := s.setPwr { s.pwr with mode := .entering, target := target, tc10 := ports, entryAt := s.now, entryWake := false }
  let s := (ports.filter fun i => powered s (portDomain (4 + i))).foldl (fun s i => s.emit (.tc10 (4 + i) false)) s
  if ports.isEmpty then s.endEntry else s

/-- RUN or BATTERY-RUN. -/
def State.runs (s : State) : Bool := s.pwr.mode == .run || s.pwr.mode == .batteryRun

/-- An accepted write of PWR_STATE_REQ (R536). -/
def State.stateReq (s : State) (v : Word) : State :=
  if bitOf v 31 && s.runs && s.pwr.chip.isNone then s.beginEntry (if fld v 2 0 = 4 then .sleep else .standby) else s

/-- AUTO_SLEEP: KEY_IN has been low for AUTO_SLEEP minutes (R535). -/
def execAutoSleep (s : State) : Host.Outcome State Fault Refusal :=
  .next <|
    let n := s.regFld R.PWR_CFG 15 8
    match s.pwr.keyLowAt with
    | some t =>
      if s.runs && n != 0 && decide (t + n * 60 * giga ≤ s.now) && s.pwr.chip.isNone && !s.regBit R.PWR_STATUS 5 then
        s.beginEntry .sleep
      else s
    | none => s

/-- STANDBY_TIMEOUT: STBY_MAX minutes in STANDBY (R535). [DEDUCED, assumption 113] -/
def execStandbyTimeout (s : State) : Host.Outcome State Fault Refusal :=
  .next <|
    let n := s.regFld R.PWR_CFG 31 16
    if s.pwr.mode == .standby && n != 0 && decide (s.pwr.entryAt + n * 60 * giga ≤ s.now) && s.pwr.chip.isNone &&
        !s.regBit R.PWR_STATUS 5 then
      let s := s.ledgerSleep.loseAll 1
      s.setPwr { s.pwr with mode := .sleep, entryAt := s.now }
    else s

/-- TC10_SLEEP_ACK: the partner of Ethernet port n acknowledges (R537). -/
def execTc10SleepAck (n : Nat) (s : State) : Host.Outcome State Fault Refusal :=
  .next <|
    if s.pwr.mode != .entering || !s.pwr.tc10.contains (n - 4) || n < 4 then s
    else
      let left := s.pwr.tc10.filter (· != n - 4)
      let s := s.setPwr { s.pwr with tc10 := left }
      if left.isEmpty && s.pwr.chip.isNone then s.endEntry else s

/-- TC10_ACK_TIMEOUT: ports without an answer by TC10_TO_MS sleep regardless (R537). -/
def execTc10AckTimeout (s : State) : Host.Outcome State Fault Refusal :=
  .next <|
    if s.pwr.mode != .entering || s.pwr.tc10.isEmpty || s.pwr.chip.isSome ||
        s.now < s.pwr.entryAt + s.regFld R.PWR_CFG 7 0 * 1000000 then s
    else (s.pwr.tc10.foldl (fun s _ => s.pwrCtr 7) s).endEntry

/-! ### Wake (R538-R541) -/

/-- A wake source is enabled, and its timer has run out where it is the timer (R538). [DEDUCED, assumption 113] -/
def State.wakeEnabled (s : State) (k : Nat) : Bool :=
  let en := s.reg R.PWR_WAKE_EN
  if k = 3 then
    let n := (s.reg R.PWR_WAKE_TIMER).toNat
    bitOf en 3 && n != 0 && decide (s.pwr.entryAt + n * giga ≤ s.now)
  else if k ≤ 4 then bitOf en k
  else if k = 5 then true
  else if k ≤ 13 then (if s.pwr.mode == .entering then s.regBit (R.CAN_SWK_CFG (k - 6)) 0 else bitOf en k)
  else if k = 14 then fld en 23 16 != 0
  else if k = 15 then s.reg R.PWR_TC10_EN != 0
  else k == 16

/-- A wake is refused: mains absent and the battery below WAKE_MIN (R540). -/
def State.wakeBarred (s : State) (mains : Bool) (batt : Nat) : Bool :=
  !mains && decide (batt < s.regFld R.PWR_BATT_THR 31 16)

/-- A wake source is detected, with the mains input within range or not and the battery input's millivolts: it is latched
and starts the exit, is latched during entry, or is refused (R538, R540, R545, R553). [DEDUCED, assumption 115] -/
def State.wake (s : State) (k : Nat) (mains : Bool) (batt : Nat) : State :=
  let latch (s : State) : State := s.modReg R.PWR_WAKE_SRC fun w => putBit w k true
  let level (s : State) : State := s.modReg R.PWR_STATUS fun w =>
    putBit (putBit w 3 mains) 4 (decide (6000 ≤ batt && batt ≤ 32000))
  if !s.wakeEnabled k || (k == 4 && !mains) then s
  else match s.pwr.mode with
    | .entering => (latch s).setPwr { s.pwr with entryWake := true }
    | .sleep | .standby =>
      if s.regBit R.PWR_STATUS 5 || s.pwr.chip.isSome then s
      else if s.wakeBarred mains batt then s.pwrCtr 6
      else if k = 16 then (level (latch s)).decideChipReset 4 0 0
      else (level (latch s)).wakeExit
    | _ => s

/-- WAKE_SOURCE (R538, R540). [DEDUCED, assumption 114] -/
def execWakeSource (k : Nat) (mains : Bool) (batt : Nat) (s : State) : Host.Outcome State Fault Refusal :=
  .next (if k < 16 then s.wake k mains batt else s)

/-- KEY_IN_CHANGE (R556). -/
def execKeyInChange (high : Bool) (s : State) : Host.Outcome State Fault Refusal :=
  .next <|
    if s.pwr.mode == .off || s.regBit R.PWR_STATUS 6 == high then s
    else
      let s := s.modReg R.PWR_STATUS fun w => putBit w 6 high
      let s := s.setPwr { s.pwr with keyLowAt := if high then none else some s.now }
      s.raise 1 (if high then 0 else 1)

/-- Send the wake frame on CAN channel n, judged by its guard (R541). [DEDUCED, assumption 57 and 110] -/
def State.sendWakeFrame (s : State) (n : Nat) : State :=
  let line := mkBus (idWord (s.regFld R.PWR_WAKE_ID 28 0) (s.regBit R.PWR_WAKE_ID 29) false) 0 0 0 0 0 0xFF 0 0 []
  match s.guard (64 + n) ⟨59, 0, line, 0⟩ with
  | (some _, s) => s
  | (none, s) => ((s.emit (.frame (64 + n) line true)).addCtr (96 + n) 1 2 1).seeClaim n line

/-- WAKE_FWD_CAN_FRAME: the manifest is applied and ALIVE_OUT toggles (R541). [DEDUCED, assumption 110] -/
def execWakeFwdCanFrame (s : State) : Host.Outcome State Fault Refusal :=
  .next <|
    if !s.regBit R.GRD_STATUS 0 || !s.toggling then s
    else match s.pwr.fwd.find? fun n => s.canOn n && !s.lineBusy (64 + n) with
      | some n =>
        let s := (s.setPwr { s.pwr with fwd := s.pwr.fwd.filter (· != n) }).sendWakeFrame n
        if s.pwr.fwd.isEmpty then s.raise 1 5 else s
      | none => s

/-! ### Resets (R531, R542-R546, R553) -/

/-- RESET_N goes low for 10 us or more, or is released; `mains` and `batt` as for a wake (R545).
[DEDUCED, assumption 114] -/
def execResetN (low mains : Bool) (batt : Nat) (s : State) : Host.Outcome State Fault Refusal :=
  .next <|
    if s.pwr.mode == .off || s.pwr.resetPin == low then s
    else if !low then s.setPwr { s.pwr with
      resetPin := false, inReset := if s.pwr.chip.isNone then [] else s.pwr.inReset }
    else
      let s := s.setPwr { s.pwr with resetPin := true }
      if s.pwr.mode == .sleep || s.pwr.mode == .standby then s.wake 16 mains batt
      else
        let s := if s.pwr.mode == .entering then s.modReg R.PWR_WAKE_SRC fun w => putBit w 16 true else s
        s.decideChipReset 4 0 0

/-- CHIP_RESET: the decided chip reset takes effect after its saves; during the power-fail warning it waits (R542, R546,
R553). [DEDUCED, assumption 115] -/
def execChipReset (s : State) : Host.Outcome State Fault Refusal :=
  .next <|
    match s.pwr.chip with
    | none => s
    | some c =>
      if s.regBit R.PWR_STATUS 5 || s.pwr.mode == .off then s
      else ((s.saves.loseAll 0).restartModule 3 c.cause c.window c.source).settle

/-- POWER_GOOD_TIMEOUT: domain d does not report power-good; the third consecutive failure leaves the module in SLEEP
(R531, R553). [DEDUCED, assumption 116] -/
def execPowerGoodTimeout (d : Nat) (s : State) : Host.Outcome State Fault Refusal :=
  .next <|
    if d = 0 ∨ 15 < d ∨ !powered s d ∨ !s.runs then s
    else
      let n := s.pwr.seqFails + 1
      let s := s.setPwr { s.pwr with seqFails := n }
      let s := (s.gate d).fault 1 3 [word d]
      if n < 3 then s
      else
        let s := (s.saves.ledgerSleep.loseAll 1).setReg R.PWR_PD_STATUS 1
        let s := s.modReg R.PWR_RST_CAUSE fun w => putFld (putFld (putFld w 3 0 8) 15 8 1) 20 16 3
        s.setPwr { s.pwr with mode := .sleep, chip := none, seqFails := 0, inReset := [], entryAt := s.now, fwd := [] }

/-- An accepted write of PWR_CHIP_RST (R546). -/
def State.chipRst (s : State) : State := s.decideChipReset 6 0 0

/-- PWR_CHIP_RST takes one value (R546). -/
def chipRstOk (v : Word) : Bool := v == 0x5259#32

/-- COLD_POWER_ON: an input comes within range in OFF; `v` is the supply state as measurement 28 names it (R312, R535,
R548). [DEDUCED, assumption 72 and 114] -/
def execColdPowerOn (v : Nat) (s : State) : Host.Outcome State Fault Refusal :=
  .next <|
    if s.pwr.mode != .off || 2 < v then s
    else
      let s := s.modReg R.PWR_STATUS fun w => putBit (putBit w 3 (v < 2)) 4 (v != 1)
      let t3 := match s.tim.saves with | x :: _ => x + giga * frac32 | [] => 0
      let s := (s.setTb 3 { s.tim.tb3 with val := t3 }).modReg R.TIM_TB3_STATUS fun w => putBit w 0 true
      (s.restartModule 6 1 0 0).settle

/-! ### The power-fail warning (R549-R553) -/

/-- POWER_FAIL_WARNING: mains is out of range; `batt` says that the battery input is within range, below THR (R549,
R550). [DEDUCED, assumption 114 and 115] -/
def execPowerFailWarning (batt : Bool) (s : State) : Host.Outcome State Fault Refusal :=
  .next <|
    if s.pwr.mode == .off || s.regBit R.PWR_STATUS 5 then s
    else
      let was := s.regBit R.PWR_STATUS 3
      let s := s.modReg R.PWR_STATUS fun w => putBit (putBit (putBit w 3 false) 4 batt) 5 true
      let s := (s.setPwr { s.pwr with pfwAt := some s.now }).pwrCtr 4
      let s := (if was then s.raise 1 2 else s).raise 1 4
      match s.pwr.mode with
      | .sleep => s.saveTb3
      | .standby => (s.setPowered 2 true).failSaves
      | _ =>
        let batt := s.regBit R.FOX_STATUS 2
        let s := s.setPwr { s.pwr with
          mode := if batt then .batteryRun else .run, tc10 := [], entryWake := false }
        let s := (s.setFld R.PWR_STATUS 2 0 (if batt then 2 else 1)).stopAdmission
        let s := (s.aliveStop 6 0 0).failSaves
        ([7, 6, 9, 10, 12, 11, 14, 13, 15, 5, 4, 3, 8, 1].foldl State.gate s)

/-- POWER_FAIL_RECOVERED: both inputs have stayed within range for 50 ms (R552). -/
def execPowerFailRecovered (s : State) : Host.Outcome State Fault Refusal :=
  .next <|
    if s.pwr.mode == .off || !s.regBit R.PWR_STATUS 5 then s
    else
      let s := s.modReg R.PWR_STATUS fun w => putBit (putBit (putBit w 3 true) 4 true) 5 false
      let s := ((s.setPwr { s.pwr with chip := none }).pwrCtr 5).raise 1 3
      s.decideChipReset 7 0 0

/-- OUTPUT_LOST: regulated output is lost after the warning (R535, R550, R551). [DEDUCED, assumption 117] -/
def execOutputLost (s : State) : Host.Outcome State Fault Refusal :=
  .next <|
    if !s.regBit R.PWR_STATUS 5 then s
    else
      let s := (s.setAlv { s.alv with detector := false }).drainAll.loseAll 2
      let s := (s.setReg R.PWR_PD_STATUS 0).setPwr { s.pwr with
        mode := .off, target := .off, chip := none, tc10 := [], inReset := [], fwd := [], seqFails := 0
        keyLowAt := some 0, resetPin := false, pfwAt := none, entryWake := false }
      let s := s.setAlv State.reset.alv
      s.setLdg State.reset.ldg

/-- OVER_TEMP: measurement 58 has been above 125 degrees for 10 ms (R557). -/
def execOverTemp (s : State) : Host.Outcome State Fault Refusal :=
  .next (if s.runs && 6370 < s.meas 58 then s.fault 1 2 [] else s)

/-! ### Tamper (R475) -/

/-- TAMPER_ASSERT: the input is asserted or released: the alarm, the KEY source, and a wake; `mains` and `batt` as for a
wake. [DEDUCED, assumption 114] -/
def execTamperAssert (on mains : Bool) (batt : Nat) (s : State) : Host.Outcome State Fault Refusal :=
  .next <|
    if s.pwr.mode == .off || s.cip.causes.contains 1 == on then s
    else if !on then s.cipCauseEnd 1
    else if s.runs then (s.cipAlarm 1).fault 17 3 []
    else (s.setCip { s.cip with causes := lineIns 1 s.cip.causes }).wake 5 mains batt

end Sys2Proof.Machine
end

