-- ==== Sys2Proof/Machine/Update.lean ====
section
/-! DEFINITION. Firmware images, UPD_CMD, the boot ROM and the resident loader (18_update_and_lifecycle.md R581-R594,
R597, R598, R607-R614). -/

namespace Sys2Proof.Machine

/-- Replace the hidden state of the update controller. -/
def State.setUpd (s : State) (x : Upd) : State := { s with upd := x }

/-- The boot ROM as a master. -/
def bootRom : Master := ⟨0, .machine⟩

/-! ### Targets (R581) -/

/-- First NOR address of a target: firmware A, B, route A, B, loader A, B. -/
def targetBase (t : Nat) : Nat :=
  [0x50000000, 0x56000000, 0x5C800000, 0x5D800000, 0x5C000000, 0x5C200000].getD t 0

/-- Blocks of 64 KiB of a target. -/
def targetBlocks (t : Nat) : Nat := if t < 2 then 1536 else if t < 4 then 256 else 32

/-- Bytes of a block. -/
def blockBytes : Nat := 65536

/-- The bitmap of a target. -/
def State.bitmap (s : State) (t : Nat) : Nat := kvGet s.upd.maps t 0

/-- The bit of a block. -/
def State.hasBlock (s : State) (t b : Nat) : Bool := (s.bitmap t).testBit b

/-- Set or clear the bit of a block. -/
def State.setBlock (s : State) (t b : Nat) (v : Bool) : State :=
  let m := s.bitmap t
  let m := if m.testBit b == v then m else if v then m + 2 ^ b else m - 2 ^ b
  s.setUpd { s.upd with maps := if m = 0 then kvDel s.upd.maps t else kvSet s.upd.maps t m }

/-- Erase a block of NOR: it reads as NOR that nothing has written. [DESIGN CHOICE, assumption 2] -/
def State.norErase (s : State) (t b : Nat) : State :=
  let a := targetBase t + b * blockBytes
  { s with mem := s.mem.filter fun e => !(a ≤ e.1 && e.1 < a + blockBytes) }

/-- Erase and program a block. -/
def State.norWrite (s : State) (t b : Nat) (bs : Bytes) : State :=
  (s.norErase t b).write (targetBase t + b * blockBytes) (bs.take blockBytes)

/-! ### Firmware images (R582, R583, R592) -/

/-- SVN of an image header. -/
def fwSvn (bs : Bytes) : Nat := leAt bs 16 4

/-- VERSION of an image header. -/
def fwVersion (bs : Bytes) : Nat := leAt bs 12 4

/-- Header and section table. -/
def fwHead (bs : Bytes) : Bytes := bs.take (64 + 64 * leAt bs 24 2)

/-- The digest that identifies an image. -/
def fwDigest (bs : Bytes) : Bytes := sha384 (fwHead bs)

/-- Section descriptors of an image: TYPE, OFFSET, LENGTH, digest. -/
def fwSections (bs : Bytes) : List (Nat × Nat × Nat × Bytes) :=
  (List.range (min 32 (leAt bs 24 2))).map fun i =>
    let o := 64 + 64 * i
    (leAt bs o 2, leAt bs (o + 4) 4, leAt bs (o + 8) 4, slice bs (o + 16) 48)

/-- An image is valid against the fused security version; `full` checks every section's digest, otherwise those that are
loaded at every boot. [DEDUCED, assumption 140] -/
def fwValid (bs magic : Bytes) (max fused : Nat) (full : Bool) : Bool :=
  let n := leAt bs 24 2
  let total := imgTotal bs
  bs.take 4 == magic && leAt bs 4 2 == 1 && leAt bs 8 2 == 0x0960 && 1 ≤ n && n ≤ 32 &&
    64 + 64 * n + 96 ≤ total && total ≤ max && total ≤ bs.length && fused ≤ fwSvn bs && fwSvn bs ≤ 64 &&
    (fwSections bs).all (fun x => x.2.1 + x.2.2.1 ≤ total) &&
    Config.ecdsaVerify (Config.romKey 1) (beVal (fwDigest bs)) (beVal (slice bs (total - 96) 96)) &&
    (fwSections bs).all fun x =>
      (!full && !(0x201 ≤ x.1 && x.1 ≤ 0x203)) || sha384 (slice bs x.2.1 x.2.2.1) == x.2.2.2

/-- The bytes of a target's image. -/
def State.imageOf (s : State) (t : Nat) : Bytes := s.readImage (targetBase t) (targetBlocks t * blockBytes)

/-- The header of a target's image. -/
def State.headOf (s : State) (t : Nat) : Bytes := s.read (targetBase t) 64

/-- The fused security version. -/
def State.fusedSvn (s : State) : Nat := s.regFld R.UPD_FW_SVN 6 0

/-- A firmware slot is valid. -/
def State.slotValid (s : State) (slot : Nat) (full : Bool) : Bool :=
  fwValid (s.imageOf slot) (ascii "PGFW") (1536 * blockBytes) s.fusedSvn full

/-- The loader copy that the boot ROM starts: the valid one with the higher VERSION (R592).
[DEDUCED, assumption 122] -/
def State.bestLoader (s : State) : Option Nat :=
  let ok (t : Nat) : Bool := fwValid (s.imageOf t) (ascii "PGLD") (32 * blockBytes) s.fusedSvn true
  match ok 4, ok 5 with
  | true, true => if fwVersion (s.headOf 4) < fwVersion (s.headOf 5) then some 5 else some 4
  | true, false => some 4
  | false, true => some 5
  | false, false => none

/-! ### Configuration banks (R599, R607) -/

/-- Address of a configuration bank. -/
def bankBase (b : Nat) : Nat := 0x40A00000 + b * 0x400000

/-- A bank's header. -/
def State.bankHead (s : State) (b : Nat) : Bytes := s.read (bankBase b) 128

/-- A bank holds a configuration: MAGIC, SEQ and DIGEST are valid. -/
def State.bankOk (s : State) (b : Nat) : Bool :=
  let h := s.bankHead b
  h.take 4 == ascii "PGCF" && leAt h 124 4 != 0 && leAt h 124 4 != 0xFFFFFFFF && leAt h 8 4 ≤ 0x400000 - 128 &&
    sha384 (s.read (bankBase b + 128) (leAt h 8 4)) == slice h 32 48

/-! ### Running slot, trials, steps -/

/-- The running firmware slot. -/
def State.runSlot (s : State) : Nat := s.regFld R.UPD_RUN 0 0

/-- A firmware trial is open. -/
def trialOpen (r : Bytes) : Bool := selState r 0 == 2 || selState r 1 == 2

/-- The configuration bank of the running slot. [DEDUCED, assumption 61] -/
def State.runBank (s : State) : Nat := byteAt s.sel (10 + s.runSlot) % 2

/-- Count in the UPD counters (R613). -/
def State.updCtr (s : State) (k : Nat) : State := s.satCtr 26 1 k

/-- A slot becomes BAD in a record that is to be written: its step and fault source (R610, R614). -/
def State.markBad (s : State) (r : Bytes) (slot why : Nat) : Bytes × State :=
  let reason := byteAt r 9
  let reason := if slot = 0 then reason / 16 * 16 + why else reason % 16 + why * 16
  let r := selPut (selPut r (6 + slot) 4) 9 reason
  (r, (s.logUpdate bootRom 5 (word slot) (word why)).fault 26 2 [word slot, word why])

/-- The rollback of R588. A trial of an imported configuration has the running slot itself as fallback, and returns it to its
other bank (R602, assumption 61). -/
def State.rollback (s : State) (m : Master) (r : Bytes) (why : Nat) : Bytes × State :=
  let a := byteAt r 4
  let f := byteAt r 5
  let (r, s) :=
    if f = a then
      let r := selPut (selPut r (6 + a) 3) (10 + a) (1 - byteAt r (10 + a) % 2)
      (selPut r 5 0xFF, s)
    else
      let (r, s) := s.markBad r a why
      (selPut (selPut r 4 f) 5 0xFF, s)
  let s := (s.writeSel r).updCtr 3
  (r, (s.logUpdate m 7 (word a) (word f)).raise 26 2)

/-! ### UPD_CMD (R584, R585, R589, R590, R593, R597, R598, R608, R611, R613) -/

/-- OP, TARGET and BLOCK of a command. -/
def updOp (v : Word) : Nat := fld v 7 0

/-- UPD_SRC. -/
def State.updSrc (s : State) : Nat := (s.reg (R.UPD_SRC 0)).toNat + s.regFld (R.UPD_SRC 1) 15 0 * 2 ^ 32

/-- A write of UPD_CMD is in range, and no command runs (R613). [DEDUCED, assumption 118] -/
def State.updCmdOk (s : State) (v : Word) : Bool :=
  !bitOf v 31 ||
  (s.upd.job.isNone && fld v 11 8 ≤ 5 && fld v 26 16 < targetBlocks (fld v 11 8) && 1 ≤ updOp v && updOp v ≤ 11)

/-- A target that WRITE_BLOCK and ERASE may not name (R585). -/
def State.targetBarred (s : State) (t : Nat) : Bool :=
  let r := s.sel
  (t < 2 && t == s.runSlot && s.upd.mode == .firmware) || (t < 2 && trialOpen r && byteAt r 5 == t) ||
    (2 ≤ t && t < 4 && (byteAt r 12 == t - 2 || byteAt r 13 == t - 2)) || (4 ≤ t && s.upd.loader == some t)

/-- Every block of a target but block 0 is held, up to the TOTAL_LEN of a header (R584). -/
def State.restHeld (s : State) (t : Nat) (head : Bytes) : Bool :=
  (List.range' 1 (ceilDiv (imgTotal head) blockBytes - 1)).all (s.hasBlock t)

/-- The route slot on trial has the digest that SIG_RI_ACT_DIG gives (R597). -/
def State.routeRuns (s : State) (slot : Nat) : Bool :=
  wordAt (imgDigest (s.imageOf (2 + slot))) 0 == s.reg R.SIG_RI_ACT_DIG

/-- Why a command is refused: RESULT 4 `REJECTED`, 5 `LOCKED` at the hold mark (R97, R610); none where it runs.
[DEDUCED, assumption 118] -/
def State.updRefusal (s : State) (m : Master) (v : Word) : Option Nat :=
  let op := updOp v
  let t := fld v 11 8
  let b := fld v 26 16
  let r := s.sel
  let step := !(op == 1 && (b != 0 || 2 ≤ t)) && op != 9
  let run := s.runSlot
  let ok := match op with
    | 1 => !s.targetBarred t && (inDram s.updSrc blockBytes || inScratch s.updSrc blockBytes) &&
        (b != 0 || s.restHeld t (s.read s.updSrc 64))
    | 2 => !s.targetBarred t
    | 3 =>
      let h := s.headOf t
      t < 2 && !trialOpen r && (selState r t == 1 || (selState r t == 3 && (t != run || s.upd.imported))) &&
        s.fusedSvn ≤ fwSvn h && byteAt h 27 ≤ s.regFld R.UPD_BLEVEL 1 0 && s.regFld R.UPD_BLEVEL 1 0 ≤ byteAt h 26
    | 4 => s.regBit R.UPD_RUN 1 && selState r run == 2
    | 5 => s.regBit R.UPD_RUN 1 && selState r run == 2
    | 7 => byteAt r 13 ≤ 1 && s.routeRuns (byteAt r 13)
    | 8 => m.origin == 1 && leAt r 24 4 ≤ s.updSrc % 2 ^ 32
    | 10 => t == run && !trialOpen r && (selState r (1 - t) == 4 || bitOf v 30)
    | 11 =>
      let l := byteAt (s.bankHead s.runBank) 12
      1 ≤ l && l ≤ 3
    | _ => true
  if step && 2 < m.origin && s.holding then some 5 else if ok then none else some 4

/-- A command ends: RESULT and CMD_DONE. -/
def State.updEnd (s : State) (r : Nat) : State :=
  ((s.setUpd { s.upd with job := none }).setReg R.UPD_CMD_STAT (word (r * 256))).raise 26 0

/-- A firmware slot becomes EMPTY, where it is not. -/
def State.slotEmpty (s : State) (t : Nat) : State :=
  if t < 2 ∧ selState s.sel t ≠ 0 then s.writeSel (selPut s.sel (6 + t) 0) else s

/-- An accepted write of UPD_CMD: the command is refused at once, or runs; a WRITE_BLOCK clears its bit, and erases. -/
def State.updGo (s : State) (m : Master) (v : Word) : State :=
  if !bitOf v 31 then s
  else match s.updRefusal m v with
    | some r => s.updEnd r
    | none =>
      let s := (s.setUpd { s.upd with job := some ⟨m, v, s.updSrc⟩ }).setReg R.UPD_CMD_STAT 1
      let t := fld v 11 8
      let b := fld v 26 16
      match updOp v with
      | 1 => ((if b = 0 then s.slotEmpty t else s).setBlock t b false).norErase t b
      | 2 => ((s.slotEmpty t).setBlock t 0 false).norErase t 0
      | _ => s

/-- A block is programmed and read back; with block 0 a firmware slot becomes STAGED. -/
def State.writeBlockDone (s : State) (j : UpdJob) (t b : Nat) : State :=
  let bs := s.read j.src blockBytes
  let s := ((s.norWrite t b bs).setBlock t b true).updCtr 0
  if t < 2 ∧ b = 0 then
    ((s.writeSel (selPut s.sel (6 + t) 1)).logUpdate j.m 2 (word t) (word (fwVersion bs))).raise 26 1
  else s

/-- Every block of a target is erased. -/
def State.eraseDone (s : State) (j : UpdJob) (t : Nat) : State :=
  let a := targetBase t
  let n := targetBlocks t * blockBytes
  let s := { s with mem := s.mem.filter fun e => !(a ≤ e.1 && e.1 < a + n) }
  let s := s.setUpd { s.upd with maps := kvDel s.upd.maps t }
  ((s.slotEmpty t).updCtr 1).logUpdate j.m 1 (word t) 0

/-- The work of a command other than WRITE_BLOCK and ERASE. [DEDUCED, assumption 121] -/
def State.updWork (s : State) (j : UpdJob) : State :=
  let v := j.cmd
  let t := fld v 11 8
  let r := s.sel
  let run := s.runSlot
  match updOp v with
  | 3 =>
    let r := selPut (selPut (selPut r 4 t) 5 run) (6 + t) 2
    let r := selPut (selPut r 8 3) (10 + t) (1 - s.runBank)
    (((s.setUpd { s.upd with imported := false }).writeSel r).updCtr 2).logUpdate j.m 3 (word run) (word t)
  | 4 =>
    let svn := fwSvn (s.headOf run)
    let r := selPut r (6 + run) 3
    let r := if s.fusedSvn < svn then selSetFlag (putBytes r 16 (leBytes 4 svn)) 0 true else r
    ((s.writeSel r).updCtr 6).logUpdate j.m 6 (word run) (s.reg R.UPD_RUN_VER)
  | 5 => (s.rollback j.m r 2).2
  | 6 =>
    let slot := 1 - byteAt r 12 % 2
    (s.writeSel (selPut r 13 slot)).logUpdate j.m 0xB (word (1 + 256 * slot)) (word (leAt (s.headOf (2 + slot)) 12 4))
  | 7 =>
    let slot := byteAt r 13
    let h := s.headOf (2 + slot)
    let r := putBytes (selPut (selPut r 12 slot) 13 0xFF) 20 (leBytes 4 (max (leAt r 20 4) (leAt h 16 4)))
    (s.writeSel r).logUpdate j.m 0xB (word (3 + 256 * slot)) (word (leAt h 12 4))
  | 8 =>
    let g := j.src % 2 ^ 32
    (s.writeSel (putBytes r 24 (leBytes 4 g))).logUpdate j.m 0xC 2 (word g)
  | 9 => s.writeSel (selSetFlag r 1 true)
  | 10 =>
    let r := selPut (selSetFlag r 2 true) 15 t
    (s.writeSel (putBytes r 28 (leBytes 4 1 ++ leBytes 8 j.src))).logUpdate j.m 9 (word t) 1
  | 11 =>
    s.logUpdate j.m 0xF (word (s.regFld R.UPD_BLEVEL 1 0)) (word (byteAt (s.bankHead s.runBank) 12))
  | _ => s

/-- UPD_CMD_DONE: the command that runs completes; `retries` is how many times a NOR block had to be erased and programmed
again, and 3 or more that it failed, so that its RESULT is free (R584, R614). [DESIGN CHOICE, assumption 99] -/
def execUpdCmdDone (retries : Nat) (s : State) : Host.Outcome State Fault Refusal :=
  .next <|
    match s.upd.job with
    | none => s
    | some j =>
      if !alive s 2 then s
      else
        let t := fld j.cmd 11 8
        let b := fld j.cmd 26 16
        let op := updOp j.cmd
        let s := if op ≤ 2 then (List.range (min retries 2)).foldl (fun s _ => s.updCtr 4) s else s
        if op ≤ 2 ∧ 3 ≤ retries then
          let r := (Config.freeWord s.freeCtr).toNat % 16
          ((s.tickFree.fault 26 1 [word t, word (if op = 1 then b else 0)]).raise 26 3).updEnd r
        else
          let s := match op with
            | 1 => s.writeBlockDone j t b
            | 2 => s.eraseDone j t
            | _ => s.updWork j
          s.updEnd 0

/-! ### Registers that show the record (R612, R613) -/

/-- UPD_STATUS. -/
def State.updStatus (s : State) : Word :=
  let r := s.sel
  word ((if trialOpen r then 1 else 0) + (if selFlag r 0 then 2 else 0) + (if selFlag r 2 then 4 else 0))

/-- UPD_SEL; 0 where no record is valid. -/
def State.updSel (s : State) : Word :=
  match s.selWinner with
  | none => 0
  | some (_, r) =>
    let two (v : Nat) : Nat := if 1 < v then 3 else v
    word (byteAt r 4 % 2 + 4 * two (byteAt r 5) + 16 * (selState r 0 % 8) + 256 * (selState r 1 % 8) +
      4096 * (byteAt r 8 % 4) + 65536 * (byteAt r 12 % 2) + 131072 * two (byteAt r 13))

/-- UPD_SEL_SEQ. -/
def State.updSelSeq (s : State) : Word := match s.selWinner with | some (_, r) => wordAt r 15 | none => 0

/-- UPD_HOURS. -/
def State.updHours (s : State) : Word := satWord (s.pwr.runNs / (3600 * giga))

/-- Words of a bitmap that selector 0x0100 + t × 4 + q gives. -/
def State.bitmapWords (s : State) (t q : Nat) : List Word :=
  (List.range 16).map fun i => word (s.bitmap t / 2 ^ (q * 512 + i * 32))

/-! ### The boot ROM (R588, R595, R607) -/

/-- Recovery mode: BAR4 gives the DRAM to the host; a cause is 1 no slot, 2 request, 3 pins.
[DEDUCED, assumption 123] -/
def State.enterRecovery (s : State) (cause : Nat) : State :=
  let s := s.setUpd { s.upd with mode := .recovery, held := [], chunks := [], cause := cause }
  let s := ((s.setReg R.HBR_BAR4_BASE 0).setReg R.HBR_BAR4_LIM 0x8F7F0000).updCtr 7
  s.logUpdate bootRom 0xA (word cause) 0

/-- Start a firmware slot with its bank: UPD_RUN, UPD_RUN_VER, its digest, and the behaviour level of its bank; a route trial
ends, since the keeper loads ROUTE_ACTIVE (R588, R597, R607). [DEDUCED, assumption 121] -/
def State.bootSlot (s : State) (r : Bytes) (slot : Nat) : State :=
  let trial := selState r slot == 2
  let h := s.headOf slot
  let s := s.setReg R.UPD_RUN (word (slot + (if trial then 6 else 0)))
  let s := s.setReg R.UPD_RUN_VER (word (fwVersion h))
  let s := s.setUpd { s.upd with mode := .firmware, digest := fwDigest (s.imageOf slot) }
  let b := byteAt r (10 + slot) % 2
  let l := byteAt (s.bankHead b) 12
  let s := if s.bankOk b ∧ 1 ≤ l ∧ l ≤ 3 then
      { s.setReg R.UPD_BLEVEL (word l) with sys := { s.sys with wlDone := s.sys.wlDone ++ [R.UPD_BLEVEL] } }
    else s
  if byteAt r 13 = 0xFF then s else s.writeSel (selPut r 13 0xFF)

/-- No position holds a record: the valid slot with the higher VERSION is booted and a new record written (R586).
[DEDUCED, assumption 119] -/
def State.bootFresh (s : State) : State :=
  let best := match s.slotValid 0 false, s.slotValid 1 false with
    | true, true => some (if fwVersion (s.headOf 0) < fwVersion (s.headOf 1) then 1 else 0)
    | true, false => some 0
    | false, true => some 1
    | false, false => none
  match best with
  | none => s.enterRecovery 1
  | some k =>
    let top (o : Nat) : Nat := ([0, 1].filter s.bankOk).foldl (fun n b => max n (leAt (s.bankHead b) o 4)) 0
    let r := selPut (selPut selBlank 4 k) (6 + k) 3
    let r := putBytes (putBytes r 20 (leBytes 4 (top 16))) 24 (leBytes 4 (top 20))
    (s.writeSel r).bootSlot r k

/-- A staged security version is fused, and slots below it become BAD; one record is written where either happens.
[DEDUCED, assumption 120] -/
def State.bootFuses (s : State) (r : Bytes) : Bytes × State :=
  let staged := selFlag r 0
  let old := s.fusedSvn
  let (r', s) :=
    if staged then
      let new := max old (min 64 (leAt r 16 4))
      (selSetFlag r 0 false, (s.setReg R.UPD_FW_SVN (word new)).logUpdate bootRom 8 (word old) (word new))
    else (r, s)
  let (r', s) := [0, 1].foldl (fun (x : Bytes × State) k =>
    let st := selState x.1 k
    if (st = 1 ∨ st = 3) ∧ fwSvn (x.2.headOf k) < x.2.fusedSvn then x.2.markBad x.1 k 3 else x) (r', s)
  (r', if r' = r then s else s.writeSel r')

/-- Select and verify a slot, and boot it or enter recovery. -/
def State.bootSelect (s : State) (r : Bytes) : State :=
  let a := byteAt r 4 % 2
  let (r, s) :=
    if selState r a ≠ 2 then (r, s)
    else if byteAt r 8 = 0 then s.rollback bootRom r 2
    else
      let r := selPut r 8 (byteAt r 8 - 1)
      (r, ((s.writeSel r).updCtr 5).logUpdate bootRom 4 (word a) (word (byteAt r 8)))
  let a := byteAt r 4 % 2
  let st := selState r a
  if byteAt r 4 ≤ 1 ∧ (st = 2 ∨ st = 3) ∧ s.slotValid a (st == 2) then s.bootSlot r a
  else
    let (r, s) :=
      if 1 < byteAt r 4 then (r, s)
      else if st = 2 then s.rollback bootRom r 1
      else
        let (r, s) := s.markBad r a 1
        let r := if selState r (1 - a) = 3 then selPut r 4 (1 - a) else r
        (r, s.writeSel r)
    let a := byteAt r 4 % 2
    if byteAt r 4 ≤ 1 ∧ selState r a = 3 ∧ s.slotValid a false then s.bootSlot r a else s.enterRecovery 1

/-- BOOT: the boot ROM runs once after each start; `pins` says that WAKE_A and WAKE_B are active throughout the first 500 ms
(R588, R595). [DEDUCED, assumption 122] -/
def execBoot (pins : Bool) (s : State) : Host.Outcome State Fault Refusal :=
  .next <|
    if s.upd.booted || !s.runs || !alive s 1 || !alive s 2 then s
    else
      let s := s.lcBoot.setUpd { s.lcBoot.upd with booted := true, loader := s.bestLoader }
      let cold := s.regFld R.PWR_RST_CAUSE 7 4 == 6
      match s.selWinner with
      | none => if pins && cold then s.enterRecovery 3 else s.bootFresh
      | some (_, r) =>
        let (r, s) := s.bootFuses r
        if selFlag r 2 then s.setUpd { s.upd with mode := .loader }
        else if selFlag r 1 then (s.writeSel (selSetFlag r 1 false)).enterRecovery 2
        else if pins && cold then s.enterRecovery 3
        else s.bootSelect r

/-! ### The resident loader (R593, R594) -/

/-- The journal is closed. -/
def selClosed (r : Bytes) : Bytes := putBytes (selPut (selSetFlag r 2 false) 15 0) 28 (List.replicate 12 0)

/-- Block 0 of a slot stands: it goes on trial, with the tries of a new image, and the module resets (R594, R596). -/
def State.trialOf (s : State) (r : Bytes) (slot fallback : Nat) : State :=
  let r := selPut (selPut (selPut (selPut r 4 slot) 5 fallback) (6 + slot) 2) 8 3
  s.writeSel r

/-- RESIDENT_LOADER: the loader verifies the staged image and copies one block, or closes the journal (R594). An image is
looked for in DRAM after the resets that keep it; otherwise the loader waits for AQ-REC. [DEDUCED, assumption 124] -/
def execResidentLoader (s : State) : Host.Outcome State Fault Refusal :=
  .next <|
    let r := s.sel
    let kind := s.regFld R.PWR_RST_CAUSE 7 4
    if s.upd.mode != .loader || !selFlag r 2 || !(kind == 3 || kind == 4) || s.pwr.chip.isSome || !alive s 8 then s
    else
      let slot := byteAt r 15 % 2
      let src := leAt r 32 8
      let bs := s.readImage src (1536 * blockBytes)
      let next := leAt r 28 4
      let n := ceilDiv (imgTotal bs) blockBytes
      if !fwValid bs (ascii "PGFW") (1536 * blockBytes) s.fusedSvn true then
        ((s.writeSel (selClosed r)).logUpdate ⟨2, .machine⟩ 9 (word slot) 0).decideChipReset 6 0 0
      else if next < n then
        let s := (s.slotEmpty slot).norErase slot 0
        let s := s.norWrite slot next (slice bs (next * blockBytes) blockBytes)
        s.writeSel (putBytes s.sel 28 (leBytes 4 (next + 1)))
      else
        let s := (s.slotEmpty slot).norWrite slot 0 (bs.take blockBytes)
        let s := s.trialOf (selClosed s.sel) slot 0xFF
        (s.logUpdate ⟨2, .machine⟩ 9 (word slot) 0).decideChipReset 6 0 0

end Sys2Proof.Machine
end

