-- ==== Sys2Proof/Machine/Aqene.lean ====
section
/-! DEFINITION. Host mailboxes, the Aqene negotiation, and the recovery protocol (11_host_rings.md R386-R388,
18_update_and_lifecycle.md R595, R596, R603-R607). A party is a PCIe function 0-7, 0x100 + an Ethernet port, or 0x200 +
256 × a CAN channel + an address. -/

namespace Sys2Proof.Machine

/-! ### Host mailboxes (R386) -/

/-- A function posts the inbound mailbox (bit 0) or releases the outbound one (bit 1). -/
def State.hmbDb (s : State) (f : Nat) (v : Word) : State :=
  let s := if bitOf v 1 then s.modReg (R.HMB_STAT f) fun w => putBit w 1 false else s
  if bitOf v 0 then (s.modReg (R.HMB_STAT f) fun w => putBit w 0 true).raise 9 3 else s

/-- Send the MSI-X entry of OUT_POST. -/
def State.hmbSignal (s : State) (f : Nat) : State :=
  let v := s.regFld (R.HMB_VEC f) 9 0
  if !s.fnReady f then s
  else if v < msixEntries f then s.emit (.msix f v)
  else s.badVector

/-- Firmware releases the inbound mailbox (bit 0) or posts the outbound one (bit 1). -/
def State.hmbFwdb (s : State) (f : Nat) (v : Word) : State :=
  let s := if bitOf v 0 then s.modReg (R.HMB_STAT f) fun w => putBit w 0 false else s
  if bitOf v 1 then (s.modReg (R.HMB_STAT f) fun w => putBit w 1 true).hmbSignal f else s

/-- A write of HMBf_DB or HMBf_FWDB is accepted: IN_POST while IN_FULL, or OUT_POST while OUT_FULL, is refused. -/
def State.hmbOk (s : State) (f : Nat) (fw : Bool) (v : Word) : Bool :=
  if fw then !(bitOf v 1 && s.regBit (R.HMB_STAT f) 1) else !(bitOf v 0 && s.regBit (R.HMB_STAT f) 0)

/-- Firmware sends a message to a function: it takes the inbound mailbox and fills the outbound one, unless that is full. -/
def State.hmbSend (s : State) (f : Nat) (bs : Bytes) : State :=
  let s := s.modReg (R.HMB_STAT f) fun w => putBit w 0 false
  if s.regBit (R.HMB_STAT f) 1 then s
  else
    let bs := slice bs 0 64
    let s := (List.range 16).foldl (fun s i => s.setReg (R.HMB_OUT f i) (wordAt bs i)) s
    s.hmbFwdb f 2

/-- A message leaves for a party: through the host mailbox, or on the network. [DESIGN CHOICE, assumption 126] -/
def State.sendTo (s : State) (party : Nat) (bs : Bytes) : State :=
  (if party < 8 then s.hmbSend party bs else s).emit (.message party bs)

/-! ### Messages (R603) -/

/-- Header fields: TYPE, TXN, IFACE, MAJOR, FEATURES. -/
def aqType (bs : Bytes) : Nat := byteAt bs 2

/-- TXN. -/
def aqTxn (bs : Bytes) : Nat := byteAt bs 3

/-- IFACE. -/
def aqIface (bs : Bytes) : Nat := leAt bs 4 2

/-- MAJOR. -/
def aqMajor (bs : Bytes) : Nat := byteAt bs 6

/-- FEATURES. -/
def aqFeatures (bs : Bytes) : Nat := leAt bs 8 8

/-- A message of the negotiation. [DESIGN CHOICE, assumption 126] -/
def aqMessage (ty txn iface major features : Nat) : Bytes :=
  [0x51, 0x41, byte ty, byte txn] ++ leBytes 2 iface ++ [byte major, 0] ++ leBytes 8 features

/-- The header's MARKER stands, and the message has its 16 bytes. -/
def aqWhole (bs : Bytes) : Bool := 16 ≤ bs.length && leAt bs 0 2 == 0x4151

/-- Key of a party's interface. -/
def aqKey (party iface : Nat) : Nat := party * 65536 + iface

/-! ### What is supported (R387, R606, R607) -/

/-- Clear the bits of a map for which a predicate fails. -/
def aqMask (map : Nat) (p : Nat → Bool) : Nat :=
  ((List.range 8).filter fun b => map.testBit b && p b).foldl (fun n b => n + 2 ^ b) 0

/-- Highest major at the behaviour level. -/
def aqHighest (level iface : Nat) : Nat :=
  match iface with
  | 1 => if level = 1 then 2 else 3
  | 2 => if level = 1 then 1 else 2
  | 3 => if level = 1 then 1 else 2
  | _ => 1

/-- Features of an interface in a major, at a level, for a party. -/
def aqSupported (level iface major party : Nat) : Nat → Bool
  | b => match iface with
    | 1 =>
      (b == 0 || (b == 4 && party == 0) || ((b == 1 || b == 2 || b == 5) && 2 ≤ major) ||
        (b == 3 && 3 ≤ major) || (b == 6 && 3 ≤ major && level != 2))
    | 2 => b ≤ 2 || ((b == 3 || (b == 4 && level != 2)) && 2 ≤ major)
    | 3 => b == 0 || (b == 1 && 2 ≤ major)
    | _ => b ≤ 2

/-- A map reduced to what is supported, with bits cleared whose dependencies are absent. -/
def aqReduce (level iface major party map : Nat) : Nat :=
  let m := aqMask map (aqSupported level iface major party)
  if iface = 1 ∧ !m.testBit 1 then aqMask m fun b => b != 2 && b != 3 else m

/-- The party may negotiate the interface now: AQ-HOST belongs to functions, AQ-PEER to the network, AQ-REC to recovery and
the loader, which speak nothing else. -/
def State.aqPermitted (s : State) (party iface : Nat) : Bool :=
  match iface with
  | 4 => s.upd.mode != .firmware && (party == 0 || party == 0x100 + 28)
  | 1 => s.upd.mode == .firmware && party < 8
  | 2 => s.upd.mode == .firmware && 8 ≤ party
  | _ => s.upd.mode == .firmware

/-! ### Negotiation (R388, R604) -/

/-- Replace the negotiation's state. -/
def State.setAqn (s : State) (x : Aqn) : State := { s with aqn := x }

/-- The module can take messages: the keeper runs. -/
def State.aqRuns (s : State) : Bool := s.runs && alive s 1

/-- An agreement falls: for AQ-HOST the function's rings are disabled as for FLR, and its grant goes (R385, R388). -/
def State.aqDrop (s : State) (party iface : Nat) : State :=
  let s := s.setAqn { s.aqn with
    agree := kvDel s.aqn.agree (aqKey party iface), answered := kvDel s.aqn.answered (aqKey party iface) }
  if iface = 1 ∧ party < 8 then
    let s := (s.stopRings party).cancelAll (fun o => o.owner == party) true
    ((s.setReg (R.QMG_OWN_AQ party) 0).setReg (R.QMG_OWN_FEAT_LO party) 0).setReg (R.QMG_OWN_FEAT_HI party) 0
  else s

/-- The answer to an OFFER, and for an ACCEPT what it names. [DEDUCED, assumption 127] -/
def State.aqAnswer (s : State) (party : Nat) (bs : Bytes) : Bytes × Option (Nat × Nat) :=
  let i := aqIface bs
  let refuse (why : Nat) := (aqMessage 3 (aqTxn bs) i 0 why, none)
  let level := s.regFld R.UPD_BLEVEL 1 0
  if i = 0 ∨ 4 < i then refuse 2
  else if !s.aqPermitted party i then refuse 3
  else if aqMajor bs = 0 then refuse 1
  else
    let major := min (aqMajor bs) (aqHighest level i)
    let map := aqReduce level i major party (aqFeatures bs)
    (aqMessage 2 (aqTxn bs) i major map, some (major, map))

/-- Remember a party's message with its answer, and send that. [DESIGN CHOICE, assumption 126] -/
def State.aqReply (s : State) (party : Nat) (bs ans : Bytes) : State :=
  (s.setAqn { s.aqn with last := kvSet s.aqn.last party (bs, ans) }).sendTo party ans

/-- A message repeated word for word is answered as it was. -/
def State.aqRepeat (s : State) (party : Nat) (bs : Bytes) : Option Bytes :=
  match kvGet? s.aqn.last party with
  | some (m, a) => if m == bs then some a else none
  | none => none

/-- AQENE_OFFER: a party's OFFER is answered; any earlier agreement, and an OFFER of the gateway's own, fall first. -/
def execAqeneOffer (party : Nat) (msg : Bytes) (s : State) : Host.Outcome State Fault Refusal :=
  .next <|
    if !s.aqRuns || !aqWhole msg || aqType msg != 1 then s
    else match s.aqRepeat party msg with
      | some a => s.sendTo party a
      | none =>
        let i := aqIface msg
        let s := s.aqDrop party i
        let s := s.setAqn { s.aqn with offers := if i = 2 then kvDel s.aqn.offers party else s.aqn.offers }
        let (a, x) := s.aqAnswer party msg
        let s := match x with
          | some v => s.setAqn { s.aqn with answered := kvSet s.aqn.answered (aqKey party i) v }
          | none => s
        (s.aqReply party msg a).settle

/-- AQENE_CONFIRM: one that gives what the ACCEPT gave makes the agreement; another is answered REFUSE, reason 4. -/
def execAqeneConfirm (party : Nat) (msg : Bytes) (s : State) : Host.Outcome State Fault Refusal :=
  .next <|
    if !s.aqRuns || !aqWhole msg || aqType msg != 4 then s
    else match s.aqRepeat party msg with
      | some a => s.sendTo party a
      | none =>
        let i := aqIface msg
        if kvGet? s.aqn.answered (aqKey party i) != some (aqMajor msg, aqFeatures msg) then
          s.aqReply party msg (aqMessage 3 (aqTxn msg) i 0 4)
        else
          let s := s.setAqn { s.aqn with agree := kvSet s.aqn.agree (aqKey party i) (aqMajor msg, aqFeatures msg) }
          if i = 1 ∧ party < 8 then
            let s := s.keeperPut (R.QMG_OWN_AQ party) (word (2 ^ 31 + aqMajor msg))
            let s := s.keeperPut (R.QMG_OWN_FEAT_LO party) (word (aqFeatures msg))
            let s := s.keeperPut (R.QMG_OWN_FEAT_HI party) (word (aqFeatures msg / 2 ^ 32))
            s.hmbFwdb party 1
          else s

/-- The gateway's AQ-PEER OFFER with a transaction number. [DEDUCED, assumption 127] -/
def State.peerOffer (s : State) (party txn : Nat) : Bytes :=
  let level := s.regFld R.UPD_BLEVEL 1 0
  let major := aqHighest level 2
  aqMessage 1 txn 2 major (aqReduce level 2 major party 0xFF)

/-- AQENE_PEER_APPEAR: a peer appears by link-up or address claim, and the gateway offers (R606). -/
def execAqenePeerAppear (party : Nat) (s : State) : Host.Outcome State Fault Refusal :=
  .next <|
    if !s.aqRuns || !s.aqPermitted party 2 then s
    else
      let txn := (s.aqn.txn + 1) % 256
      let s := s.aqDrop party 2
      (s.setAqn { s.aqn with txn := txn, offers := kvSet s.aqn.offers party ⟨txn, 2, 1, s.now⟩ }).sendTo party
        (s.peerOffer party txn)

/-- AQENE_ANSWER: an ACCEPT is confirmed, and makes the agreement; a REFUSE ends the attempt. -/
def execAqeneAnswer (party : Nat) (msg : Bytes) (s : State) : Host.Outcome State Fault Refusal :=
  .next <|
    match kvGet? s.aqn.offers party with
    | none => s
    | some o =>
      if !s.aqRuns || !aqWhole msg || aqTxn msg != o.txn || aqIface msg != o.iface then s
      else
        let s' := s.setAqn { s.aqn with offers := kvDel s.aqn.offers party }
        match aqType msg with
        | 2 =>
          let x := (aqMajor msg, aqFeatures msg)
          (s'.setAqn { s'.aqn with agree := kvSet s'.aqn.agree (aqKey party o.iface) x }).sendTo party
            (aqMessage 4 o.txn o.iface x.1 x.2)
        | 3 => s'
        | _ => s

/-- AQENE_RETRY: an OFFER without an answer within its transport's time is repeated, at most three times (R604, R605). -/
def execAqeneRetry (party : Nat) (s : State) : Host.Outcome State Fault Refusal :=
  .next <|
    match kvGet? s.aqn.offers party with
    | none => s
    | some o =>
      let wait := if 0x200 ≤ party then 250000000 else 100000000
      if !s.aqRuns || s.now < o.at_ + wait then s
      else if 4 ≤ o.tries then s.setAqn { s.aqn with offers := kvDel s.aqn.offers party }
      else
        (s.setAqn { s.aqn with offers := kvSet s.aqn.offers party { o with tries := o.tries + 1, at_ := s.now } }).sendTo
          party (s.peerOffer party o.txn)

/-! ### Recovery (R595, R596) -/

/-- A message of AQ-REC is taken: in recovery or in the loader, of its type, under an agreement. -/
def State.recTakes (s : State) (party : Nat) (msg : Bytes) (ty : Nat) : Bool :=
  s.aqRuns && s.upd.mode != .firmware && aqWhole msg && aqType msg == ty && aqIface msg == 4 &&
    (kvGet? s.aqn.agree (aqKey party 4)).isSome

/-- Header of an answer: TXN echoed, bytes 6-15 as given. [DEDUCED, assumption 125] -/
def recHead (msg : Bytes) (ty : Nat) (rest : Bytes) : Bytes :=
  [0x51, 0x41, byte ty, byte (aqTxn msg), 4, 0] ++ slice rest 0 10

/-- The slot that recovery writes: the one that is not ACTIVE, or ACTIVE where that is BAD or EMPTY; the loader writes the
journal's. -/
def State.recSlot (s : State) : Nat :=
  let r := s.sel
  if s.upd.mode == .loader then byteAt r 15 % 2
  else
    let a := byteAt r 4
    if 1 < a then 0
    else if selState r a = 4 ∨ selState r a = 0 then a
    else 1 - a

/-- REC_INFO_REQ. [DEDUCED, assumption 125] -/
def execRecInfoReq (party : Nat) (msg : Bytes) (s : State) : Host.Outcome State Fault Refusal :=
  .next <|
    if !s.recTakes party msg 16 then s
    else
      let r := s.sel
      let body := leBytes 2 0x0960 ++ [byte (lifeCycle s), byte s.fusedSvn, byte (selState r 0), byte (selState r 1),
        if alive s 8 then 1 else 0, 0, 0, 0, 0, 0] ++ s.serial
      s.sendTo party (recHead msg 17 [] ++ body)

/-- The 64 chunks of a block are held. -/
def allChunks : Nat := 2 ^ 64 - 1

/-- The bytes held of a block. -/
def State.chunkBytes (s : State) (b : Nat) : Bytes :=
  (List.range 64).flatMap fun i => kvGet s.upd.chunks (b * 64 + i) []

/-- Block 0 of the slot goes before any other block is programmed, so that a slot half written is EMPTY (R591). -/
def State.openSlot (s : State) (slot : Nat) : State := (s.slotEmpty slot).norErase slot 0

/-- A block is complete: programmed, unless it is block 0, or below the loader's next block.
[DEDUCED, assumption 124] -/
def State.recBlock (s : State) (b : Nat) : State :=
  let slot := s.recSlot
  if b = 0 ∨ (s.upd.mode == .loader ∧ b < leAt s.sel 28 4) then s
  else
    let bs := s.chunkBytes b
    let s := (s.openSlot slot).norWrite slot b bs
    let s := (s.setBlock slot b true).updCtr 0
    let s := s.setUpd { s.upd with chunks := kvKeep (fun k => k / 64 != b) s.upd.chunks }
    if s.upd.mode == .loader ∧ leAt s.sel 28 4 = b then s.writeSel (putBytes s.sel 28 (leBytes 4 (b + 1))) else s

/-- A chunk is held; the 64th of its block completes it. [DEDUCED, assumption 124] -/
def State.takeChunk (s : State) (off : Nat) (data : Bytes) : State :=
  let k := off / 1024
  let b := k / 64
  let h := kvGet s.upd.held b 0
  if h.testBit (k % 64) then s
  else
    let h := h + 2 ^ (k % 64)
    let s := s.setUpd { s.upd with
      held := kvSet s.upd.held b h, chunks := kvSet s.upd.chunks k (slice data 0 1024) }
    if h = allChunks then s.recBlock b else s

/-- REC_WRITE: over Ethernet alone; a chunk already held, or one of no bytes, is acknowledged and writes nothing. -/
def execRecWrite (party : Nat) (msg : Bytes) (s : State) : Host.Outcome State Fault Refusal :=
  .next <|
    let off := leAt msg 8 4
    let len := leAt msg 12 2
    if !s.recTakes party msg 18 || party < 8 || off % 1024 != 0 || 1024 < len || 1536 * blockBytes ≤ off then s
    else
      let s := if len = 0 then s else s.takeChunk off (slice msg 16 len)
      s.sendTo party (recHead msg 19 (slice msg 6 10))

/-- The written image is whole and valid: block 0 and a trial record; the reason of R586 otherwise. -/
def State.recCommit (s : State) (bs : Bytes) : Option Nat × State :=
  let slot := s.recSlot
  let other := 1 - slot
  if !fwValid bs (ascii "PGFW") (1536 * blockBytes) s.fusedSvn true then
    (some (if fwSvn bs < s.fusedSvn then 3 else 1), s)
  else
    let r := s.sel
    let s := s.norWrite slot 0 (bs.take blockBytes)
    let s := s.setBlock slot 0 true
    let s := s.trialOf (if s.upd.mode == .loader then selClosed r else r) slot
      (if s.upd.mode != .loader ∧ selState r other = 3 then other else 0xFF)
    (none, if s.upd.mode == .loader then s.logUpdate ⟨2, .machine⟩ 9 (word slot) 0
      else s.logUpdate bootRom 0xA (word s.upd.cause) (word (fwVersion bs)))

/-- COMMIT_ACK with its result and reason. -/
def State.recAnswer (s : State) (party : Nat) (msg : Bytes) (why : Option Nat) : State :=
  let x : Bytes := match why with | none => [0, 0] | some w => [4, byte w]
  s.sendTo party (recHead msg 21 (x ++ slice msg 8 8))

/-- REC_COMMIT (R596). -/
def execRecCommit (party : Nat) (msg : Bytes) (s : State) : Host.Outcome State Fault Refusal :=
  .next <|
    if !s.recTakes party msg 20 then s
    else
      let slot := s.recSlot
      let total := leAt msg 8 4
      let rest := s.read (targetBase slot + blockBytes) (min total (1536 * blockBytes) - blockBytes)
      let bs := ((if kvGet s.upd.held 0 0 = allChunks then s.chunkBytes 0 else []) ++ rest).take total
      let (why, s) := s.recCommit bs
      s.recAnswer party msg why

/-- REC_STAGE_DRAM: the image in DRAM from its first byte is verified and written (R596). -/
def execRecStageDram (party : Nat) (msg : Bytes) (s : State) : Host.Outcome State Fault Refusal :=
  .next <|
    if !s.recTakes party msg 22 || party != 0 || !alive s 8 then s
    else
      let slot := s.recSlot
      let bs := s.read 0x800000000 (min (leAt msg 8 4) (1536 * blockBytes))
      if !fwValid bs (ascii "PGFW") (1536 * blockBytes) s.fusedSvn true then
        s.recAnswer party msg (some (if fwSvn bs < s.fusedSvn then 3 else 1))
      else
        let n := ceilDiv bs.length blockBytes
        let s := (List.range' 1 (n - 1)).foldl (fun s b =>
          ((s.norWrite slot b (slice bs (b * blockBytes) blockBytes)).setBlock slot b true).updCtr 0) (s.openSlot slot)
        let (why, s) := s.recCommit bs
        s.recAnswer party msg why

/-- REC_REBOOT: REBOOT_ACK, then a chip reset. -/
def execRecReboot (party : Nat) (msg : Bytes) (s : State) : Host.Outcome State Fault Refusal :=
  .next (if s.recTakes party msg 24 then (s.sendTo party (recHead msg 25 [])).decideChipReset 6 0 0 else s)

end Sys2Proof.Machine
end

