-- ==== Sys2Proof/Machine/Attest.lean ====
section
/-! DEFINITION. Attestation tokens, the moving of a configuration, and memory errors (14_security.md R498-R500,
18_update_and_lifecycle.md R601, R602, 13_guards_and_faults.md R465, 15_ledger_and_replay.md R525). -/

namespace Sys2Proof.Machine

/-! ### CBOR, core deterministic encoding (R498) -/

/-- Initial byte of a major type with its argument. [PRESUMED, assumption 136] -/
def cborHead (major n : Nat) : Bytes :=
  if n < 24 then [byte (major * 32 + n)]
  else if n < 2 ^ 8 then [byte (major * 32 + 24), byte n]
  else if n < 2 ^ 16 then byte (major * 32 + 25) :: beBytes 2 n
  else if n < 2 ^ 32 then byte (major * 32 + 26) :: beBytes 4 n
  else byte (major * 32 + 27) :: beBytes 8 n

/-- An integer. -/
def cborInt (z : Int) : Bytes := if z < 0 then cborHead 1 (-z - 1).toNat else cborHead 0 z.toNat

/-- A byte string. -/
def cborBytes (bs : Bytes) : Bytes := cborHead 2 bs.length ++ bs

/-- A text string of ASCII. -/
def cborText (bs : Bytes) : Bytes := cborHead 3 bs.length ++ bs

/-- An array. -/
def cborArray (l : List Bytes) : Bytes := cborHead 4 l.length ++ l.flatten

/-- A truth value. -/
def cborBool (b : Bool) : Bytes := [if b then 0xF5#8 else 0xF4#8]

/-- A digit of a number, as an ASCII byte. -/
def digit (n : Nat) : Byte := byte (if n < 10 then 48 + n else 55 + n)

/-- A number in decimal, up to three digits. [DEDUCED, assumption 103] -/
def decimal (n : Nat) : Bytes :=
  if n < 10 then [digit n]
  else if n < 100 then [digit (n / 10), digit (n % 10)]
  else [digit (n / 100), digit (n / 10 % 10), digit (n % 10)]

/-! ### Claims (R498) -/

/-- The identity public key in SEC1 form. [DESIGN CHOICE, assumption 101] -/
def State.identity (s : State) : Bytes := beBytes 97 (Config.identityKey ((activeRoot (lifeCycle s)).getD 0))

/-- A digest as its 48 bytes, zeros before any was taken. [DEDUCED, assumption 103] -/
def digest48 (bs : Bytes) : Bytes := slice bs 0 48

/-- The claims, in the order of R498: labels and encoded values.
[DESIGN CHOICE, assumption 101; DEDUCED, assumption 103] -/
def State.claims (s : State) (nonce : Bytes) : List (Int × Bytes) :=
  let dev := s.reg R.SYS_DEVICE
  let modu := s.regFld R.SYS_MODULE 15 0
  let lc := lifeCycle s
  let hw := ascii "r" ++ (List.range 4).map (fun i => digit (modu / 16 ^ (3 - i) % 16)) ++ ascii "-s" ++
    decimal (fld dev 15 8) ++ ascii "." ++ decimal (fld dev 7 0)
  let utc : Int := (s.tbNs 2 / giga : Nat) - signed 8 (s.regFld R.TIM_UTC_OFS 7 0)
  (if s.tim.tb2.locked then [((6 : Int), cborInt utc)] else []) ++ [
    (10, cborBytes nonce),
    (256, cborBytes (1 :: (sha384 s.identity).take 16)),
    (259, cborText (ascii "HY-PG960-MA")),
    (260, cborArray [cborText hw, cborInt 3]),
    (263, cborInt (if lc = 1 ∨ lc = 4 then 0 else 1)),
    (265, cborText (ascii "urn:henyaty:pg:eat:1")),
    (-70001, cborArray [cborInt lc, cborBool s.key.returned]),
    (-70002, cborBytes s.serial),
    (-70003, cborArray [cborInt (s.reg R.UPD_RUN_VER).toNat, cborInt (fwSvn (s.headOf s.runSlot)),
      cborBytes (digest48 s.upd.digest), cborInt s.runSlot]),
    (-70004, cborArray [cborInt (s.reg R.SIG_RI_ACT_VER).toNat, cborBytes (digest48 s.sig.actDigest),
      cborInt (s.regFld R.SIG_EPOCH_STAT 15 0)]),
    (-70005, cborArray [cborInt (s.reg R.GRD_MAN_VER).toNat, cborBytes (digest48 s.grd.digest)]),
    (-70006, cborArray [cborInt (s.reg R.AUD_SEQ - 1).toNat, cborBytes (beBytes 32 s.aud.head.toNat)]),
    (-70007, cborArray [cborInt (s.now / giga), cborInt (s.now % giga), cborBool (s.regBit R.TIM_TB3_STATUS 0)]),
    (-70008, if s.key.oemFused then cborBytes s.oemHash else [0xF6#8]),
    (-70009, cborInt (s.reg R.KEY_ALARM_CNT).toNat),
    (-70010, cborInt (s.regFld R.UPD_BLEVEL 1 0))]

/-- The claims map. -/
def claimsMap (l : List (Int × Bytes)) : Bytes := cborHead 5 l.length ++ l.flatMap fun e => cborInt e.1 ++ e.2

/-- Why a request for a token is refused (R499). -/
def State.attRefused (s : State) (v : Word) : Bool :=
  s.key.att.isSome || fld v 6 0 < 8 || 64 < fld v 6 0 || (activeRoot (lifeCycle s)).isNone

/-- A write of KEY_ATT_CTRL: with GO every claim is taken, or the request completes with REJECTED. -/
def State.attGo (s : State) (m : Master) (v : Word) : State :=
  if !bitOf v 31 then s
  else
    let seq := s.reg R.AUD_SEQ - 1
    if s.attRefused v then
      (s.setReg R.KEY_ATT_STAT (word (0x400 + if s.key.att.isSome then 1 else 0))).secRefused m 11 (word m.origin) seq
    else
      let nonce := (ofWords ((List.range 16).map fun i => s.reg (R.KEY_ATT_NONCE i))).take (fld v 6 0)
      let dst := (s.reg (R.KEY_ATT_DST 0)).toNat + s.regFld (R.KEY_ATT_DST 1) 15 0 * 2 ^ 32
      let c := claimsMap (s.claims nonce)
      ({ s with key := { s.key with att := some ⟨c, dst⟩ } }.setReg R.KEY_ATT_STAT 1).logSecurity m 11 (word m.origin) seq

/-- ATTEST_DONE: the token is written, and its length reported (R499). [DESIGN CHOICE, assumption 101] -/
def execAttestDone (s : State) : Host.Outcome State Fault Refusal :=
  .next <|
    match s.key.att with
    | none => s
    | some j =>
      if !alive s 1 then s
      else
        let kid := (sha384 s.identity).take 8
        let head := [0xD2#8, 0x84#8] ++ cborBytes [0xA1#8, 1, 0x38#8, 0x22#8] ++ [0xA1#8, 4] ++ cborBytes kid
        let token := head ++ cborBytes j.claims ++ cborBytes (beBytes 96 (Config.signature s.freeCtr).toNat)
        let s := { s.tickFree with key := { s.key with att := none } }
        let s := s.writeAny j.dst token
        (s.setReg R.KEY_ATT_STAT (word (token.length * 65536))).raise 17 2

/-! ### Moving a configuration (R601, R602) -/

/-- Bytes of a DER element from its header, in the long form of two length bytes. -/
def derLength (bs : Bytes) : Nat := if byteAt bs 1 = 0x82 then 4 + beAt bs 2 2 else 2 + byteAt bs 1 % 128

/-- CONFIG_EXPORT: the running bank, the active route image, both manifest copies unless they are BOUND, the identity
certificate, and the signature. `mA` and `mB` are where firmware keeps the manifest copies.
[DESIGN CHOICE, assumption 128 and 130] -/
def execConfigExport (m : Master) (mA mB : Nat) (s : State) : Host.Outcome State Fault Refusal :=
  .next <|
    if !alive s 1 || !alive s 2 || !secureMaster s m || (2 < m.origin && s.holding) then s
    else
      let b := s.runBank
      let h := s.bankHead b
      let head := putBytes (ascii "PGCX" ++ h.drop 4) 24 s.serial
      let body := s.read (bankBase b + 128) (leAt h 8 4)
      let route := s.imageOf (2 + byteAt s.sel 12 % 2)
      let man := s.readImage mA 0x100000
      let mans := if leAt man 28 4 % 2 = 1 then [] else man ++ s.readImage mB 0x100000
      let all := head ++ body ++ route ++ mans ++ Config.identityCert ((activeRoot (lifeCycle s)).getD 0)
      let sig := beBytes 96 (Config.signature s.freeCtr).toNat
      (s.tickFree.emit (.file (all ++ sig))).logUpdate m 0xE 2 (wordAt s.serial 0)

/-- The parts of an export: bank header, body, route image, manifest copies, certificate, signature.
[DESIGN CHOICE, assumption 130] -/
def exportParts (bs : Bytes) : Bytes × Bytes × Bytes × List Bytes × Bytes × Bytes :=
  let head := slice bs 0 128
  let bs1 := bs.drop 128
  let n := leAt head 8 4
  let body := bs1.take n
  let bs2 := bs1.drop n
  let route := bs2.take (imgTotal bs2)
  let bs3 := bs2.drop (imgTotal bs2)
  let (mans, bs4) :=
    if bs3.take 4 = ascii "PGGM" then
      let a := bs3.take (imgTotal bs3)
      let r := bs3.drop (imgTotal bs3)
      ([a, r.take (imgTotal r)], r.drop (imgTotal r))
    else ([], bs3)
  (head, body, route, mans, bs4.take (derLength bs4), bs4.drop (derLength bs4))

/-- An import passes its checks (R602). [DESIGN CHOICE, assumption 102] -/
def State.importOk (s : State) (bs : Bytes) : Bool :=
  let (head, body, route, mans, cert, sig) := exportParts bs
  let run := s.headOf s.runSlot
  let r := s.sel
  Config.certTrusted cert &&
    Config.ecdsaVerify (Config.certKey cert) (beVal (sha384 (bs.take (bs.length - 96)))) (beVal sig) &&
    head.take 4 == ascii "PGCX" && sha384 body == slice head 32 48 && leAt route 8 2 == 0x0960 &&
    mans.all (fun x => leAt x 8 2 == 0x0960) &&
    leAt run 32 4 ≤ leAt head 4 4 && leAt head 4 4 ≤ leAt run 28 4 &&
    leAt r 20 4 ≤ leAt route 16 4 && mans.all fun x => leAt r 24 4 ≤ leAt x 16 4

/-- CONFIG_IMPORT: an export at an address is checked and written: the bank that the running slot does not use, header last;
the inactive route slot; the manifest copies (R602). A refused import is recorded with the REJECTED flag.
[DEDUCED, assumption 61] -/
def execConfigImport (m : Master) (src len mA mB : Nat) (s : State) : Host.Outcome State Fault Refusal :=
  .next <|
    if !alive s 1 || !alive s 2 || !secureMaster s m || (2 < m.origin && s.holding) || 0x4000000 < len then s
    else
      let bs := s.read src len
      let serial := leAt bs 24 4
      if !s.importOk bs then s.logReject m 0xD000000E 1 (word serial)
      else
        let (head, body, route, mans, _, _) := exportParts bs
        let b := 1 - s.runBank
        let seq := leAt (s.bankHead s.runBank) 124 4 + 1
        let s := s.write (bankBase b + 128) body
        let s := s.write (bankBase b) (putBytes (ascii "PGCF" ++ slice head 4 124) 124 (leBytes 4 seq))
        let slot := 1 - byteAt s.sel 12 % 2
        let n := ceilDiv route.length blockBytes
        let s := (List.range n).foldl (fun s k =>
          ((s.norWrite (2 + slot) k (slice route (k * blockBytes) blockBytes)).setBlock (2 + slot) k true).updCtr 0) s
        let s := match mans with
          | [x, y] => ((s.write mA x).write mB y).logUpdate m 0xC 1 (word (leAt x 12 4))
          | _ => s
        (s.setUpd { s.upd with imported := true }).logUpdate m 0xE 1 (word serial)

/-! ### Memory errors (R465, R525) -/

/-- DRAM_ECC_ERROR: a corrected error is counted; an uncorrectable one makes the access of its master fault.
[DEDUCED, assumption 107] -/
def execDramEccError (m : Master) (a : Nat) (corrected : Bool) (s : State) : Host.Outcome State Fault Refusal :=
  .next <|
    if !alive s 8 || a < 0x800000000 || 0xA00000000 ≤ a then s
    else if corrected then (s.satCtr 25 0 0).fault 25 1 [word a, word (a / 2 ^ 32)]
    else (s.fault 25 2 [word a, word (a / 2 ^ 32), word m.origin]).respond .error

/-- SRAM_ECC: the ledger record at an offset is freed (R525). -/
def execSramEcc (off : Nat) (s : State) : Host.Outcome State Fault Refusal :=
  .next <|
    if !alive s 2 then s
    else match s.ledgerRec off with
      | some r => if r.freed then s else ((s.freeRec off).fault 4 1 [word off]).settle
      | none => s

end Sys2Proof.Machine
end

