-- ==== Sys2Proof/Machine/Reads.lean ====
section
/-! DEFINITION. What registers read as: fields that follow the state behind them, and mailbox snapshots
(03_registers_and_audit.md R83, R84; the field tables of each chapter). -/

namespace Sys2Proof.Machine

/-! ### Fields of the switch core, queues and rings -/

/-- Descriptors of a ring fetched and not yet completed (R362): frames, orders or commands under way, and completions
that wait. -/
def State.ringBusy (s : State) (k : RingKind) (n : Nat) : Bool :=
  let due := s.rng.cq.any fun c => c.2.wait.any fun e =>
    e.ring == n && (e.kind == k || (k == 0 && e.kind == 2))
  due ||
  match k with
  | 0 =>
    (s.txFrames n).any (·.state != 2) || (kvGet? s.rng.chain n).isSome ||
    (s.queue 2).items.any (fun i => 0x2000000 ≤ i.prod && (i.prod - 0x2000000) / 0x40000 == n) ||
    s.ple.orders.any fun o => 0x2000000 ≤ o.prod && (o.prod - 0x2000000) / 0x40000 == n
  | 3 => (s.queue 3).items.any fun i => 0x1000000 ≤ i.prod && (i.prod - 0x1000000) / 0x40000 == n
  | _ => false

/-- SWC_PSTATp as it reads (R154, R160). -/
def State.portStatus (s : State) (p : Nat) : Word :=
  let w := putBit (s.reg (R.SWC_PSTAT p)) 0 (kvGet? s.swc.tx p).isSome
  putFld (putBit w 3 (p < 29 && s.launchHold p)) 15 8 (s.gates p)

/-- SWC_QSTATq as it reads (R138, R149). -/
def State.queueState (s : State) (q : Nat) : Word :=
  let w := putFld (s.reg (R.SWC_QSTAT q)) 15 0 (s.occ q)
  let wait := match s.copies q with
    | c :: _ => c.timed && decide (0 < s.untilStart c)
    | [] => false
  putBit (putBit w 29 ((s.gates (q / 8)).testBit (q % 8))) 30 wait

/-- Registers of the SWC window that follow the state (R167, R168). -/
def State.readSwc (s : State) (off : Nat) (v : Word) : Word :=
  let n := (off - 0x2000) / 0x40
  if off = 0x8C then word s.poolUse
  else if off = 0x90 then word (s.swc.frames.foldl (fun n f => n - cellsOf f.2.bytes.length) 49152)
  else if off = 0x94 then word s.descFree
  else if 0x2000 ≤ off ∧ off < 0x4000 then
    match off % 0x40 with
    | 0x04 => s.portStatus n
    | 0x0C => word (s.rsvUse n)
    | 0x38 => word ((if (s.gcl n).change.isSome then 1 else 0) + (s.gcl n).entry % 64 * 2)
    | _ => v
  else if 0x4000 ≤ off ∧ off < 0x8000 ∧ off % 16 = 12 then s.queueState ((off - 0x4000) / 16)
  else if 0xC000 ≤ off ∧ off < 0xD000 ∧ off % 16 = 8 then
    let c := kvGet s.swc.cb ((off - 0xC000) / 16) CbInst.none
    word ((if c.takeAny then 2 ^ 31 else 0) + c.seq % 65536)
  else v

/-- CQn_STAT as it reads (R379, R380). -/
def State.cqStatus (s : State) (c : Nat) : Word :=
  let q := s.cq c
  let size := s.regFld (R.CQ_CFG c) 16 0
  word ((if q.armed then 1 else 0) + (if 0 < size ∧ size ≤ s.cqFill c then 2 else 0) + min q.pend 65535 * 65536)

/-- Registers of the QMG window that follow the state (R129, R394). -/
def State.readQmg (s : State) (off : Nat) (v : Word) : Word :=
  let busy (k n : Nat) : Nat := if s.ringBusy k n then 1 else 0
  if 0x4000 ≤ off ∧ off < 0x6000 then
    let q := (off - 0x4000) / 0x40
    match off % 0x40 with
    | 0x00 => s.queueInfo q
    | 0x0C => word (s.queue q).depth
    | 0x10 => word (max v.toNat (s.queue q).depth)
    | 0x14 => s.queueStatus q
    | 0x2C => word (s.queueCap q)
    | _ => v
  else if off % 0x20 ≠ 0x1C then v
  else if 0x8000 ≤ off ∧ off < 0xA000 then
    let n := (off - 0x8000) / 0x20
    word (busy 0 n + if (kvGet? s.rng.chain n).isSome then 2 else 0)
  else if 0xA000 ≤ off ∧ off < 0xC000 then word (busy 1 ((off - 0xA000) / 0x20))
  else if 0xC000 ≤ off ∧ off < 0xD000 then s.cqStatus ((off - 0xC000) / 0x20)
  else if 0xD000 ≤ off ∧ off < 0xD200 then word (busy 3 ((off - 0xD000) / 0x20))
  else v

/-! ### Fields of the other blocks -/

/-- Registers of the TIM window that follow the state (R302, R321). -/
def State.readTim (s : State) (off : Nat) (v : Word) : Word :=
  let recent (t : Option Nat) : Bool := match t with | some t => decide (s.now ≤ t + 1500000000) | none => false
  let bits (l : List Bool) : Nat := l.zipIdx.foldl (fun n x => if x.1 then n + 2 ^ x.2 else n) 0
  if off = 0x84 then word (bits [s.tim.refOk])
  else if off = 0x94 then
    word (bits [recent (s.tim.pps.map (·.1)), recent s.tim.zdaAt, recent s.tim.pairAt])
  else if 0x100 ≤ off ∧ off < 0x1C0 then
    let n := (off - 0x100) / 0x40
    let b := s.tb n
    match off % 0x40 with
    | 0x04 => word (s.quality n + 8 * bits [b.hold, b.foxHold, b.asymUnres, b.asymAlarm] + b.gen % 256 * 256)
    | 0x24 => if s.regFld (R.TIM_TB_CFG n) 2 1 = 3 then v else word (unsigned 32 b.rate)
    | _ => v
  else if 0x1000 ≤ off ∧ off % 0x20 = 0x10 then
    let d := s.portDelay ((off - 0x1000) / 0x20)
    word (bits [d.valid, d.step])
  else v

/-- CAN_STATUS as it reads (R213, R220). -/
def State.canStatus (s : State) (n : Nat) : Word :=
  let c := s.canCh n
  let w := putBit (putFld (s.reg (R.CAN_STATUS n)) 1 0 (s.canState n)) 2 c.warn
  putBit (putBit (putBit w 3 (kvGet? s.swc.tx (64 + n)).isSome) 4 c.recovering) 5 (s.launchHold (64 + n))

/-- CAN_ERRCNT as it reads (R240). [DEDUCED, assumption 54] -/
def State.canErrCnt (s : State) (n : Nat) : Word :=
  let c := s.canCh n
  word (c.tec % 512 + min c.rec_ 127 * 65536 + if 127 < c.rec_ then 2 ^ 23 else 0)

/-- Registers of a LIN window that follow the state (R230, R231). -/
def State.readLin (s : State) (n off : Nat) (v : Word) : Word :=
  let c := s.linCh n
  if off = 0x84 then word (c.at_.1 % 4 * 2 + c.at_.2 % 256 * 256)
  else if 0x600 ≤ off ∧ off < 0x800 then
    wordAt (slice (kvGet c.bufs ((off - 0x600) / 8) ⟨[], false, none⟩).data 0 8) (off / 4 % 2)
  else v

/-- KEY_STATUS as it reads (R491, R493, R496). [DEDUCED, assumption 105] -/
def State.keyStatus (s : State) : Word :=
  word (lifeCycle s + (if s.key.returned then 8 else 0) + (if s.key.oemFused then 16 else 0) +
    (if vaultOn (lifeCycle s) then 32 else 0) + (if s.key.staged.isSome || s.key.stagedOem then 256 else 0))

/-- LDG_STATUS as it reads (R517, R519). -/
def State.ldgStatus (s : State) : Word :=
  let w := match s.ldg.set with | some x => if x.waiting then 2 else 1 | none => 0
  word (w + (if s.ldg.full then 4 else 0) + if s.ldg.restored then 8 else 0)

/-- PWR_WAKE_EN with the enables of other windows it mirrors (R538). -/
def State.wakeEnable (s : State) (v : Word) : Word :=
  let can := (List.range 8).foldl (fun n k => if s.regBit (R.CAN_SWK_CFG k) 0 then n + 2 ^ (6 + k) else n) 0
  v ||| word (32 + can + if s.reg R.PWR_TC10_EN != 0 then 2 ^ 15 else 0)

/-- FOX_MEAS_VALID_LO and _HI as they read (R59). -/
def State.measValid (s : State) (k : Nat) : Word :=
  word ((List.range 32).foldl (fun n i => if s.measOk (32 * k + i) then n + 2 ^ i else n) 0)

/-- Registers of the header as they read (R83). -/
def State.readHeader (s : State) (w off : Nat) (v : Word) : Word :=
  let b := kvGet s.sys.mbox w Mailbox.empty
  if off = 0x34 then
    word ((if b.valid then 1 else 0) + (if b.badsel then 2 else 0) + b.origin % 256 * 256 + b.gen % 256 * 65536)
  else if 0x38 ≤ off ∧ off < 0x48 then
    if b.valid && !b.badsel then b.data.getD (b.part * 4 + (off - 0x38) / 4) 0 else 0
  else v

/-- The value a register holds as a reader sees it: v is what the register file holds. -/
def State.live (s : State) (w off : Nat) (v : Word) : Word :=
  if off < 0x80 then s.readHeader w off v
  else
    match w with
    | 0 =>
      if 0x1800 ≤ off ∧ off < 0x1840 then
        let i := (off - 0x1800) / 4
        word ((s.sys.irqUp.filter fun l => l / 32 == i).foldl (fun n l => n + 2 ^ (l % 32)) 0)
      else v
    | 1 => if off = 0xAC then s.wakeEnable v else v
    | 2 => if off = 0x120 then s.measValid 0 else if off = 0x124 then s.measValid 1 else v
    | 3 => if off = 0x104 then s.audStatus else v
    | 4 =>
      match off with
      | 0x84 => s.ldgStatus
      | 0x94 => word (s.ldg.used * 16)
      | 0x98 => word (s.ldg.recs.filter fun r => !r.freed).length
      | 0x9C => word s.ldg.head
      | 0xA0 => word s.ldg.tail
      | _ => v
    | 5 => if off = 0x98 then word (min ((s.now - s.alv.lastKick) / 1000000) 65535) else v
    | 6 =>
      if off = 0x80 then putBit (putBit v 1 !s.toggling) 2 s.grd.load.isSome
      else if off = 0xB8 then putBit v 0 s.grd.load.isSome
      else v
    | 8 => s.readSwc off v
    | 9 => s.readQmg off v
    | 10 =>
      match hcbTable (0x100A0000 + off) with
      | some (t, l) => if off % 16 = 12 then s.hcntWord t l else v
      | none =>
        if off = 0x84 then word ((if s.tbl.mgo.isSome then 1 else 0) + if 64 ≤ s.tbl.pend.length then 2 else 0)
        else if off = 0x94 then word s.tbl.pend.length
        else v
    | 16 => if off = 0xE4 then putFld v 31 30 (s.slotState (s.regFld R.CIP_SLOT_SEL 8 0)) else v
    | 17 => if off = 0x80 then s.keyStatus else v
    | 20 => s.readTim off v
    | 21 =>
      if off = 0x84 then s.pleStatus
      else if off = 0xB0 then word s.ple.orders.length
      else if off = 0xB4 then word s.pleDrain
      else if 0x100 ≤ off ∧ off < 0x180 ∧ off % 32 = 0x14 then s.bodyAngle ((off - 0x100) / 32)
      else if off = 0x258 then putBit v 0 s.ple.load.isSome
      else v
    | 22 =>
      if off = 0x84 then s.sigStatus
      else if off = 0xA4 then word s.drainCount
      else if off = 0xD8 then putBit v 0 s.sig.load.isSome
      else v
    | 26 =>
      match off with
      | 0x80 => s.updStatus
      | 0xA0 => s.updSel
      | 0xA4 => s.updSelSeq
      | 0xB8 => s.updHours
      | _ => v
    | 54 =>
      if off = 0x84 then
        word ((List.range 16).foldl (fun n m => if s.regBit R.MEC_CTRL m && alive s (meDomain m) then n else n + 2 ^ m) 0)
      else v
    | _ =>
      if 96 ≤ w ∧ w < 120 then
        if off = 0x98 then s.canStatus (w - 96) else if off = 0x9C then s.canErrCnt (w - 96) else v
      else if 120 ≤ w ∧ w < 128 then s.readLin (w - 120) off v
      else v

/-- The value of a register as a reader sees it. -/
def State.liveAt (s : State) (l : Loc) : Word :=
  let a := winBase l.win + l.off
  s.live l.win l.off (s.reg a)

/-! ### Mailbox snapshots (R83, R84) -/

/-- Words of counters by slot: `wide` are the 64-bit ones, whose high word has the next slot. -/
def State.ctrWords (s : State) (w sel : Nat) (wide : List Nat) (n : Nat) : List Word :=
  (List.range n).map fun i =>
    if wide.contains i then word (s.ctr w sel i)
    else if 0 < i ∧ wide.contains (i - 1) then word (s.ctr w sel (i - 1) / 2 ^ 32)
    else word (s.ctr w sel i)

/-- k words that only the hardware gives, from the counter that makes them fresh. [DESIGN CHOICE, assumption 8] -/
def State.freeWords (s : State) (k : Nat) : List Word := (List.range k).map fun i => Config.freeWord (s.freeCtr + i)

/-- A 64-bit number as two words. -/
def twoWords (n : Nat) : List Word := [word n, word (n / 2 ^ 32)]

/-- A record of a bank shown in two parts, zero beyond it. [DEDUCED, assumption 27] -/
def shown (bs : Bytes) (parts : Nat) : List Word := toWords (slice bs 0 (16 * parts))

/-- Snapshots of the TIM window (R320). -/
def State.mboxTim (s : State) (sel : Nat) : Option (List Word) :=
  let stamp (n : Nat) : List Word := toWords (s.fullStamp n (s.tb n).val false)
  if sel < 4 then some (stamp sel)
  else if sel = 4 then some ((List.range 4).flatMap stamp)
  else if 0x10 ≤ sel ∧ sel < 0x13 then
    let b := s.tb (sel - 0x10)
    some (twoWords (unsigned 64 (b.lastOff / 65536)) ++ [word (unsigned 32 b.rate), word (unsigned 32 b.integ)] ++
      (s.ctrWords 20 sel [] 8).drop 4)
  else if 0x100 ≤ sel ∧ sel < 0x180 ∧ portLine (sel - 0x100) then
    let d := s.portDelay (sel - 0x100)
    let r := roundDiv ((d.nrr : Int) * 256000000000 - 2 ^ 32 * 256000000000) (2 ^ 32)
    some (twoWords (unsigned 64 d.mld) ++ [word (unsigned 32 r), word (s.ctr 20 sel 3)] ++
      (s.ctrWords 20 sel [] 8).drop 4)
  else if sel = 0x200 then
    let e := match s.tim.pps with | some x => toWords (s.fullStamp 2 x.2 true) | none => [0, 0, 0, 0]
    some (e ++ (s.ctrWords 20 sel [] 8).drop 4)
  else none

/-- Snapshots of the PLE window (R358). [DEDUCED, assumption 28] -/
def State.mboxPle (s : State) (sel : Nat) : Option (List Word) :=
  let m := s.ple.mot
  let fine (x : Int) : Word := word (unsigned 32 (roundDiv x 65536))
  let sw := s.reg R.PLE_DBG_SEL
  if sel = 1 then some (s.ctrWords 21 1 [0, 2, 4, 6] 16)
  else if sel = 2 then
    some ([fine m.e, fine m.n, fine m.psi, fine m.v, fine m.w, fine m.a, fine (m.th.getD 0 0), fine (m.th.getD 1 0),
      fine (m.th.getD 2 0), 0] ++ twoWords (compactOf s.pleBase s.ple.tm))
  else if sel = 0x10 then
    let b := if bitOf sw 31 then s.ple.shd else s.ple.act
    some (shown (if bitOf sw 28 then b.template (fld sw 15 0) else b.actuator (fld sw 15 0)) 2)
  else none

/-- Snapshots of the SIG window (R284). -/
def State.mboxSig (s : State) (sel : Nat) : Option (List Word) :=
  let sw := s.reg R.SIG_DBG_SEL
  if sel = 1 then some (s.ctrWords 22 1 [0, 2, 4] 12)
  else if sel = 0x10 then
    let k := fld sw 30 28
    if 4 < k then some (s.freeWords 8)
    else some (shown ((if bitOf sw 31 then s.sig.shd else s.sig.act).record k (fld sw 15 0)) 2)
  else none

/-- Snapshots of the CIP window (R505). -/
def State.mboxCip (s : State) (sel : Nat) : Option (List Word) :=
  if sel = 1 then some (s.ctrWords 16 1 [] 8)
  else if 0x100 ≤ sel ∧ sel < 0x300 then
    let n := sel - 0x100
    let refs := (s.heldCopies.filter fun c => c.protect != 0 && c.keySlot == n).length
    some [(s.slotOf n).attr, word refs, word ((s.family n).length - 1), 0]
  else if 0x1000 ≤ sel ∧ sel < 0x101D then some (s.ctrWords 16 sel [0, 2] 12)
  else if 0x2000 ≤ sel ∧ sel < 0x3000 then
    let i := sel - 0x2000
    some (twoWords (s.fvOf i) ++ twoWords (kvGet s.cip.saved i 0))
  else none

/-- Snapshots of the GRD window (R458): counters of a guarded port, and the first 64 bytes of a record.
[DEDUCED, assumption 27] -/
def State.mboxGrd (s : State) (sel : Nat) : Option (List Word) :=
  let sw := s.reg R.GRD_DBG_SEL
  if 0x1000 ≤ sel ∧ sel < 0x1080 ∧ portLine (sel - 0x1000) then some (s.ctrWords 6 sel [0] 12)
  else if sel = 0x10 then
    if 3 < fld sw 30 28 then some (s.freeWords 16) else some (shown (kvGet (s.grd.part (fld sw 30 28)) (fld sw 15 0) []) 4)
  else none

/-- Snapshots of the SWC window (R166). The words of a descriptor are free: the spec does not say which index a copy's
descriptor has. [DESIGN CHOICE, assumption 26] -/
def State.mboxSwc (s : State) (sel : Nat) : Option (List Word) :=
  if sel = 1 then some (s.ctrWords 8 1 [0, 2, 4, 6] 8)
  else if sel = 0x10 then some (s.freeWords 8)
  else if 0x400 ≤ sel ∧ sel < 0x500 then some (s.ctrWords 8 sel [] 8)
  else if 0x1000 ≤ sel ∧ sel < 0x1400 ∧ portUsed ((sel - 0x1000) / 8) then
    some (s.ctrWords 8 sel [0, 2, 4, 6, 8, 10, 12, 14] 16)
  else if 0x2000 ≤ sel ∧ sel < 0x2080 ∧ portUsed (sel - 0x2000) then some (s.ctrWords 8 sel [0, 2, 4, 6] 8)
  else none

/-- The record at LDG_REC_SEL (R529): its header, then its origin block; free words where no record begins there.
[DEDUCED, assumption 29] -/
def State.shownRec (s : State) : List Word :=
  match s.ledgerRec (s.regFld R.LDG_REC_SEL 14 0) with
  | none => s.freeWords 12
  | some r =>
    let block := r.launch.isSome || r.origin.isSome
    shown (r.toBytes.take (if block then 48 else 32)) 3

/-- What a selector of a window shows: the words of its parts; none for an unknown selector. -/
def State.mboxData (s : State) (w sel : Nat) : Option (List Word) :=
  match w with
  | 1 => if sel = 1 then some (s.ctrWords 1 1 [] 8) else none
  | 3 =>
    if sel = 0 then
      some (toWords (beBytes 32 s.aud.head.toNat) ++
        [s.reg R.AUD_SEQ - 1, word s.unexported] ++ twoWords s.aud.headTime)
    else none
  | 4 => if sel = 1 then some (s.ctrWords 4 1 [0, 2] 12) else if sel = 0x10 then some s.shownRec else none
  | 6 => s.mboxGrd sel
  | 8 => s.mboxSwc sel
  | 9 =>
    if sel = 1 then some (s.ctrWords 9 1 [] 4)
    else if (0x1000 ≤ sel ∧ sel < 0x1100) ∨ (0x1200 ≤ sel ∧ sel < 0x1300) ∨ (0x1400 ≤ sel ∧ sel < 0x1480) then
      some (s.ctrWords 9 sel [0, 2] 8)
    else none
  | 10 => if sel = 1 then some (s.ctrWords 10 1 [] 8) else none
  | 11 =>
    if 0x1000 ≤ sel ∧ sel < 0x1080 ∧ portUsed (sel - 0x1000) then some (s.ctrWords 11 sel [] 8)
    else if 0x4000 ≤ sel ∧ sel < 0x4000 + tableSize 10 then some (s.ctrWords 11 sel [0, 2, 4] 8)
    else if 0x8000 ≤ sel ∧ sel < 0x8000 + tableSize 9 then some (s.ctrWords 11 sel [0] 4)
    else none
  | 16 => s.mboxCip sel
  | 20 => s.mboxTim sel
  | 21 => s.mboxPle sel
  | 22 => s.mboxSig sel
  | 24 => if sel = 1 then some (s.ctrWords 24 1 [] 8) else none
  | 26 =>
    if sel = 1 then some (s.ctrWords 26 1 [] 8)
    else if 0x100 ≤ sel ∧ sel < 0x118 ∧ sel % 4 < 3 then some (s.bitmapWords ((sel - 0x100) / 4) (sel % 4))
    else none
  | _ =>
    if 96 ≤ w ∧ w < 120 ∧ sel = 1 then some (s.ctrWords w 1 [0, 2] 16)
    else if 120 ≤ w ∧ w < 128 ∧ sel = 1 then some (s.ctrWords w 1 [0, 2] 12)
    else none

/-- A write of MBX_REQ (R84): a snapshot is taken, valid once it has settled; with KEEP only the part changes.
[DEDUCED, assumption 25] -/
def State.mboxRequest (s : State) (m : Master) (w : Nat) (v : Word) : State :=
  let b := kvGet s.sys.mbox w Mailbox.empty
  let part := fld v 17 16
  let bad (d : List Word) : Bool := d.length ≤ 4 * part
  let put (s : State) (b : Mailbox) : State := { s with sys := { s.sys with mbox := kvSet s.sys.mbox w b } }
  if bitOf v 31 then put s { b with part := part, badsel := bad b.data }
  else
    let d := (s.mboxData w (fld v 15 0)).getD []
    let s := { s with freeCtr := s.freeCtr + 16 }
    let s := if w = 9 ∧ fld v 15 0 = 1 then { s with sys := { s.sys with dbCap := false } } else s
    put s ⟨d, part, false, bad d, 0 < d.length, m.origin, (b.gen + 1) % 256⟩

/-- The snapshot has been taken: VALID sets (R84). [DEDUCED, assumption 25] -/
def State.mboxValid (s : State) (w : Nat) : State :=
  match kvGet? s.sys.mbox w with
  | some b => { s with sys := { s.sys with mbox := kvSet s.sys.mbox w { b with valid := true } } }
  | none => s

end Sys2Proof.Machine
end

