-- ==== Sys2Proof/Machine/Checks.lean ====
section
/-! DEFINITION. The writable bits of a register, and the value checks that refuse a write with REJECTED
(03_registers_and_audit.md R9, R77, R78 and the field tables of each chapter). -/

namespace Sys2Proof.Machine

/-! ### Reserved bits (R9) -/

/-- A port whose Ethernet MAC supports the feature of E0-E23 and E28 only (R143, R296). -/
def mainMac (p : Nat) : Bool := p < 24 || p == 28

/-- Writable bits of the words of a record register, by its word index. -/
def wordMask (ms : List Word) (j : Nat) : Word := ms.getD j 0

/-- The fault sources of a window among bits lo, lo + 1, …, each as a field of k ones at stride k (R437, R464).
[DEDUCED, assumption 92] -/
def sourceMask (w lo n k : Nat) : Word :=
  word ((List.range n).foldl (fun a j => if sourceOk w (lo + j) then a + (2 ^ k - 1) * 2 ^ (k * j) else a) 0)

/-- Writable bits of a fault-page register at an offset of the page. [DEDUCED, assumption 92] -/
def faultMask (w o : Nat) : Word :=
  if o < 8 then sourceMask w 0 32 1
  else if o < 0x18 then sourceMask w (8 * ((o - 8) / 4)) 8 4
  else 1

/-- Writable bits of a register: what its field table does not give is reserved and ignored (R9). -/
def regMask (l : Loc) : Word :=
  let m := l.row.mask
  if faultOff l.win ≤ l.off then faultMask l.win (l.off - faultOff l.win)
  else match l.win with
  | 8 => if 0x2000 ≤ l.off ∧ l.off < 0x4000 ∧ l.off % 0x40 = 0 ∧ !mainMac l.i then m &&& ~~~4#32 else m
  | 9 => if 0x180 ≤ l.off ∧ l.off < 0x198 ∧ l.off % 8 = 0 then 0 else m
  | 16 => if l.off = 0x160 then 0x800001FF#32 else m
  | 17 => if l.off = 0xB4 ∨ l.off = 0x11C then 0xFFFF#32 else m
  | 20 => if 0x1000 ≤ l.off ∧ l.off % 0x20 = 0 ∧ !mainMac l.i then m &&& ~~~8#32 else m
  | 21 => if l.off = 0x100 then m &&& ~~~1#32 else if l.off = 0x24C then 0xFFFF#32 else m
  | 22 => if l.off = 0xCC then 0xFFFF#32 else m
  | 6 => if l.off = 0xAC then 0xFFFF#32 else m
  | 26 => if l.off = 0x94 then 0xFFFF#32 else m
  | 54 =>
    if 0x4000 ≤ l.off then wordMask [0x8000FFFF#32, 0xFFFFFFFF#32] l.j
    else if 0x2000 ≤ l.off then
      wordMask [0xF300FFFF#32, 0xFFFFFFFF#32, 0xEFFFFFFF#32, 0xFFFFFFFF#32, 0xFFFFFFFF#32] l.j
    else if 0x1000 ≤ l.off then wordMask [0xBFFFFFFF#32, 0xF81FFFFF#32] l.j
    else if 0x100 ≤ l.off then wordMask [0xE003FFFF#32, 0xFFFFFFFF#32, 0xFFFF#32] l.j
    else m
  | w => if 98 ≤ w ∧ w < 120 ∧ l.off = 0x80 then m &&& ~~~0x10#32 else m

/-! ### Ranges -/

/-- lo ≤ v ≤ hi. -/
def within (lo hi v : Nat) : Bool := lo ≤ v && v ≤ hi

/-- FLT_REACTi of window w: reaction codes 5-7 are refused, and so is a value that clears bit 3 of a source whose default
has it set (R438, R445). -/
def reactOk (w i : Nat) (v : Word) : Bool :=
  (List.range 8).all fun j => fld v (4 * j + 2) (4 * j) ≤ 4 && (reactDefault w (8 * i + j) < 8 || bitOf v (4 * j + 3))

/-- SYS: AC0 stays in partition 0, and no granule lies in the spill region (R34, R39). -/
def sysOk (off : Nat) (v : Word) : Bool :=
  if off = 0x104 then fld v 1 0 == 0
  else if 0x150 ≤ off ∧ off < 0x170 then fld v 11 0 ≤ 3967
  else true

/-- FOX (R55, R57, R61, R65, R69, R72). -/
def State.foxOk (s : State) (off : Nat) (v : Word) : Bool :=
  if off = 0x110 then within 1 15000 (fld v 15 0)
  else if off = 0x114 then v &&& ~~~0x7880#32 == 0
  else if off = 0x118 then s.loopEnOk v
  else if 0x204 ≤ off ∧ off < 0x240 then 0x100 ≤ v.toNat
  else if 0x244 ≤ off ∧ off < 0x280 then s.vsetOk ((off - 0x240) / 4) v
  else if 0x320 ≤ off ∧ off < 0x340 then portUsed v.toNat
  else if 0x600 ≤ off ∧ off < 0x680 then fgrpOk v
  else if 0x1000 ≤ off then s.ruleOk ((off - 0x1000) / 16) (off % 16 / 4) v
  else true

/-! ### Rings (R361, R362, R371, R381, R389) -/

/-- The ring an offset of the QMG window belongs to: kind (4 for a completion ring), number, offset in the ring. -/
def ringOf (off : Nat) : Option (Nat × Nat × Nat) :=
  if 0x8000 ≤ off ∧ off < 0xA000 then some (0, (off - 0x8000) / 32, off % 32)
  else if 0xA000 ≤ off ∧ off < 0xC000 then some (1, (off - 0xA000) / 32, off % 32)
  else if 0xC000 ≤ off ∧ off < 0xD000 then some (4, (off - 0xC000) / 32, off % 32)
  else if 0xD000 ≤ off ∧ off < 0xD200 then some (3, (off - 0xD000) / 32, off % 32)
  else none

/-- First register of a ring, a completion ring being kind 4. -/
def anyRingAt (k n : Nat) : Nat := if k = 4 then R.CQ_BASE_LO n else ringAt k n

/-- Partition of application core c. -/
def State.corePart (s : State) (c : Nat) : Nat := s.regFld R.SYS_PART_MAP (2 * c + 1) (2 * c)

/-- A CQn_IRQ value suits the ring's owner (R381). [DEDUCED, assumption 80] -/
def State.irqOk (s : State) (owner : Nat) (v : Word) : Bool :=
  if hostOwner owner then fld v 9 0 < msixEntries owner
  else if within 0x10 0x13 owner && bitOf v 15 then s.corePart (fld v 14 12) == owner - 0x10
  else true

/-- A ring may be enabled with this CFG value (R361, R362, R373, R389). [DEDUCED, assumption 80 and 81] -/
def State.enableOk (s : State) (k n : Nat) (v : Word) : Bool :=
  let a := anyRingAt k n
  let size := fld v 16 0
  let owner := fld v 31 24
  let v2 := k != 3 && bitOf v 17
  let order := k == 0 && bitOf v 18
  let base := (s.reg a).toNat + s.regFld (a + 4) 15 0 * 2 ^ 32
  let bind := s.reg (a + 12)
  let sizes := within 6 16 size.log2 && size == 2 ^ size.log2
  let own := match ownerIdx owner with
    | some i => s.regBit (R.QMG_OWN_AQ i) 31
    | none => false
  let feats := s.granted owner (if v2 then 1 else 0) && (!order || (v2 && s.granted owner 3)) &&
    (k != 3 || (s.granted owner 4 && (owner == 0 || owner == 0x10 || owner == 0x20))) && (k != 0 || ((!bitOf v 19 || s.granted owner 5) && (!bitOf v 20 || s.granted owner 6)))
  let space := base % 4096 == 0 && s.inSpace owner base (size * if v2 then 64 else 32)
  let ends :=
    if k = 4 then s.irqOk owner bind
    else
      (!v2 || s.regBit (R.CQ_CFG (fld bind 6 0)) 17) &&
      (k != 0 || !within 0x10 0x13 owner ||
        (within 48 55 (fld bind 14 8) && s.corePart (fld bind 14 8 - 48) == owner - 0x10))
  sizes && own && feats && space && ends && (k == 4 || !s.ringBusy k n)

/-- A write of a ring's register is taken: while the ring is enabled only SIZE = 0, and of a completion ring its
interrupt registers (R362, R381). [DEDUCED, assumption 80] -/
def State.ringOk (s : State) (k n o : Nat) (v : Word) : Bool :=
  let cfg := anyRingAt k n + 8
  let on := s.regFld cfg 16 0 != 0
  match o with
  | 8 => if fld v 16 0 = 0 then true else !on && s.enableOk k n v
  | 12 => if k = 4 then !on || s.irqOk (s.regFld cfg 31 24) v else !on
  | 16 => k == 4 || !on
  | _ => !on

/-- A QMG_RXMAP value: the ring's owner is the port's owner (R371). -/
def State.rxMapOk (s : State) (i : Nat) (v : Word) : Bool :=
  let p := 32 + i / 8
  let owner := s.ringOwner 1 (fld v 7 0)
  !bitOf v 31 ||
    (!within 40 47 p && owner == if p < 40 then p - 32 else 0x10 + s.corePart (p - 48))

/-- QMG: queues, spill slots, host mailboxes, rings, grants (R113, R126, R127, R386, R394). -/
def State.qmgOk (s : State) (m : Master) (off : Nat) (v : Word) : Bool :=
  match ringOf off with
  | some (k, n, o) => s.ringOk k n o v
  | none =>
    if 0x180 ≤ off ∧ off < 0x1C0 then
      if off % 8 = 0 then s.bindOk ((off - 0x180) / 8) v else s.regionOk ((off - 0x184) / 8) v
    else if 0x400 ≤ off ∧ off < 0xC00 then
      let f := (off - 0x400) / 0x100
      let o := off % 0x100
      if o < 0x40 then (m.origin == 0x20 + f || secureMaster s m) && !s.regBit (R.HMB_STAT f) 0
      else if o < 0x80 then secureMaster s m
      else if o = 0x80 then s.hmbOk f false v
      else if o = 0x84 then s.hmbOk f true v
      else true
    else if 0x4000 ≤ off ∧ off < 0x6000 then
      let q := (off - 0x4000) / 0x40
      if off % 0x40 = 4 then fld v 23 16 != 0
      else if off % 0x40 = 0x24 then secureMaster s m || s.regBit (R.QP_CFG q) 27
      else true
    else if 0xD800 ≤ off ∧ off < 0xDB00 then s.rxMapOk ((off - 0xD800) / 4) v
    else if 0xE000 ≤ off ∧ off % 16 = 0 then !bitOf v 31 || within 1 3 (fld v 7 0)
    else true

/-! ### Switch, tables, buses -/

/-- Cells of all reservations. -/
def State.reserved (s : State) : Nat :=
  ((List.range 128).filter portUsed).foldl (fun n p => n + s.regFld (R.SWC_PRSV p) 15 0) 0

/-- Another enabled recovery instance works on the stream (R162). [DEDUCED, assumption 45] -/
def State.cbTaken (s : State) (n stream : Nat) : Bool :=
  (List.range 256).any fun k => k != n && s.regBit (R.SWC_CB_CFG k) 31 && s.regFld (R.SWC_CB_STREAM k) 15 0 == stream

/-- SWC (R137, R150, R162, R164, R168). -/
def State.swcOk (s : State) (off : Nat) (v : Word) : Bool :=
  if off = 0x88 then fld v 15 0 + s.reserved ≤ 49152
  else if 0x2000 ≤ off ∧ off < 0x4000 then
    let p := (off - 0x2000) / 0x40
    match off % 0x40 with
    | 0x08 => s.regFld R.SWC_POOL_SIZE 15 0 + s.reserved + fld v 15 0 ≤ 49152 + s.regFld (R.SWC_PRSV p) 15 0
    | 0x10 => within 1 9248 (fld v 29 16)
    | 0x20 => fld v 14 8 ≤ 64 && (!bitOf v 1 ||
        (if bitOf v 2 then (s.cancelChange p).changeOk p (fld v 14 8) else s.changeOk p (fld v 14 8)))
    | 0x2C => fld v 29 0 < giga
    | _ => true
  else if 0x4000 ≤ off ∧ off < 0x8000 ∧ off % 16 = 0 then fld v 15 0 ≤ 49152
  else if 0x8000 ≤ off ∧ off < 0xC000 then (s.gcl ((off - 0x8000) / 0x200)).change.isNone
  else if 0xC000 ≤ off ∧ off < 0xD000 then
    let n := (off - 0xC000) / 16
    let old := s.reg (R.SWC_CB_CFG n)
    if off % 16 = 0 then
      (within 2 64 (fld v 22 16) || (fld v 22 16 == 0 && !bitOf v 31) || (bitOf v 30 && fld v 22 16 ≤ 64)) &&
      (!bitOf old 31 || (bitOf old 30 == bitOf v 30 && fld old 22 16 == fld v 22 16)) &&
      (!bitOf v 31 || !s.cbTaken n (s.regFld (R.SWC_CB_STREAM n) 15 0))
    else !bitOf old 31 || s.regFld (R.SWC_CB_STREAM n) 15 0 == fld v 15 0
  else true

/-- TBL and CLS (R168, R176, R199, R206, R208). -/
def State.tblOk (s : State) (off : Nat) (v : Word) : Bool :=
  if off = 0x90 then fld v 7 0 != 0
  else if off = 0x9C then within 32 55 (fld v 6 0)
  else if off = 0x420 then !bitOf v 0 || s.tbl.mgo.isNone
  else s.hcbOk (0x100A0000 + off) v

/-- CLS: PVID 1-4,094 (R208). -/
def clsOk (off : Nat) (v : Word) : Bool :=
  if 0x1000 ≤ off ∧ off % 16 = 0 then within 1 4094 (fld v 11 0) else true

/-- Length of a bit in periods of 80 MHz; the fields are BRP, SEG1 and SEG2 (R212). -/
def bitPeriods (brp seg1 seg2 : Nat) : Nat := brp * (1 + seg1 + seg2)

/-- Length of a nominal bit. -/
def nominalPeriods (v : Word) : Nat := bitPeriods (fld v 9 0) (fld v 17 10) (fld v 24 18)

/-- Length of a data bit. -/
def dataPeriods (v : Word) : Nat := bitPeriods (fld v 7 0) (fld v 15 8) (fld v 22 16)

/-- Shortest FD data bit of a channel (R210). -/
def fdPeriods (n : Nat) : Nat := if n < 4 then 40 else if n < 16 then 10 else 16

/-- The channel has CAN XL (R210). -/
def hasXl (n : Nat) : Bool := within 4 11 n

/-- A CAN_CFG value (R212). -/
def State.canCfgOk (s : State) (n : Nat) (v : Word) : Bool :=
  let old := s.reg (R.CAN_CFG n)
  let proto := fld v 2 1
  let pwm := s.regFld (R.CAN_XPWM n) 5 0 + s.regFld (R.CAN_XPWM n) 13 8
  proto != 3 && (proto != 2 || hasXl n) && fld v 11 10 != 3 &&
  (!bitOf v 3 || (n < 4 && proto == 0 && nominalPeriods (s.reg (R.CAN_NBT n)) == 320)) &&
  (!(bitOf v 0 && proto == 2) || pwm == dataPeriods (s.reg (R.CAN_XBT n))) &&
  (!bitOf old 0 || putBit old 0 (bitOf v 0) == v)

/-- Selective wake with a length and no data bit to match is refused (R236). -/
def State.swkOk (s : State) (n off : Nat) (v : Word) : Bool :=
  let get (o : Nat) : Word := if o = off then v else s.reg (R.CAN_SWK_CFG n + (o - 0xC0))
  !(0 < fld (get 0xC0) 7 4 && get 0xCC == 0 && get 0xD0 == 0)

/-- CAN channels (R212, R236, R240). -/
def State.canOk (s : State) (n off : Nat) (v : Word) : Bool :=
  let off' := !s.regBit (R.CAN_CFG n) 0
  match off with
  | 0x80 => s.canCfgOk n v
  | 0x84 =>
    off' && 1 ≤ fld v 9 0 && 1 ≤ fld v 17 10 && 1 ≤ fld v 31 25 && fld v 31 25 ≤ fld v 24 18 &&
      80 ≤ nominalPeriods v
  | 0x88 =>
    off' && 1 ≤ fld v 7 0 && 1 ≤ fld v 15 8 && 1 ≤ fld v 30 24 && fld v 30 24 ≤ fld v 22 16 &&
      fdPeriods n ≤ dataPeriods v
  | 0x8C =>
    off' && 1 ≤ fld v 7 0 && 1 ≤ fld v 15 8 && 1 ≤ fld v 30 24 && fld v 30 24 ≤ fld v 22 16 &&
      (!hasXl n || 8 ≤ dataPeriods v)
  | 0x90 => off'
  | 0x94 => off'
  | 0xC0 => s.swkOk n off v
  | 0xCC => s.swkOk n off v
  | 0xD0 => s.swkOk n off v
  | _ => true

/-- A schedule entry (R230): TYPE 0-5, and DELAY long enough for the slot at the channel's rate.
[DEDUCED, assumption 58] -/
def State.linEntryOk (s : State) (n : Nat) (v : Word) : Bool :=
  let type_ := fld v 10 8
  let len := if 4 ≤ type_ then 8 else s.regFld (R.LIN_ID n (fld v 5 0)) 5 2
  type_ ≤ 5 && 1 ≤ fld v 27 16 &&
    14 * (34 + 10 * (len + 1)) * 1000 ≤ fld v 27 16 * s.regFld (R.LIN_CFG n) 31 16

/-- The table a channel runs may not be written while it runs (R241). -/
def State.linTableFree (s : State) (n t : Nat) : Bool :=
  !(s.regBit (R.LIN_CFG n) 0 && s.regBit (R.LIN_SCHED_CTRL n) 2 && (kvGet s.bus.lin n LinCh.start).table == t)

/-- LIN channels (R229-R231, R241). [DEDUCED, assumption 58] -/
def State.linOk (s : State) (n off : Nat) (v : Word) : Bool :=
  if off = 0x80 then
    let old := s.reg (R.LIN_CFG n)
    within 13 26 (fld v 6 2) && within 1 3 (fld v 8 7) && within 1000 20000 (fld v 31 16) &&
      (!bitOf old 0 || putBit old 0 (bitOf v 0) == v)
  else if 0xA0 ≤ off ∧ off < 0xB0 then v.toNat ≤ 64 && s.linTableFree n ((off - 0xA0) / 4)
  else if 0x100 ≤ off ∧ off < 0x200 then
    fld v 1 0 != 3 && (fld v 1 0 == 0 || within 1 8 (fld v 5 2))
  else if 0x200 ≤ off ∧ off < 0x600 then s.linTableFree n ((off - 0x200) / 0x100) && s.linEntryOk n v
  else true

/-- MEC (R223, R227, R242). -/
def mecOk (off : Nat) (v : Word) : Bool :=
  if off = 0x94 then fld v 7 0 ≤ 8 && (fld v 7 0 == 0 || fld v 19 8 + fld v 7 0 ≤ 3968)
  else if off = 0x98 then within 10 200 (fld v 7 0)
  else if 0x2000 ≤ off ∧ off < 0x4000 ∧ off % 0x20 = 0 then fld v 25 24 ≤ 1
  else true

/-! ### Time, signal plane, placement, host bridge -/

/-- TIM (R293, R296, R297, R302, R308, R310, R321). -/
def State.timOk (s : State) (off : Nat) (v : Word) : Bool :=
  if 0x1000 ≤ off then
    if off % 0x20 = 0 then
      (fld v 15 8 ≤ 5 || 253 ≤ fld v 15 8) && fld v 18 16 ≤ 4
    else true
  else if 0x100 ≤ off then
    let n := (off - 0x100) / 0x40
    match off % 0x40 with
    | 0x00 =>
      (fld v 2 1 != 0 || n ≤ 1) && (fld v 2 1 != 2 || n == 2) && mainMac (fld v 10 4) && fld v 23 16 ≤ 127
    | 0x10 => within 1 500 (fld v 9 0)
    | 0x18 => 1 ≤ fld v 23 16
    | 0x24 =>
      s.regFld (R.TIM_TB_CFG n) 2 1 == 3 &&
        (signed 32 v.toNat).natAbs ≤ s.regFld (R.TIM_TB_RLIM n) 9 0 * 256000
    | 0x28 => s.regFld (R.TIM_TB_CFG n) 2 1 == 1
    | 0x3C => s.tbCmdOk n v
    | _ => true
  else if off = 0x98 then within 1 500 (fld v 24 16)
  else if off = 0x9C then fld v 2 0 ≤ 5
  else if off = 0xA8 then !s.regBit R.TIM_TB3_CFG 0 && (signed 32 v.toNat).natAbs ≤ 25600000
  else true

/-- SIG (R270, R273, R276, R283, R291). -/
def State.sigOk (s : State) (m : Master) (off : Nat) (v : Word) : Bool :=
  match off with
  | 0x90 => !bitOf v 0 || (if bitOf v 1 then s.cancelSwitch else s).switchOk
  | 0x98 => v.toNat < giga
  | 0xB0 => m.origin == 1
  | 0xB4 => m.origin == 1
  | 0xB8 => m.origin == 1 && (!bitOf v 0 || s.armError.isNone)
  | 0xC0 => s.sigLoadOk v
  | _ => true

/-- PLE (R357); PLE_MW_TIME is a compact timestamp. -/
def State.pleOk (s : State) (off : Nat) (v : Word) : Bool :=
  if off = 0x228 then v.toNat < giga else s.pleCheck off v

/-- HBR (R400, R402, R418). -/
def State.hbrOk (s : State) (off : Nat) (v : Word) : Bool :=
  if off = 0xA0 then s.bar4BaseOk v
  else if off = 0xA4 then fld v 27 16 ≤ 3967 && fld v 11 0 ≤ 3967
  else if off = 0xD0 then 1 ≤ fld v 7 0 && fld v 25 16 ≤ 512 && fld v 25 16 % 64 == 0
  else if 0x280 ≤ off ∧ off < 0x600 then fld v 9 0 < 656
  else true

/-! ### Guards, alive, ciphers, keys, ledger, power, update -/

/-- A guard configuration register, which only origin 0x01 writes (R432). -/
def guardConfig (off : Nat) : Bool :=
  (0x90 ≤ off && off < 0x98) || (0xA0 ≤ off && off < 0xC4) || 0x1000 ≤ off

/-- GRD (R431, R432, R457). -/
def State.grdOk (s : State) (m : Master) (off : Nat) (v : Word) : Bool :=
  (!guardConfig off || m.origin == 1) &&
  (if off = 0xA0 then !s.regBit (winBase 6 + 0x20) 0 && s.grdLoadOk v
   else if off = 0xC0 then !s.regBit (winBase 6 + 0x20) 0
   else if 0x1000 ≤ off then
     match off % 0x20 with
     | 0 => fld v 2 0 ≤ 4 && fld v 17 16 ≤ 2 && (fld v 17 16 != 2 || within 64 67 ((off - 0x1000) / 0x20))
     | 4 => fld v 19 0 ≤ 1000000
     | 8 => fld v 21 0 ≤ 156250
     | _ => true
   else true)

/-- ALV (R432, R451). [DEDUCED, assumption 93] -/
def State.alvOk (s : State) (m : Master) (off : Nat) (v : Word) : Bool :=
  match off with
  | 0x80 => m.origin == 1
  | 0x8C => s.restartValueOk m v
  | _ => true

/-- CIP (R477, R486, R505). -/
def State.cipOk (s : State) (m : Master) (off : Nat) (v : Word) : Bool :=
  if 0x1000 ≤ off then
    if off % 0x20 = 0 then
      let old := s.reg (winBase 16 + off)
      let keep (w : Word) : Word := w &&& 0x3FC#32
      fld v 3 2 != 3 && (!bitOf old 0 || keep old == keep v)
    else true
  else
    match off with
    | 0x90 => !bitOf v 0 || (m.origin == 1 && s.cip.causes.isEmpty)
    | 0xE0 => !bitOf v 31 || within 1 2 (fld v 1 0)
    | 0x120 => !bitOf v 0 || s.cip.job.isNone
    | 0x130 => within 1 (2 ^ 23) (fld v 23 0)
    | 0x140 => !bitOf v 0 || m.origin == 1
    | 0x150 => fld v 14 12 ≤ 4
    | _ => true

/-- KEY (R491-R493, R496). -/
def State.keyOk (s : State) (m : Master) (off : Nat) : Bool :=
  if off = 0xA8 ∨ off = 0x100 then m.origin == 1
  else if 0xC0 ≤ off ∧ off < 0xF0 then m.origin == 1 && lifeCycle s == 2 && !s.key.oemFused
  else true

/-- PWR (R532, R536, R543, R546, R556). -/
def State.pwrOk (s : State) (m : Master) (off : Nat) (v : Word) : Bool :=
  match off with
  | 0x8C => s.stateReqOk v
  | 0x94 => pdReqOk v
  | 0x98 => blkRstOk v
  | 0x9C => coreRstOk m v
  | 0xA0 => chipRstOk v
  | 0xA8 => within 1 100 (fld v 7 0)
  | 0xBC => within 6000 32000 (fld v 15 0) && within 6000 32000 (fld v 31 16)
  | _ => true

/-- The value check of a write, after secure access and locks (R77, R78). -/
def State.valueOk (s : State) (m : Master) (l : Loc) (v : Word) : Bool :=
  if faultOff l.win ≤ l.off then
    if within (faultOff l.win + 8) (faultOff l.win + 0x17) l.off then
      reactOk l.win ((l.off - faultOff l.win - 8) / 4) v else true
  else if l.off < 0x80 then true
  else
    match l.win with
    | 0 => sysOk l.off v
    | 1 => s.pwrOk m l.off v
    | 2 => s.foxOk l.off v
    | 3 => if l.off = 0x100 then audCtrlOk v else if l.off = 0x110 then s.expAckOk v else true
    | 4 => if l.off = 0xA4 then v.toNat ≤ 524288 else true
    | 5 => s.alvOk m l.off v
    | 6 => s.grdOk m l.off v
    | 8 => s.swcOk l.off v
    | 9 => s.qmgOk m l.off v
    | 10 => s.tblOk l.off v
    | 11 => clsOk l.off v
    | 16 => s.cipOk m l.off v
    | 17 => s.keyOk m l.off
    | 20 => s.timOk l.off v
    | 21 => s.pleOk l.off v
    | 22 => s.sigOk m l.off v
    | 24 => s.hbrOk l.off v
    | 26 => if l.off = 0x98 then s.updCmdOk v else if l.off = 0xB4 then fld v 1 0 != 0 else true
    | 54 => mecOk l.off v
    | w => if 96 ≤ w ∧ w < 120 then s.canOk (w - 96) l.off v
      else if 120 ≤ w ∧ w < 128 then s.linOk (w - 120) l.off v else true

end Sys2Proof.Machine
end

