-- ==== Sys2Proof/Machine/Hooks.lean ====
section
/-! DEFINITION. What a taken register write does beyond the value stored, by window; and the value stored (03_registers_and_audit.md
R8, R76, R82 and the rules of each chapter). -/

namespace Sys2Proof.Machine

/-- Bits of a register that start an action and are not stored. -/
def actionBits (l : Loc) : Word :=
  if l.win = 8 ∧ 0x2000 ≤ l.off ∧ l.off < 0x4000 then
    if l.off % 0x40 = 0 then 2#32 else if l.off % 0x40 = 0x20 then 6#32 else 0
  else 0

/-- Bits of a written word that a register takes (R9). -/
def inMask (l : Loc) : Word := regMask l ||| actionBits l

/-- The value after a write of v over the value old (R8, R118, R150, R179). -/
def State.after (s : State) (l : Loc) (old v : Word) : Word :=
  let m := regMask l
  let w := v &&& m
  match l.row.acc with
  | .w1c =>
    if l.win = 9 ∧ 0x4000 ≤ l.off ∧ l.off < 0x6000 then
      let q := (l.off - 0x4000) / 0x40
      let t := (s.reg (R.QP_THRESH q)).toNat
      old &&& ~~~(if 0 < t ∧ t ≤ (s.queue q).depth then putBit w 2 false else w)
    else old &&& ~~~w
  | .w1s => if l.win = 22 ∧ l.off = 0x90 then (if bitOf v 1 then v &&& 1#32 else old ||| (v &&& 1#32)) else old ||| w
  | .wo => v &&& m
  | _ =>
    if l.win = 10 ∧ (hcbTable (0x100A0000 + l.off)).isSome ∧ l.off % 16 = 8 then hctrlNew old v
    else
      let n := (old &&& ~~~m) ||| w
      if l.win = 8 ∧ 0x2000 ≤ l.off ∧ l.off < 0x4000 ∧ l.off % 0x40 = 0x20 then
        if bitOf v 1 then putBit n 1 true else if bitOf v 2 then putBit n 1 false else n
      else n

/-- The register file keeps the written value; the others act only, or their action stores the value. -/
def stored (l : Loc) : Bool :=
  match l.row.acc with
  | .wo => l.win == 16 && 0xC0 ≤ l.off && l.off < 0xE0
  | .w1s => l.win != 22
  | .w1c => l.off < faultOff l.win
  | _ => !(l.win == 8 && 0x4000 ≤ l.off && l.off < 0x8000 && l.off % 16 == 8)

/-! ### Actions by window -/

/-- A route was written: a line that stands goes to the PCIe function the route names, if it has not gone there for this
assertion (R43). [DEDUCED, assumption 84] -/
def State.routeWritten (s : State) (line : Nat) : State :=
  if s.sys.irqUp.contains line then
    let (s, bad) := s.postLine line
    if bad then
      let (s, up) := s.setEvent 24 0
      if up then ((s.moveLine 0 2).1.moveLine 24 1).1 else s
    else s
  else s

/-- PWR (R532, R536, R543, R546). The state of the cores is not modelled. [DESIGN CHOICE, assumption 13] -/
def State.pwrWrote (s : State) (off : Nat) (old new v : Word) : State :=
  match off with
  | 0x8C => s.stateReq v
  | 0x94 => s.pdRequest old new
  | 0x98 => s.blkRst v
  | 0xA0 => s.chipRst
  | _ => s

/-- FOX: a software measurement, and EN of a rule cleared (R58, R61). -/
def State.foxWrote (s : State) (off : Nat) (old new : Word) : State :=
  if 0x340 ≤ off ∧ off < 0x350 then s.setReg (R.FOX_MEAS (60 + (off - 0x340) / 4)) new
  else if 0x1000 ≤ off ∧ off % 16 = 0 ∧ bitOf old 31 ∧ !bitOf new 31 then s.ruleCleared ((off - 0x1000) / 16) old
  else s

/-- LDG_CMD (R521, R525, R529): a REPLAY_GO after the deadline finds the set freed. [DEDUCED, assumption 41] -/
def State.ldgCmd (s : State) (v : Word) : State :=
  let waits := match s.ldg.set with | some x => x.waiting | none => false
  let s := if bitOf v 0 && waits then (if s.replayLate then s.expireSet else s.beginReplay) else s
  if bitOf v 1 then s.expireSet else s

/-- ALV (R449-R452). -/
def State.alvWrote (s : State) (off : Nat) (v : Word) : State :=
  match off with
  | 0x84 => s.evalSafe
  | 0x88 => s.kick v
  | 0x8C => s.restart v
  | 0x90 => s.aliveCmd v
  | _ => s

/-- GRD: loads, APPLY and FAIL (R431, R433, R457). [DEDUCED, assumption 41 and 89] -/
def State.grdWrote (s : State) (off : Nat) (v : Word) : State :=
  match off with
  | 0xA0 => s.grdLoadGo v
  | 0xC0 =>
    let s := if bitOf v 0 then s.applied else s
    if bitOf v 1 then s.manifestFailed else s
  | _ => s

/-- SWC_POOL_SIZE was written (R142). [DEDUCED, assumption 39] -/
def State.poolWritten (s : State) : State :=
  if s.regFld R.SWC_POOL_SIZE 15 0 < s.poolUse then
    if s.regBit R.SWC_STATUS 1 then s else (s.modReg R.SWC_STATUS fun w => putBit w 1 true).raise 8 1
  else s.overDone 0

/-- SWC_PRSVp was written (R142). -/
def State.rsvWritten (s : State) (p : Nat) : State :=
  if s.regFld (R.SWC_PRSV p) 15 0 < s.rsvUse p then s.modReg (R.SWC_PSTAT p) fun w => putBit w 2 true else s.overDone p

/-- SWC_QLIMq was written (R142). [DEDUCED, assumption 39] -/
def State.limWritten (s : State) (q : Nat) : State :=
  if s.regFld (R.SWC_QLIM q) 15 0 < s.occ q then s.modReg (R.SWC_QSTAT q) fun w => putBit w 31 true else s.quotaDone q

/-- SWC_PCTLp was written (R160). -/
def State.portWritten (s : State) (p : Nat) (v : Word) : State :=
  if !bitOf v 0 && bitOf v 1 then s.purgePort p else s

/-- SWC_GCL_CTRLp was written: CANCEL, then CHANGE, and gating that begins takes its place in the cycle (R149, R150).
[DEDUCED, assumption 40] -/
def State.gclWritten (s : State) (p : Nat) (old new v : Word) : State :=
  let s := if bitOf v 2 then s.cancelChange p else s
  let s := if bitOf v 1 then s.requestChange p else s
  if bitOf new 0 && !bitOf old 0 && fld new 22 16 != 0 then s.gclAdvance p else s

/-- SWC. -/
def State.swcWrote (s : State) (off : Nat) (old new v : Word) : State :=
  if off = 0x88 then s.poolWritten
  else if 0x2000 ≤ off ∧ off < 0x4000 then
    let p := (off - 0x2000) / 0x40
    match off % 0x40 with
    | 0x00 => s.portWritten p v
    | 0x08 => s.rsvWritten p
    | 0x20 => s.gclWritten p old new v
    | _ => s
  else if 0x4000 ≤ off ∧ off < 0x8000 then
    let q := (off - 0x4000) / 16
    if off % 16 = 0 then s.limWritten q else if off % 16 = 8 then s.shaperWritten q new else s
  else if 0xC000 ≤ off ∧ off % 16 = 0 ∧ bitOf new 31 ∧ !bitOf old 31 then
    s.setSwc { s.swc with cb := kvDel s.swc.cb ((off - 0xC000) / 16) }
  else s

/-- A ring is enabled: every pointer is 0, and a completion ring starts armed (R362, R380). -/
def State.ringStart (s : State) (k n : Nat) : State :=
  if k = 4 then
    ((s.setReg (R.CQ_PROD n) 0).setReg (R.CQ_CONS n) 0).setCq n ⟨true, 0, 0, []⟩
  else
    let a := ringAt k n
    let s := ((s.setReg (a + 0x10) 0).setReg (a + 0x14) 0).setReg (a + 0x18) 0
    if k = 0 then s.setRng { s.rng with tx := kvDel s.rng.tx n, chain := kvDel s.rng.chain n } else s

/-- A ring is disabled; a completion ring discards the entries that wait for it (R379, R390).
[DEDUCED, assumption 82] -/
def State.ringStop (s : State) (k n : Nat) (old : Word) : State :=
  if k = 4 then
    let w := (s.cq n).wait
    w.foldl (fun s e => (s.satCtr 9 (0x1400 + n) 4).freeSource e) (s.setCq n CqSt.none)
  else s.ringDisable k n old

/-- A ring's CFG was written. -/
def State.ringWritten (s : State) (k n : Nat) (old new : Word) : State :=
  if fld old 16 0 = 0 ∧ fld new 16 0 ≠ 0 then s.ringStart k n
  else if fld old 16 0 ≠ 0 ∧ fld new 16 0 = 0 then s.ringStop k n old
  else s

/-- QMG: queue primitives, host mailboxes, rings (R121, R123, R126, R362, R386, R390). [DEDUCED, assumption 41] -/
def State.qmgWrote (s : State) (off : Nat) (old new v : Word) : State :=
  match ringOf off with
  | some (k, n, o) => if o = 8 then s.ringWritten k n old new else s
  | none =>
    if 0x4000 ≤ off ∧ off < 0x6000 then
      let q := (off - 0x4000) / 0x40
      let s := match off % 0x40 with
        | 0x08 => s.noteDepth q
        | 0x20 => if bitOf v 0 then s.flush q else s
        | 0x24 =>
          let s := if bitOf v 1 then s.cancelPop q else s
          if bitOf v 0 then s.popQueue q else s
        | _ => s
      s.evalQueue q
    else if 0x400 ≤ off ∧ off < 0xC00 then
      if off % 0x100 = 0x80 then s.hmbDb ((off - 0x400) / 0x100) v
      else if off % 0x100 = 0x84 then s.hmbFwdb ((off - 0x400) / 0x100) v
      else s
    else s

/-- CIP (R470-R487). -/
def State.cipWrote (s : State) (m : Master) (off : Nat) (v : Word) : State :=
  match off with
  | 0x90 => s.alarmAck v
  | 0xE0 => s.slotCmd m v
  | 0x120 => s.jobGo m v
  | 0x140 => s.fvSet m v
  | 0x180 => s.saCmd m v
  | _ => s

/-- A word of the OEM hash was written; the twelfth stages the hash (R493). [DEDUCED, assumption 104] -/
def State.oemWrote (s : State) (i : Nat) : State :=
  let l := if s.key.oemWritten.contains i then s.key.oemWritten else i :: s.key.oemWritten
  { s with key := { s.key with oemWritten := l, stagedOem := s.key.stagedOem || l.length == 12 } }

/-- KEY; `bad` says that a vault record's programming fails (R492, R493, R497, R499). -/
def State.keyWrote (s : State) (m : Master) (off : Nat) (v : Word) (bad : Bool) : State :=
  if 0xC0 ≤ off ∧ off < 0xF0 then s.oemWrote ((off - 0xC0) / 4)
  else
    match off with
    | 0xA8 => s.lcRequest m v
    | 0x100 => s.vaultCmd m v bad
    | 0x110 => s.attGo m v
    | _ => s

/-- TIM (R298, R300, R302, R306, R309, R310). -/
def State.timWrote (s : State) (off : Nat) (old new v : Word) : State :=
  if 0x1000 ≤ off then if off % 0x20 = 8 then s.asymWrite ((off - 0x1000) / 0x20) else s
  else if 0x100 ≤ off then
    let n := (off - 0x100) / 0x40
    match off % 0x40 with
    | 0x00 => s.slavePortWritten n old new
    | 0x24 => s.rateWritten n new
    | 0x28 => s.ofsIn n v
    | 0x3C => s.tbCmd n v
    | _ => s
  else if off = 0x98 then s.ppsOutWritten old new
  else if off = 0xA4 ∨ off = 0xA8 then s.followTb3
  else s

/-- PLE (R331, R332, R352, R357). -/
def State.pleWrote (s : State) (off : Nat) (old new v : Word) : State :=
  match off with
  | 0x80 =>
    if bitOf new 0 && !bitOf old 0 then s.pleEnable
    else if bitOf old 0 && !bitOf new 0 then s.pleDisable
    else s
  | 0x230 => s.directGo v
  | 0x240 => s.pleLoadGo v
  | _ => s

/-- SIG: CANCEL, then SWITCH; the mark of armed banks; loads (R274, R276, R283). [DEDUCED, assumption 41 and 67] -/
def State.sigWrote (s : State) (m : Master) (off : Nat) (v : Word) : State :=
  match off with
  | 0x90 =>
    let s := if bitOf v 1 then s.cancelSwitch else s
    if bitOf v 0 then s.requestSwitch m else s
  | 0xB8 => if bitOf v 0 then s.setReg R.SIG_RI_ARM 1 else s
  | 0xC0 => s.sigLoadGo v
  | _ => s

/-- CAN: a channel that is enabled while bus-off with AUTO_BO begins its recovery, and one that is disabled abandons it;
CAN_CMD.RECOVER (R213). [DEDUCED, assumption 56] -/
def State.canWrote (s : State) (n off : Nat) (old new v : Word) : State :=
  let c := s.canCh n
  match off with
  | 0x80 =>
    if bitOf new 0 && !bitOf old 0 then
      if bitOf new 7 then s.canRecover n else s
    else if bitOf old 0 && !bitOf new 0 then s.setCanCh n { c with recovering := false }
    else s
  | 0xA0 => if bitOf v 0 then s.canRecover n else s
  | _ => s

/-- LIN: a new TABLE requests a switch, which takes effect at once where no slot or pass is in progress; the wake pulse of a
channel that is on (R230, R233). [DEDUCED, assumption 59] -/
def State.linWrote (s : State) (n off : Nat) (new v : Word) : State :=
  let c := s.linCh n
  match off with
  | 0x88 =>
    let t := fld new 1 0
    if t = c.table then s.setLinCh n { c with want := none } else (s.setLinCh n { c with want := some t }).linSwitch n
  | 0x8C => if bitOf v 0 && s.regBit (R.LIN_CFG n) 0 then s.emit (.linWake n) else s
  | _ => s

/-- TBL_MGO starts the mailbox command for a master: TBL_CMD_OPEN names it until it completes, and TBL_MSTAT shows none
complete (R206). [DEDUCED, assumption 150] -/
def State.mailboxGo (s : State) (m : Master) : State :=
  let s := (s.setReg R.TBL_CMD_OPEN (word (s.regFld (R.TBL_MCMD 1) 15 0 * 65536 + 0xFFFF))).setReg R.TBL_MSTAT 0
  { s with tbl := { s.tbl with mgo := some m } }

/-- What a write of v that was taken does, the register having gone from old to new; `bad` says that an NVM write it starts
fails. -/
def State.wrote (s : State) (m : Master) (l : Loc) (old new v : Word) (bad : Bool) : State :=
  if faultOff l.win ≤ l.off then
    let o := l.off - faultOff l.win
    if o = 0 then s.clearStatus l.win v
    else if o = 4 then s.forceFaults l.win v
    else if o = 0x40 then s.ackFault l.win v
    else s
  else if l.off < 0x80 then if l.off = 0x30 then s.mboxRequest m l.win v else s
  else
    match l.win with
    | 0 => if 0x1000 ≤ l.off ∧ l.off < 0x1800 then s.routeWritten ((l.off - 0x1000) / 4) else s
    | 1 => s.pwrWrote l.off old new v
    | 2 => s.foxWrote l.off old new
    | 3 => if l.off = 0x100 then s.audCtrlWritten old else if l.off = 0x110 then s.expAck v else s
    | 4 => if l.off = 0x90 then s.ldgCmd v else s
    | 5 => s.alvWrote l.off v
    | 6 => s.grdWrote l.off v
    | 8 => s.swcWrote l.off old new v
    | 9 => s.qmgWrote l.off old new v
    | 10 => if l.off = 0x420 ∧ bitOf v 0 then s.mailboxGo m else s
    | 16 => s.cipWrote m l.off v
    | 17 => s.keyWrote m l.off v bad
    | 20 => s.timWrote l.off old new v
    | 21 => s.pleWrote l.off old new v
    | 22 => s.sigWrote m l.off v
    | 24 => if l.off = 0xC0 then s.hbrAck v else s
    | 26 => if l.off = 0x98 then s.updGo m v else s
    | w =>
      if 96 ≤ w ∧ w < 120 then s.canWrote (w - 96) l.off old new v
      else if 120 ≤ w ∧ w < 128 then s.linWrote (w - 120) l.off new v
      else s

end Sys2Proof.Machine
end

