-- ==== Sys2Proof/Machine/Access.lean ====
section
/-! DEFINITION. Accesses on the fabric: regions, sizes, reads, writes with their checks and audit entries, bit aliases,
accesses that wait or end as errors (01_architecture.md R20-R26, R36; 03_registers_and_audit.md R76-R90; 12_host_bridge.md
R399, R401). -/

namespace Sys2Proof.Machine

/-! ### Regions and sizes (R20, R85) -/

/-- What lies at a fabric address. [DEDUCED, assumption 16] -/
inductive Region where
  | regs | bits | cells | stamps | doorbell | rom | scratch | mram | nor | dram | spill | outbound | unmapped
  deriving DecidableEq, Repr

/-- The fabric address map (R20). [DEDUCED, assumption 16] -/
def regionOf (a : Nat) : Region :=
  if a < 0x40000 then .rom
  else if within 0x08000000 0x081FFFFF a then .scratch
  else if within 0x10000000 0x103FFFFF a then .regs
  else if within 0x11000000 0x1103FFFF a then .cells
  else if within 0x11040000 0x1107FFFF a then .stamps
  else if within 0x20000000 0x203FFFFF a then .doorbell
  else if within 0x30000000 0x37FFFFFF a then .bits
  else if within 0x40000000 0x41FFFFFF a then .mram
  else if within 0x50000000 0x5FFFFFFF a then .nor
  else if within 0x800000000 0x9EFFFFFFF a then .dram
  else if within 0x9F0000000 0x9FFFFFFFF a then .spill
  else if within 0x800000000000 0xFFFFFFFFFFFF a then .outbound
  else .unmapped

/-- Accesses a memory takes: a power of two up to 64 bytes, naturally aligned. -/
def memSize (a n : Nat) : Bool := [1, 2, 4, 8, 16, 32, 64].contains n && a % n == 0

/-- Accesses the cells take. -/
def cellSize (a n : Nat) : Bool :=
  n % 4 == 0 && within 4 64 n && a % 4 == 0 &&
    (if [4, 8, 16, 32, 64].contains n then a % n == 0 else a / 64 == (a + n - 1) / 64)

/-- The fabric accepts a size and alignment at an address (R85). -/
def sizeOk (a n : Nat) (write : Bool) : Bool :=
  match regionOf a with
  | .regs =>
    (n == 4 && a % 4 == 0) ||
      (n == 8 && a % 8 == 0 && (match regAt a with | some l => l.row.wide | none => false))
  | .bits => n == 4 && a % 4 == 0
  | .doorbell => n == 4 && a % 4 == 0
  | .cells => cellSize a n
  | .stamps => cellSize a n
  | .rom => memSize a n && !write
  | .nor => memSize a n && !write
  | _ => memSize a n

/-! ### Errors (R22, R36, R86) -/

/-- An access ends as an error: code 1 for one that no target takes, 2 for a refused size (R22, R86, R411).
[DEDUCED, assumption 12 and 16] -/
def State.busError (s : State) (m : Master) (a n : Nat) (write : Bool) (code : Nat) : State :=
  if inbound m then s.inboundRefused m a n write code else s.respond .error

/-- The register whose word an access falls in. -/
def wordReg (a : Nat) : Option Loc := regAt (a - a % 4)

/-- A size or alignment that R85 does not list: counted, the first captured, and a write into a logged register entered as
REJECTED with its bytes in their lanes (R86). [DEDUCED, assumption 25] -/
def State.sizeError (s : State) (m : Master) (a : Nat) (write : Bool) (bs : Bytes) : State :=
  let s := if s.reg R.SYS_SIZE_ERR_CNT = 0 then
      (s.setReg R.SYS_SIZE_ERR_ADDR (word a)).setReg R.SYS_SIZE_ERR_INFO
        (word (a / 2 ^ 32 % 65536 * 65536 + m.origin * 256 + (if write then 128 else 0) + min bs.length 127))
    else s
  let s := s.incReg R.SYS_SIZE_ERR_CNT
  let s := match wordReg a with
    | some l =>
      if write && l.row.log && decide (regionOf a = Region.regs) then
        s.logReject m (a - a % 4) (s.liveAt l) (word (leVal (slice bs 0 (4 - a % 4)) * 2 ^ (8 * (a % 4))))
      else s
    | none => s
  s.busError m a bs.length write 2

/-- A core's access outside its partition's region (R36). -/
def State.dramDeny (s : State) (m : Master) (a n : Nat) (write : Bool) : State :=
  let s := if s.reg R.SYS_DENY_CNT = 0 then
      (s.setReg R.SYS_DENY_ADDR_LO (word a)).setReg R.SYS_DENY_ADDR_HI (word (a / 2 ^ 32 % 65536))
    else s
  (s.incReg R.SYS_DENY_CNT).busError m a n write 1

/-- A core of a partition 1-3 reaches a DRAM range (R36). -/
def State.inPartition (s : State) (m : Master) (a n : Nat) : Bool :=
  let p := partitionOf s m
  p == 0 || (let (b, e) := s.partRegion p; decide (b ≤ a) && decide (a + n ≤ e))

/-- An access waits while its block is in BLOCK reset (R23, R88). [DEDUCED, assumption 17] -/
def State.hold (s : State) (m : Master) (a n : Nat) (write : Bool) (v : Nat) : State :=
  { s with sys := { s.sys with bus := .held, held := s.sys.held ++ [⟨m, a, n, write, v⟩] } }

/-! ### Reads (R8, R79) -/

/-- One register as a master reads it, before any effect of the read. -/
def State.readWord (s : State) (m : Master) (l : Loc) : Word :=
  if (l.row.sec && !secureMaster s m) || l.row.acc == .wo then 0
  else if winBase l.win + l.off = R.KEY_RNG then s.rngRead.1
  else s.liveAt l

/-- What a read does: an RC register returns to its reset value, and KEY_RNG moves on (R8, R508).
[DEDUCED, assumption 21] -/
def State.afterRead (s : State) (m : Master) (l : Loc) : State :=
  if l.row.sec && !secureMaster s m then s
  else if winBase l.win + l.off = R.KEY_RNG then s.rngRead.2
  else if l.row.acc == .rc then s.setReg (winBase l.win + l.off) l.row.reset
  else s

/-- A read of a register, or of the two words of an 8-byte one. -/
def State.regRead (s : State) (m : Master) (a n : Nat) : State :=
  let locs := ((List.range (n / 4)).map fun i => regAt (a + 4 * i)).filterMap id
  let v := leVal ((List.range (n / 4)).flatMap fun i =>
    leBytes 4 (match regAt (a + 4 * i) with | some l => (s.readWord m l).toNat | none => 0))
  (locs.foldl (fun s l => s.afterRead m l) s).respond (.data v)

/-! ### Writes (R8, R76-R78, R90, R97) -/

/-- What a write of a register comes to: no effect, a refusal that records an old value, a change the reserve does not admit
(R97), or a change. -/
inductive Verdict where
  | ignored
  | refused (old : Word)
  | heldBack
  | taken
  deriving DecidableEq, Repr

/-- Registers of partition 0 that ignore writes by secure masters (R38). -/
def fixedPart (l : Loc) : Bool :=
  l.win == 0 && ((0x110 ≤ l.off && l.off < 0x120) || l.off == 0x150 || l.off == 0x154)

/-- Judge a write of a register: secure access first, then what the access code ignores, locks, the value, and the audit
mark. -/
def State.judge (s : State) (m : Master) (l : Loc) (v : Word) : Verdict :=
  let a := winBase l.win + l.off
  if l.row.sec && !secureMaster s m then .refused 0
  else if l.row.acc == .ro || l.row.acc == .rc || fixedPart l then .ignored
  else if (l.row.acc == .wl && s.sys.wlDone.contains a) || (l.row.acc == .wlc && s.regBit (winBase l.win + 0x20) 0) then
    .refused (s.liveAt l)
  else if !s.valueOk m l (v &&& inMask l) || (a = R.GRD_APPLY && bitOf v 0 && (s.applyError none).isSome) then
    .refused (if l.row.acc == .wo then 0 else s.liveAt l)
  else if l.row.log && s.holding && !safetyWrite m a then .heldBack
  else .taken

/-- Take a write: the entry, the value, and what it does. -/
def State.take (s : State) (m : Master) (l : Loc) (v : Word) (bad : Bool) : State :=
  let a := winBase l.win + l.off
  let v := v &&& inMask l
  let old := s.reg a
  let new := s.after l old v
  let s := if l.row.log then s.logWrite m a (if l.row.acc == .wo then 0 else s.liveAt l) new else s
  let s := if l.row.acc == .wl then { s with sys := { s.sys with wlDone := a :: s.sys.wlDone } } else s
  let s := if stored l then s.setReg a new else s
  (s.wrote m l old new v bad).evalWindow l.win

/-- A refused write, with the error registers that its check fills (R275, R431). [DEDUCED, assumption 22] -/
def State.refuseWrite (s : State) (m : Master) (l : Loc) (old v : Word) : State :=
  let a := winBase l.win + l.off
  if a = R.GRD_APPLY ∧ old = 0 ∧ m.origin = 1 ∧ !s.regBit (winBase 6 + 0x20) 0 then
    match s.applyError none with
    | some (r, p, k) =>
      ((s.setReg R.GRD_APPLY_ERR (word (k + p * 2 ^ 16 + r * 2 ^ 24))).refuse m a old v).manifestFailed
    | none => s.refuse m a old v
  else if a = R.SIG_RI_ARM ∧ m.origin = 1 then
    match s.armError with
    | some x => (s.armFailed x).refuse m a old v
    | none => s.refuse m a old v
  else s.refuse m a old v

/-- The write needs an entry in the audit log's pending buffer (R78, R80, R90). -/
def State.needsEntry (s : State) (m : Master) (l : Loc) (x : Verdict) : Bool :=
  match x with
  | .refused _ => !s.aud.rejMs.contains (m.origin, s.nowMs)
  | .taken => l.row.log
  | _ => false

/-- Finish a judged write of a register. [DEDUCED, assumption 20] -/
def State.finish (s : State) (m : Master) (l : Loc) (v : Word) (bad : Bool) : Verdict → State
  | .ignored => s
  | .refused old => s.refuseWrite m l old v
  | .heldBack => s.holdRefuse
  | .taken => s.take m l v bad

/-- A write waits for room in the pending buffer (R90). [DEDUCED, assumption 23 and 24] -/
def State.waits (s : State) (m : Master) (a : Nat) (v : Word) : State :=
  { s with
    aud := { s.aud with waiting := s.aud.waiting ++ [⟨m, a, v⟩] }
    sys := { s.sys with bus := .held } }

/-- A 4-byte write of the register at a location, named by the address the master used. -/
def State.writeAt (s : State) (m : Master) (at_ : Nat) (l : Loc) (v raw : Word) (bad : Bool) : State :=
  let x := s.judge m l v
  if s.needsEntry m l x && !s.auditReady then s.waits m at_ raw
  else (s.finish m l v bad x).respond .done

/-- An 8-byte write: one change of two words, low word first, which is refused as a whole (R87).
[DEDUCED, assumption 20] -/
def State.writePair (s : State) (m : Master) (a : Nat) (lo hi : Loc) (v0 v1 : Word) : State :=
  let x := s.judge m lo v0
  let y := s.judge m hi v1
  let bad (z : Verdict) : Bool := match z with | .refused _ => true | _ => false
  if (s.needsEntry m lo x || s.needsEntry m hi y) && !s.auditReady then (s.waits m a v0).waits m (a + 4) v1
  else if bad x ∨ bad y then
    (if bad x then s.finish m lo v0 false x
     else s.finish m hi v1 false y).respond .done
  else if x = .heldBack then s.holdRefuse.respond .done
  else ((s.finish m lo v0 false x).finish m hi v1 false y).respond .done

/-- A write into the register space, inside a window that the master reaches. -/
def State.regWrite (s : State) (m : Master) (a n v : Nat) (bad : Bool) : State :=
  match regAt a with
  | none => s.respond .done
  | some l =>
    if n = 8 then
      match regAt (a + 4) with
      | some h => s.writePair m a l h (word v) (word (v / 2 ^ 32))
      | none => s.respond .done
    else s.writeAt m a l (word v) (word v) bad

/-- A write into a window that the master's partition may not reach (R35, R78). [DEDUCED, assumption 15] -/
def State.windowDeny (s : State) (m : Master) (a v : Nat) : State :=
  if !s.aud.rejMs.contains (m.origin, s.nowMs) && !s.auditReady then s.waits m a (word v)
  else (s.refuse m a 0 (word v)).respond .done

/-- An access to the register space. [DEDUCED, assumption 15] -/
def State.regAccess (s : State) (m : Master) (a n : Nat) (write : Bool) (v : Nat) (bad : Bool) : State :=
  match winOf a with
  | none => s.busError m a n write 1
  | some (w, _) =>
    if !powered s (domainOf w) then s.busError m a n write 1
    else if !sizeOk a n write then s.sizeError m a write (leBytes n v)
    else if inReset s (domainOf w) then s.hold m a n write v
    else if !windowGranted s m w then
      if write then s.windowDeny m a v else s.respond (.data 0)
    else if write then s.regWrite m a n v bad
    else s.regRead m a n

/-! ### Bit aliases (R24, R81, R82) -/

/-- The word that a write of v to bit b of a register stands for. -/
def State.aliasWord (s : State) (l : Loc) (b : Nat) (v : Bool) : Word :=
  match l.row.acc with
  | .w1c => if v then bitWord b else 0
  | .w1s => if v then bitWord b else 0
  | .wo => if v then bitWord b else 0
  | _ => putBit (s.reg (winBase l.win + l.off) &&& ~~~actionBits l) b v

/-- An access to one bit of a register by its own word (R81). -/
def State.aliasAccess (s : State) (m : Master) (a n : Nat) (write : Bool) (v : Nat) : State :=
  let r := 0x10000000 + (a - 0x30000000) / 128 * 4
  let b := (a - 0x30000000) / 4 % 32
  if !internalMaster s m then s.busError m a n write 1
  else
    match winOf r with
    | none => s.busError m a n write 1
    | some (w, _) =>
      if !powered s (domainOf w) then s.busError m a n write 1
      else if !sizeOk a n write then s.sizeError m a write (leBytes n v)
      else if inReset s (domainOf w) then s.hold m a n write v
      else if !windowGranted s m w then
        if write then s.windowDeny m r (v % 2 * 2 ^ b) else s.respond (.data 0)
      else
        match regAt r with
        | none => s.respond (if write then .done else .data 0)
        | some l =>
          if write then s.writeAt m a l (s.aliasWord l b (v % 2 == 1)) (word v) false
          else s.respond (.data (if bitOf (s.readWord m l) b then 1 else 0))

/-! ### Cells, doorbells, memories -/

/-- An access to signal cells or age stamps (R258-R260). [DEDUCED, assumption 17] -/
def State.cellAccess (s : State) (m : Master) (a n : Nat) (write : Bool) (v : Nat) : State :=
  let age := decide (0x11040000 ≤ a)
  let c := (a - 0x11000000) / 4 % 65536
  if !sizeOk a n write then s.sizeError m a write (leBytes n v)
  else if inReset s 15 then s.hold m a n write v
  else if write then
    (if age then (List.range (n / 4)).foldl (fun s i => s.cellDeny m (c + i) true 4) s
     else s.softCells m c (toWords (leBytes n v))).respond .done
  else
    s.respond (.bytes ((List.range (n / 4)).flatMap fun i =>
      leBytes 4 (if age then kvGet s.sig.stamp (c + i) 0 else (s.cell (c + i)).toNat)))

/-- An access to a doorbell page: reads return zero, and offsets other than 0 are reserved (R9, R363).
[DEDUCED, assumption 17 and 19] -/
def State.doorbellAccess (s : State) (m : Master) (a n : Nat) (write : Bool) (v : Nat) : State :=
  if !sizeOk a n write then s.sizeError m a write (leBytes n v)
  else if inReset s 3 then s.hold m a n write v
  else if !write then s.respond (.data 0)
  else if a % 0x1000 = 0 then (s.doorbell m ((a - 0x20000000) / 0x1000) (v % 2 ^ 32)).respond .done
  else s.respond .done

/-- An access to a memory that the master reaches. [DEDUCED, assumption 15 and 18] -/
def State.memAccess (s : State) (m : Master) (a n : Nat) (write : Bool) (v : Nat) : State :=
  let put (s : State) : State :=
    if write then (s.write a (leBytes n v)).respond .done else s.respond (.bytes (s.read a n))
  if !sizeOk a n write then s.sizeError m a write (leBytes n v)
  else
    match regionOf a with
    | .rom => if secureMaster s m then put s else s.busError m a n write 1
    | .nor => if secureMaster s m then put s else s.busError m a n write 1
    | .scratch => if internalMaster s m then put s else s.busError m a n write 1
    | .mram =>
      if !secureMaster s m then s.busError m a n write 1
      else if 0x41500000 ≤ a then s.respond (if write then .discarded else .bytes (List.replicate n 0))
      else if write ∧ 0x40200000 ≤ a ∧ a < 0x40A00000 then s.busError m a n write 1
      else put s
    | .dram => if s.inPartition m a n then put s else s.dramDeny m a n write
    | .spill => if 0 < partitionOf s m then s.dramDeny m a n write else s.busError m a n write 1
    | .outbound =>
      if !internalMaster s m then s.busError m a n write 1
      else if write then s.outWrite m (a - outboundBase) (leBytes n v)
      else s.outRead m (a - outboundBase) n
    | _ => s.busError m a n write 1

/-! ### PCIe functions (R26, R399, R401) -/

/-- The ring registers at an address belong to a ring that an enabled doorbell slot of virtual function f shows. -/
def State.ringView (s : State) (f a : Nat) : Bool :=
  match winOf a with
  | some (9, off) =>
    (match ringOf off with
     | some (k, n, _) =>
       let page := match k with | 0 => n | 1 => 256 + n | 4 => 512 + n | _ => 640 + n
       (List.range 32).any fun j =>
         s.regBit (R.HBR_VF_DBMAP f j) 31 && s.regFld (R.HBR_VF_DBMAP f j) 9 0 == page
     | none => false)
  | _ => false

/-- What a virtual function reaches through its BAR0: its host mailbox. -/
def vfMailbox (f a : Nat) : Bool := 0x10090400 + f * 0x100 ≤ a && a < 0x10090490 + f * 0x100

/-- A PCIe function reaches an address through its BARs, but for the BARs that have commands of their own. -/
def State.fnReach (s : State) (m : Master) (a : Nat) : Bool :=
  if m.origin = 0x20 then
    match regionOf a with
    | .regs => true
    | .cells => true
    | .stamps => true
    | .doorbell => a < 0x20290000
    | _ => false
  else vfMailbox (m.origin - 0x20) a || s.ringView (m.origin - 0x20) a

/-! ### Accesses -/

/-- An access of n bytes at a fabric address, v being the bytes written, least significant first; `bad` says that an NVM write
it starts fails. -/
def State.access (s : State) (m : Master) (a n : Nat) (write : Bool) (v : Nat) (bad : Bool := false) : State :=
  if debugClosed s m || (inbound m && !s.fnReach m a) then s.busError m a n write 1
  else if write && inbound m && m.origin != 0x20 && s.ringView (m.origin - 0x20) a then s.windowDeny m a v
  else
    match regionOf a with
    | .regs => s.regAccess m a n write v bad
    | .bits => s.aliasAccess m a n write v
    | .cells => s.cellAccess m a n write v
    | .stamps => s.cellAccess m a n write v
    | .doorbell => s.doorbellAccess m a n write v
    | .unmapped => s.busError m a n write 1
    | _ => s.memAccess m a n write v

/-- A 4-byte write of a register, as a command of a master. -/
def State.put (s : State) (m : Master) (a : Nat) (v : Nat) : State := (s.access m a 4 true v).settle

end Sys2Proof.Machine
end

