-- ==== Sys2Proof/Machine/RegCmds.lean ====
section
/-! DEFINITION. Commands that a master gives by an access: register writes and reads, and the registers whose write has a row
of its own (03_registers_and_audit.md R8, R22, R23, R76, R81-R90 and the rules of each chapter). -/

namespace Sys2Proof.Machine

/-! ### Shared forms -/

/-- A value with bit b set. -/
def withBit (v b : Nat) : Nat := (putBit (word v) b true).toNat

/-- A value with bit b clear. -/
def sansBit (v b : Nat) : Nat := (putBit (word v) b false).toNat

/-- A 4-byte write, where the command names a register that exists. -/
def State.putIf (s : State) (ok : Bool) (m : Master) (a v : Nat) : State := if ok then s.put m a v else s

/-- The domain whose BLOCK reset holds an access (R23). -/
def holdDomain (a : Nat) : Nat :=
  match regionOf a with
  | .regs => match winOf a with | some (w, _) => domainOf w | none => 0
  | .bits => match winOf (0x10000000 + (a - 0x30000000) / 128 * 4) with | some (w, _) => domainOf w | none => 0
  | .doorbell => 3
  | _ => 15

/-- The first held access whose block has left reset completes (R23, R88). -/
def State.releaseHeld (s : State) : State :=
  match s.sys.held.findIdx? (fun h => !inReset s (holdDomain h.addr)) with
  | none => s
  | some i =>
    match s.sys.held[i]? with
    | none => s
    | some h =>
      ({ s with sys := { s.sys with held := s.sys.held.eraseIdx i } }.access h.m h.addr h.size h.write h.value).settle

/-- Place of a waiting change in the arbiter: origin, then window (R90). [DEDUCED, assumption 23] -/
def WaitingWrite.rank (x : WaitingWrite) : Nat :=
  x.m.origin * 256 + match winOf x.addr with | some (w, _) => w | none => 0

/-- The waiting change that the arbiter takes first. [DEDUCED, assumption 23] -/
def firstWaiting : List WaitingWrite → Option WaitingWrite
  | [] => none
  | x :: xs =>
    match firstWaiting xs with
    | some y => if y.rank < x.rank then some y else some x
    | none => some x

/-- A waiting change completes once the pending buffer has room (R90). [DEDUCED, assumption 23] -/
def State.admitWaiting (s : State) : State :=
  if !s.auditReady then s
  else
    match firstWaiting s.aud.waiting with
    | none => s
    | some x =>
      ({ s with aud := { s.aud with waiting := s.aud.waiting.erase x } }.access x.m x.addr 4 true x.value.toNat).settle

/-- The ring number exists (R360); kind 2 is an order ring, a transmit ring. -/
def ringNumOk (k n : Nat) : Bool := k ≤ 4 && n < (match k with | 3 => 16 | 4 => 128 | _ => 256)

/-- A cipher job: its eight words, then GO (R487). -/
def State.putJob (s : State) (m : Master) (op slot dst len src out aux : Nat) : State :=
  let ws := [op % 256 + slot % 512 * 256 + dst % 512 * 131072, len, src, src / 2 ^ 32 % 65536, out, out / 2 ^ 32 % 65536,
    aux, aux / 2 ^ 32 % 65536]
  let s := (List.range 8).foldl (fun s i => s.put m (R.CIP_JOB i) (ws.getD i 0 % 2 ^ 32)) s
  s.put m R.CIP_JOB_GO 1

/-- A vault command (R497). -/
def State.putVault (s : State) (m : Master) (op slot id : Nat) (bad : Bool) : State :=
  (s.access m R.KEY_VLT_CMD 4 true (2 ^ 31 + op * 2 ^ 24 + slot % 512 * 4096 + id % 2048) bad).settle

/-- An update command: its OP and GO (R584). -/
def State.putUpd (s : State) (m : Master) (op v : Nat) : State :=
  s.put m R.UPD_CMD (putFld (withBit v 31 |> word) 7 0 op).toNat

/-! ### Accesses -/

/-- REGISTER_WRITE (R8). -/
def execRegisterWrite (m : Master) (a size v : Nat) (s : State) : Host.Outcome State Fault Refusal :=
  .next ((s.access m a size true v).settle)

/-- RC_READ (R8). -/
def execRcRead (m : Master) (a size : Nat) (s : State) : Host.Outcome State Fault Refusal :=
  .next ((s.access m a size false 0).settle)

/-- BIT_ALIAS_WRITE (R81). -/
def execBitAliasWrite (m : Master) (a v : Nat) (s : State) : Host.Outcome State Fault Refusal :=
  .next (if regionOf a = .bits then s.put m a v else s)

/-- UNMAPPED_ACCESS (R22). -/
def execUnmappedAccess (m : Master) (a size : Nat) (write : Bool) (s : State) : Host.Outcome State Fault Refusal :=
  .next (if regionOf a = .unmapped ∨ (regionOf a = .regs ∧ (winOf a).isNone) then s.access m a size write 0 else s)

/-- GATED_WINDOW_ACCESS (R23). -/
def execGatedWindowAccess (m : Master) (a size : Nat) (write : Bool) (v : Nat) (s : State) : Host.Outcome State Fault Refusal :=
  .next (if (regionOf a = .regs ∨ regionOf a = .bits) ∧ !powered s (holdDomain a) then s.access m a size write v else s)

/-- HELD_ACCESS_RELEASE (R23). -/
def execHeldAccessRelease (s : State) : Host.Outcome State Fault Refusal :=
  .next (s.releaseHeld)

/-- ACCESS_SIZE_ERROR (R86). -/
def execAccessSizeError (m : Master) (a : Nat) (write : Bool) (bytes : Bytes) (s : State) : Host.Outcome State Fault Refusal :=
  .next (if sizeOk a bytes.length write then s else s.access m a bytes.length write (leVal bytes))

/-- PARTITION_DRAM_DENY (R36). -/
def execPartitionDramDeny (m : Master) (a : Nat) (s : State) : Host.Outcome State Fault Refusal :=
  .next (if 0 < partitionOf s m ∧ (regionOf a = .spill ∨ (regionOf a = .dram ∧ !s.inPartition m a 1)) then s.access m a 1 false 0 else s)

/-- BLK_LOCK_SET (R76). -/
def execBlkLockSet (m : Master) (w v : Nat) (s : State) : Host.Outcome State Fault Refusal :=
  .next (s.putIf (winOk w) m (winBase w + 0x20) v)

/-- MAILBOX_REQUEST (R84). -/
def execMailboxRequest (m : Master) (w v : Nat) (s : State) : Host.Outcome State Fault Refusal :=
  .next (s.putIf (winOk w) m (winBase w + 0x30) (sansBit v 31))

/-- MAILBOX_KEEP_PART (R84). -/
def execMailboxKeepPart (m : Master) (w v : Nat) (s : State) : Host.Outcome State Fault Refusal :=
  .next (s.putIf (winOk w) m (winBase w + 0x30) (withBit v 31))

/-- MAILBOX_SNAPSHOT_VALID (R84). -/
def execMailboxSnapshotValid (w : Nat) (s : State) : Host.Outcome State Fault Refusal :=
  .next (if winOk w && alive s (domainOf w) then s.mboxValid w else s)

/-- IRQ_ROUTE_REWRITE (R43). -/
def execIrqRouteRewrite (m : Master) (n v : Nat) (s : State) : Host.Outcome State Fault Refusal :=
  .next (s.putIf (n < 512) m (R.SYS_IRQ_ROUTE n) v)

/-! ### Policy engine and audit log -/

/-- FOX_VSET_WRITE (R57). -/
def execFoxVsetWrite (m : Master) (n v : Nat) (s : State) : Host.Outcome State Fault Refusal :=
  .next (s.putIf (within 1 15 n) m (R.FOX_VSET_PD n) v)

/-- FOX_RULE_WRITE (R61). -/
def execFoxRuleWrite (m : Master) (n ix v : Nat) (s : State) : Host.Outcome State Fault Refusal :=
  .next (s.putIf (n < 128 && ix < 4) m (R.FOX_RULE n ix) v)

/-- FOX_FGRP_WRITE (R65). -/
def execFoxFgrpWrite (m : Master) (n v : Nat) (s : State) : Host.Outcome State Fault Refusal :=
  .next (s.putIf (n < 32) m (R.FOX_FGRP n) v)

/-- AUDIT_PENDING_ADMIT (R90). -/
def execAuditPendingAdmit (s : State) : Host.Outcome State Fault Refusal :=
  .next (s.admitWaiting)

/-- AUD_EXP_ACK_WRITE (R96). -/
def execAudExpAckWrite (m : Master) (v : Nat) (s : State) : Host.Outcome State Fault Refusal :=
  .next (s.put m R.AUD_EXP_ACK v)

/-- AUD_CTRL_WRITE (R100). -/
def execAudCtrlWrite (m : Master) (v : Nat) (s : State) : Host.Outcome State Fault Refusal :=
  .next (s.put m R.AUD_CTRL v)

/-! ### Queues and switch core -/

/-- QUEUE_THR_CLEAR (R118). -/
def execQueueThrClear (m : Master) (q : Nat) (s : State) : Host.Outcome State Fault Refusal :=
  .next (s.putIf (queueOk q) m (R.QP_STATUS q) 4)

/-- QUEUE_THRESH_WRITE (R123). -/
def execQueueThreshWrite (m : Master) (q v : Nat) (s : State) : Host.Outcome State Fault Refusal :=
  .next (s.putIf (queueOk q) m (R.QP_THRESH q) v)

/-- QUEUE_FLUSH (R121). -/
def execQueueFlush (m : Master) (q v : Nat) (s : State) : Host.Outcome State Fault Refusal :=
  .next (s.putIf (queueOk q) m (R.QP_FLUSH q) v)

/-- QUEUE_POP (R126). -/
def execQueuePop (m : Master) (q : Nat) (s : State) : Host.Outcome State Fault Refusal :=
  .next (s.putIf (queueOk q) m (R.QP_POP q) 1)

/-- QUEUE_POP_CANCEL (R126). -/
def execQueuePopCancel (m : Master) (q : Nat) (s : State) : Host.Outcome State Fault Refusal :=
  .next (s.putIf (queueOk q) m (R.QP_POP q) 2)

/-- QMG_SPILL_WRITE (R113). -/
def execQmgSpillWrite (m : Master) (slot : Nat) (region : Bool) (v : Nat) (s : State) : Host.Outcome State Fault Refusal :=
  .next (s.putIf (slot < 8) m (if region then R.QMG_SPILL_REGION slot else R.QMG_SPILL_BIND slot) v)

/-- SHAPER_IDLE_WRITE (R148). -/
def execShaperIdleWrite (m : Master) (q v : Nat) (s : State) : Host.Outcome State Fault Refusal :=
  .next (s.putIf (q < 1024) m (R.SWC_QCBS q) v)

/-- GCL_CHANGE (R150). -/
def execGclChange (m : Master) (p v : Nat) (s : State) : Host.Outcome State Fault Refusal :=
  .next (s.putIf (p < 29) m (R.SWC_GCL_CTRL p) (withBit (sansBit v 2) 1))

/-- GCL_CANCEL (R150). -/
def execGclCancel (m : Master) (p v : Nat) (s : State) : Host.Outcome State Fault Refusal :=
  .next (s.putIf (p < 29) m (R.SWC_GCL_CTRL p) (withBit (sansBit v 1) 2))

/-- PORT_DISABLE (R160). -/
def execPortDisable (m : Master) (p v : Nat) (s : State) : Host.Outcome State Fault Refusal :=
  .next (s.putIf (portUsed p) m (R.SWC_PCTL p) (sansBit (sansBit v 0) 1))

/-- PORT_PURGE (R160). -/
def execPortPurge (m : Master) (p v : Nat) (s : State) : Host.Outcome State Fault Refusal :=
  .next (s.putIf (portUsed p) m (R.SWC_PCTL p) (withBit (sansBit v 0) 1))

/-- PORT_ENABLE (R160). -/
def execPortEnable (m : Master) (p v : Nat) (s : State) : Host.Outcome State Fault Refusal :=
  .next (s.putIf (portUsed p) m (R.SWC_PCTL p) (withBit v 0))

/-! ### Tables, buses, cells, images -/

/-- HCB_COMMIT (R179). -/
def execHcbCommit (m : Master) (a v : Nat) (s : State) : Host.Outcome State Fault Refusal :=
  .next (s.putIf ((hcbTable a).isSome && a % 16 == 8) m a (withBit v 2))

/-- HCB_SHADOW_EN_WRITE (R179). -/
def execHcbShadowEnWrite (m : Master) (a v : Nat) (s : State) : Host.Outcome State Fault Refusal :=
  .next (s.putIf ((hcbTable a).isSome && a % 16 == 8) m a (sansBit v 2))

/-- CAN_RECOVER (R213). -/
def execCanRecover (m : Master) (n v : Nat) (s : State) : Host.Outcome State Fault Refusal :=
  .next (s.putIf (n < 24) m (R.CAN_CMD n) (withBit v 0))

/-- CAN_ENABLE (R213). [DEDUCED, assumption 56] -/
def execCanEnable (m : Master) (n v : Nat) (s : State) : Host.Outcome State Fault Refusal :=
  .next (s.putIf (n < 24) m (R.CAN_CFG n) (withBit v 0))

/-- CAN_DISABLE (R237). [DEDUCED, assumption 56] -/
def execCanDisable (m : Master) (n v : Nat) (s : State) : Host.Outcome State Fault Refusal :=
  .next (s.putIf (n < 24) m (R.CAN_CFG n) (sansBit v 0))

/-- LIN_SCHEDULE_SWITCH (R230). -/
def execLinScheduleSwitch (m : Master) (n v : Nat) (s : State) : Host.Outcome State Fault Refusal :=
  .next (s.putIf (n < 8) m (R.LIN_SCHED_CTRL n) v)

/-- LIN_WAKE_SEND (R233). -/
def execLinWakeSend (m : Master) (n v : Nat) (s : State) : Host.Outcome State Fault Refusal :=
  .next (s.putIf (n < 8) m (R.LIN_CMD n) (withBit v 0))

/-- CELL_WRITE (R258). -/
def execCellWrite (m : Master) (cell : Nat) (age : Bool) (ws : List Word) (s : State) : Host.Outcome State Fault Refusal :=
  .next (if cell < 65536 then (s.access m (0x11000000 + (if age then 0x40000 else 0) + cell * 4) (4 * ws.length) true (leVal (ofWords ws))).settle else s)

/-- SIG_LOAD (R283). -/
def execSigLoad (m : Master) (v : Nat) (s : State) : Host.Outcome State Fault Refusal :=
  .next (s.put m R.SIG_LD_CTRL (withBit (sansBit v 8) 31))

/-- SIG_LOAD_CLEAR (R283). -/
def execSigLoadClear (m : Master) (v : Nat) (s : State) : Host.Outcome State Fault Refusal :=
  .next (s.put m R.SIG_LD_CTRL (withBit v 8))

/-- RI_ARM (R275). -/
def execRiArm (m : Master) (v : Nat) (s : State) : Host.Outcome State Fault Refusal :=
  .next (s.put m R.SIG_RI_ARM (withBit v 0))

/-- EPOCH_SWITCH_REQUEST (R276). -/
def execEpochSwitchRequest (m : Master) (v : Nat) (s : State) : Host.Outcome State Fault Refusal :=
  .next (s.put m R.SIG_EPOCH_CTRL (withBit (sansBit v 1) 0))

/-- EPOCH_SWITCH_CANCEL (R276). -/
def execEpochSwitchCancel (m : Master) (v : Nat) (s : State) : Host.Outcome State Fault Refusal :=
  .next (s.put m R.SIG_EPOCH_CTRL (withBit (sansBit v 0) 1))

/-! ### Time and placement -/

/-- OFS_IN_WRITE (R300). -/
def execOfsInWrite (m : Master) (n v : Nat) (s : State) : Host.Outcome State Fault Refusal :=
  .next (s.putIf (n < 3) m (R.TIM_TB_OFS_IN n) v)

/-- TB_STEP (R302). -/
def execTbStep (m : Master) (n : Nat) (s : State) : Host.Outcome State Fault Refusal :=
  .next (s.putIf (n < 3) m (R.TIM_TB_CMD n) 1)

/-- TB_HOLD (R304). -/
def execTbHold (m : Master) (n : Nat) (s : State) : Host.Outcome State Fault Refusal :=
  .next (s.putIf (n < 3) m (R.TIM_TB_CMD n) 2)

/-- TB_RELEASE (R306). -/
def execTbRelease (m : Master) (n : Nat) (s : State) : Host.Outcome State Fault Refusal :=
  .next (s.putIf (n < 3) m (R.TIM_TB_CMD n) 4)

/-- TB_CLR_UNRES (R306). -/
def execTbClrUnres (m : Master) (n : Nat) (s : State) : Host.Outcome State Fault Refusal :=
  .next (s.putIf (n < 3) m (R.TIM_TB_CMD n) 8)

/-- SLAVE_PORT_WRITE (R298). -/
def execSlavePortWrite (m : Master) (n v : Nat) (s : State) : Host.Outcome State Fault Refusal :=
  .next (s.putIf (n < 3) m (R.TIM_TB_CFG n) v)

/-- PLE_MW_GO (R331). -/
def execPleMwGo (m : Master) (v : Nat) (s : State) : Host.Outcome State Fault Refusal :=
  .next (s.put m R.PLE_MW_GO (withBit v 0))

/-- PLE_ENABLE (R332). -/
def execPleEnable (m : Master) (v : Nat) (s : State) : Host.Outcome State Fault Refusal :=
  .next (s.put m R.PLE_CTRL (withBit v 0))

/-- PLE_DISABLE (R352). -/
def execPleDisable (m : Master) (v : Nat) (s : State) : Host.Outcome State Fault Refusal :=
  .next (s.put m R.PLE_CTRL (sansBit v 0))

/-- PLE_LOAD (R357). -/
def execPleLoad (m : Master) (v : Nat) (s : State) : Host.Outcome State Fault Refusal :=
  .next (s.put m R.PLE_LD_CTRL (withBit (sansBit v 8) 31))

/-- PLE_LOAD_CLEAR (R357). -/
def execPleLoadClear (m : Master) (v : Nat) (s : State) : Host.Outcome State Fault Refusal :=
  .next (s.put m R.PLE_LD_CTRL (withBit v 8))

/-! ### Rings, host mailboxes, bridge -/

/-- RING_ENABLE (R362). -/
def execRingEnable (m : Master) (k n v : Nat) (s : State) : Host.Outcome State Fault Refusal :=
  .next (s.putIf (ringNumOk k n && fld (word v) 16 0 != 0) m (anyRingAt k n + 8) v)

/-- RING_DISABLE (R390). -/
def execRingDisable (m : Master) (k n v : Nat) (s : State) : Host.Outcome State Fault Refusal :=
  .next (s.putIf (ringNumOk k n) m (anyRingAt k n + 8) (putFld (word v) 16 0 0).toNat)

/-- HMB_IN_POST (R386). -/
def execHmbInPost (m : Master) (f v : Nat) (s : State) : Host.Outcome State Fault Refusal :=
  .next (s.putIf (f < 8) m (R.HMB_DB f) (withBit v 0))

/-- HMB_OUT_POST (R386). -/
def execHmbOutPost (m : Master) (f v : Nat) (s : State) : Host.Outcome State Fault Refusal :=
  .next (s.putIf (f < 8) m (R.HMB_FWDB f) (withBit v 1))

/-- HMB_IN_TAKEN (R386). -/
def execHmbInTaken (m : Master) (f v : Nat) (s : State) : Host.Outcome State Fault Refusal :=
  .next (s.putIf (f < 8) m (R.HMB_FWDB f) (withBit v 0))

/-- HMB_OUT_TAKEN (R386). -/
def execHmbOutTaken (m : Master) (f v : Nat) (s : State) : Host.Outcome State Fault Refusal :=
  .next (s.putIf (f < 8) m (R.HMB_DB f) (withBit v 1))

/-- HBR_ERR_ACK (R410). -/
def execHbrErrAck (m : Master) (v : Nat) (s : State) : Host.Outcome State Fault Refusal :=
  .next (s.put m R.HBR_ERR_ACK (withBit v 0))

/-! ### Guards, faults, alive signal -/

/-- GRD_LOAD (R457). -/
def execGrdLoad (m : Master) (v : Nat) (s : State) : Host.Outcome State Fault Refusal :=
  .next (s.put m R.GRD_LD_CTRL (withBit (sansBit v 8) 31))

/-- GRD_LOAD_CLEAR (R457). -/
def execGrdLoadClear (m : Master) (v : Nat) (s : State) : Host.Outcome State Fault Refusal :=
  .next (s.put m R.GRD_LD_CTRL (withBit v 8))

/-- GRD_APPLY (R431). -/
def execGrdApply (m : Master) (v : Nat) (s : State) : Host.Outcome State Fault Refusal :=
  .next (s.put m R.GRD_APPLY (withBit v 0))

/-- GRD_APPLY_FAIL (R433). -/
def execGrdApplyFail (m : Master) (v : Nat) (s : State) : Host.Outcome State Fault Refusal :=
  .next (s.put m R.GRD_APPLY (withBit (sansBit v 0) 1))

/-- FAULT_FORCE (R444). -/
def execFaultForce (m : Master) (w v : Nat) (s : State) : Host.Outcome State Fault Refusal :=
  .next (s.putIf (winOk w) m (fltReg w 4) v)

/-- FAULT_ACK (R443). -/
def execFaultAck (m : Master) (w v : Nat) (s : State) : Host.Outcome State Fault Refusal :=
  .next (s.putIf (winOk w) m (fltReg w 0x40) (withBit v 0))

/-- FAULT_STATUS_CLEAR (R439). -/
def execFaultStatusClear (m : Master) (w v : Nat) (s : State) : Host.Outcome State Fault Refusal :=
  .next (s.putIf (winOk w) m (fltReg w 0) v)

/-- ALIVE_KICK (R449). -/
def execAliveKick (m : Master) (v : Nat) (s : State) : Host.Outcome State Fault Refusal :=
  .next (s.put m R.ALV_KICK v)

/-- ALIVE_STOP_CMD (R450). -/
def execAliveStopCmd (m : Master) (v : Nat) (s : State) : Host.Outcome State Fault Refusal :=
  .next (s.put m R.ALV_CMD (withBit v 0))

/-- ALIVE_RESTART (R451). -/
def execAliveRestart (m : Master) (v : Nat) (s : State) : Host.Outcome State Fault Refusal :=
  .next (s.put m R.ALV_RESTART v)

/-! ### Ciphers and keys -/

/-- SLOT_LOAD (R470). -/
def execSlotLoad (m : Master) (n : Nat) (s : State) : Host.Outcome State Fault Refusal :=
  .next ((s.put m R.CIP_SLOT_SEL n).put m R.CIP_SLOT_CMD 0x80000001)

/-- SLOT_REVOKE (R473). -/
def execSlotRevoke (m : Master) (n : Nat) (s : State) : Host.Outcome State Fault Refusal :=
  .next ((s.put m R.CIP_SLOT_SEL n).put m R.CIP_SLOT_CMD 0x80000002)

/-- JOB_GCM_ENC (R487). -/
def execJobGcmEnc (m : Master) (slot dst len src out aux : Nat) (s : State) : Host.Outcome State Fault Refusal :=
  .next (s.putJob m 1 slot dst len src out aux)

/-- JOB_GCM_DEC (R487). -/
def execJobGcmDec (m : Master) (slot dst len src out aux : Nat) (s : State) : Host.Outcome State Fault Refusal :=
  .next (s.putJob m 2 slot dst len src out aux)

/-- JOB_CMAC (R487). -/
def execJobCmac (m : Master) (slot dst len src out aux : Nat) (s : State) : Host.Outcome State Fault Refusal :=
  .next (s.putJob m 3 slot dst len src out aux)

/-- JOB_CTR (R487). -/
def execJobCtr (m : Master) (slot dst len src out aux : Nat) (s : State) : Host.Outcome State Fault Refusal :=
  .next (s.putJob m 4 slot dst len src out aux)

/-- JOB_KDF_CHILD (R487). -/
def execJobKdfChild (m : Master) (slot dst len src out aux : Nat) (s : State) : Host.Outcome State Fault Refusal :=
  .next (s.putJob m 5 slot dst len src out aux)

/-- JOB_KDF_8021X (R487). -/
def execJobKdf8021x (m : Master) (slot dst len src out aux : Nat) (s : State) : Host.Outcome State Fault Refusal :=
  .next (s.putJob m 6 slot dst len src out aux)

/-- JOB_UNWRAP (R487). -/
def execJobUnwrap (m : Master) (slot dst len src out aux : Nat) (s : State) : Host.Outcome State Fault Refusal :=
  .next (s.putJob m 7 slot dst len src out aux)

/-- JOB_DERIVE_ROOT (R487). -/
def execJobDeriveRoot (m : Master) (slot dst len src out aux : Nat) (s : State) : Host.Outcome State Fault Refusal :=
  .next (s.putJob m 8 slot dst len src out aux)

/-- CIP_ALARM_ACK (R477). -/
def execCipAlarmAck (m : Master) (v : Nat) (s : State) : Host.Outcome State Fault Refusal :=
  .next (s.put m R.CIP_ALARM_ACK (withBit v 0))

/-- SA_INSTALL (R481). -/
def execSaInstall (m : Master) (n : Nat) (s : State) : Host.Outcome State Fault Refusal :=
  .next ((s.put m R.CIP_SA_SEL n).put m R.CIP_SA_CMD 0x80000001)

/-- SA_RETIRE (R481). -/
def execSaRetire (m : Master) (n : Nat) (s : State) : Host.Outcome State Fault Refusal :=
  .next ((s.put m R.CIP_SA_SEL n).put m R.CIP_SA_CMD 0x80000002)

/-- SA_READ (R481). -/
def execSaRead (m : Master) (n : Nat) (s : State) : Host.Outcome State Fault Refusal :=
  .next ((s.put m R.CIP_SA_SEL n).put m R.CIP_SA_CMD 0x80000003)

/-- FV_SET (R486). -/
def execFvSet (m : Master) (n : Nat) (s : State) : Host.Outcome State Fault Refusal :=
  .next ((s.put m R.CIP_FV_SEL n).put m R.CIP_FV_CMD 1)

/-- LC_REQUEST (R492). -/
def execLcRequest (m : Master) (v : Nat) (s : State) : Host.Outcome State Fault Refusal :=
  .next (s.put m R.KEY_LC_REQ (withBit v 31))

/-- VAULT_STORE (R497). -/
def execVaultStore (m : Master) (slot id : Nat) (bad : Bool) (s : State) : Host.Outcome State Fault Refusal :=
  .next (s.putVault m 1 slot id bad)

/-- VAULT_LOAD (R497). -/
def execVaultLoad (m : Master) (slot id : Nat) (s : State) : Host.Outcome State Fault Refusal :=
  .next (s.putVault m 2 slot id false)

/-- VAULT_DELETE (R497). -/
def execVaultDelete (m : Master) (id : Nat) (bad : Bool) (s : State) : Host.Outcome State Fault Refusal :=
  .next (s.putVault m 3 0 id bad)

/-- ATTEST_REQUEST (R499). -/
def execAttestRequest (m : Master) (v : Nat) (s : State) : Host.Outcome State Fault Refusal :=
  .next (s.put m R.KEY_ATT_CTRL (withBit v 31))

/-- RNG_READ (R508). -/
def execRngRead (m : Master) (s : State) : Host.Outcome State Fault Refusal :=
  .next (s.access m R.KEY_RNG 4 false 0)

/-! ### Ledger, power, update -/

/-- REPLAY_GO (R521). -/
def execReplayGo (m : Master) (v : Nat) (s : State) : Host.Outcome State Fault Refusal :=
  .next (s.put m R.LDG_CMD (withBit v 0))

/-- DISCARD_SET (R529). -/
def execDiscardSet (m : Master) (v : Nat) (s : State) : Host.Outcome State Fault Refusal :=
  .next (s.put m R.LDG_CMD (withBit v 1))

/-- DOMAIN_GATE (R532). -/
def execDomainGate (m : Master) (v : Nat) (s : State) : Host.Outcome State Fault Refusal :=
  .next (s.put m R.PWR_PD_REQ (s.reg R.PWR_PD_REQ ||| word v).toNat)

/-- DOMAIN_WAKE (R532). -/
def execDomainWake (m : Master) (v : Nat) (s : State) : Host.Outcome State Fault Refusal :=
  .next (s.put m R.PWR_PD_REQ (s.reg R.PWR_PD_REQ &&& ~~~ word v).toNat)

/-- STANDBY_REQUEST (R537). -/
def execStandbyRequest (m : Master) (s : State) : Host.Outcome State Fault Refusal :=
  .next (s.put m R.PWR_STATE_REQ 0x80000003)

/-- SLEEP_REQUEST (R537). -/
def execSleepRequest (m : Master) (s : State) : Host.Outcome State Fault Refusal :=
  .next (s.put m R.PWR_STATE_REQ 0x80000004)

/-- PWR_BLK_RST (R543). -/
def execPwrBlkRst (m : Master) (v : Nat) (s : State) : Host.Outcome State Fault Refusal :=
  .next (s.put m R.PWR_BLK_RST v)

/-- PWR_CORE_RST (R543). [DESIGN CHOICE, assumption 13] -/
def execPwrCoreRst (m : Master) (v : Nat) (s : State) : Host.Outcome State Fault Refusal :=
  .next (s.put m R.PWR_CORE_RST v)

/-- PWR_CHIP_RST (R546). -/
def execPwrChipRst (m : Master) (v : Nat) (s : State) : Host.Outcome State Fault Refusal :=
  .next (s.put m R.PWR_CHIP_RST v)

/-- UPD_WRITE_BLOCK (R584). -/
def execUpdWriteBlock (m : Master) (v : Nat) (s : State) : Host.Outcome State Fault Refusal :=
  .next (s.putUpd m 1 v)

/-- UPD_ERASE (R584). -/
def execUpdErase (m : Master) (v : Nat) (s : State) : Host.Outcome State Fault Refusal :=
  .next (s.putUpd m 2 v)

/-- UPD_ACTIVATE (R589). -/
def execUpdActivate (m : Master) (v : Nat) (s : State) : Host.Outcome State Fault Refusal :=
  .next (s.putUpd m 3 v)

/-- UPD_CONFIRM (R590). -/
def execUpdConfirm (m : Master) (v : Nat) (s : State) : Host.Outcome State Fault Refusal :=
  .next (s.putUpd m 4 v)

/-- UPD_FAIL_TRIAL (R590). -/
def execUpdFailTrial (m : Master) (v : Nat) (s : State) : Host.Outcome State Fault Refusal :=
  .next (s.putUpd m 5 v)

/-- UPD_ROUTE_TRY (R597). -/
def execUpdRouteTry (m : Master) (v : Nat) (s : State) : Host.Outcome State Fault Refusal :=
  .next (s.putUpd m 6 v)

/-- UPD_ROUTE_COMMIT (R597). -/
def execUpdRouteCommit (m : Master) (v : Nat) (s : State) : Host.Outcome State Fault Refusal :=
  .next (s.putUpd m 7 v)

/-- UPD_GUARD_COMMIT (R598). -/
def execUpdGuardCommit (m : Master) (v : Nat) (s : State) : Host.Outcome State Fault Refusal :=
  .next (s.putUpd m 8 v)

/-- UPD_RECOVER (R595). -/
def execUpdRecover (m : Master) (v : Nat) (s : State) : Host.Outcome State Fault Refusal :=
  .next (s.putUpd m 9 v)

/-- UPD_INPLACE (R593). -/
def execUpdInplace (m : Master) (v : Nat) (s : State) : Host.Outcome State Fault Refusal :=
  .next (s.putUpd m 10 v)

/-- UPD_SET_BLEVEL (R608). -/
def execUpdSetBlevel (m : Master) (v : Nat) (s : State) : Host.Outcome State Fault Refusal :=
  .next (s.putUpd m 11 v)

end Sys2Proof.Machine
end

