-- ==== Sys2Proof/Machine/SigCmds.lean ====
section
/-! DEFINITION. Commands of the signal plane that time or the plane itself brings about (08_signal_plane.md R248, R264,
R265, R283). -/

namespace Sys2Proof.Machine

/-- A pack rule's periodic emission is due: once in each TB3 millisecond at its phase, and after a switch from the next
millisecond on (R264, R276). -/
def State.periodicDue (s : State) (n : Nat) : Bool :=
  let b := s.sig.act
  let period := fld (b.wordOf 3 n 1) 15 0
  let phase := fld (b.wordOf 3 n 1) 31 16
  s.regBit R.SIG_CTRL 1 && alive s 15 && n < 8192 && bitOf (b.wordOf 3 n 0) 31 && period != 0 &&
    s.nowMs % period == phase % period && kvGet? s.sig.lastMs n != some s.nowMs && s.sig.epochMs != some s.nowMs

/-- The periodic emission of a pack rule, which also serves a deferred trigger. -/
def State.periodicEmit (s : State) (n : Nat) : State :=
  (s.setSig { s.sig with lastMs := kvSet s.sig.lastMs n s.nowMs }).emitRule n

/-- A deferred trigger's gap has ended (R265). -/
def State.deferredDue (s : State) (n : Nat) : Bool :=
  s.sig.deferred.contains n &&
  (match kvGet? s.sig.lastEmit n with
   | some t => decide (fld (s.sig.act.wordOf 3 n 2) 15 0 * 100000 ≤ s.now - t)
   | none => true)

/-- STALE_SWEEP (R248). -/
def execStaleSweep (s : State) : Host.Outcome State Fault Refusal := .next s.staleSweep

/-- PACK_PERIODIC_EMIT (R264). -/
def execPackPeriodicEmit (n : Nat) (s : State) : Host.Outcome State Fault Refusal :=
  .next (if s.periodicDue n then (s.periodicEmit n).settle else s)

/-- PACK_DEFERRED_EMIT (R265). -/
def execPackDeferredEmit (n : Nat) (s : State) : Host.Outcome State Fault Refusal :=
  .next (if s.deferredDue n then (s.emitRule n).settle else s)

/-- SIG_LOAD_DONE (R283). -/
def execSigLoadDone (s : State) : Host.Outcome State Fault Refusal :=
  .next (if alive s 15 then s.sigLoadDone else s)

end Sys2Proof.Machine
end

