-- ==== Sys2Proof/Machine/Dispatch.lean ====
section
/-! DEFINITION. One arm per command, each one direct call of its meaning. -/

namespace Sys2Proof.Machine

/-- The effect of a command on everything but the queue of waiting commands. -/
def exec (i : Instr) (s : State) : Host.Outcome State Fault Refusal :=
  match i with
  | .registerWrite m a size v => Sys2Proof.Machine.execRegisterWrite m a size v s
  | .rcRead m a size => Sys2Proof.Machine.execRcRead m a size s
  | .bitAliasWrite m a v => Sys2Proof.Machine.execBitAliasWrite m a v s
  | .unmappedAccess m a size write => Sys2Proof.Machine.execUnmappedAccess m a size write s
  | .gatedWindowAccess m a size write v => Sys2Proof.Machine.execGatedWindowAccess m a size write v s
  | .heldAccessRelease => Sys2Proof.Machine.execHeldAccessRelease s
  | .accessSizeError m a write bytes => Sys2Proof.Machine.execAccessSizeError m a write bytes s
  | .partitionDramDeny m a => Sys2Proof.Machine.execPartitionDramDeny m a s
  | .blkLockSet m w v => Sys2Proof.Machine.execBlkLockSet m w v s
  | .mailboxRequest m w v => Sys2Proof.Machine.execMailboxRequest m w v s
  | .mailboxKeepPart m w v => Sys2Proof.Machine.execMailboxKeepPart m w v s
  | .mailboxSnapshotValid w => Sys2Proof.Machine.execMailboxSnapshotValid w s
  | .irqRouteRewrite m n v => Sys2Proof.Machine.execIrqRouteRewrite m n v s
  | .paceLoopTick => Sys2Proof.Machine.execPaceLoopTick s
  | .paceLost n => Sys2Proof.Machine.execPaceLost n s
  | .sentinelFail n => Sys2Proof.Machine.execSentinelFail n s
  | .foxVsetWrite m n v => Sys2Proof.Machine.execFoxVsetWrite m n v s
  | .foxMeasUpdate ix v => Sys2Proof.Machine.execFoxMeasUpdate ix v s
  | .foxRuleTick => Sys2Proof.Machine.execFoxRuleTick s
  | .foxRuleWrite m n ix v => Sys2Proof.Machine.execFoxRuleWrite m n ix v s
  | .foxFgrpWrite m n v => Sys2Proof.Machine.execFoxFgrpWrite m n v s
  | .batteryRunEnter => Sys2Proof.Machine.execBatteryRunEnter s
  | .battShed => Sys2Proof.Machine.execBattShed s
  | .batteryRunExit => Sys2Proof.Machine.execBatteryRunExit s
  | .vsetAudit n => Sys2Proof.Machine.execVsetAudit n s
  | .auditPendingAdmit => Sys2Proof.Machine.execAuditPendingAdmit s
  | .auditDrain ok => Sys2Proof.Machine.execAuditDrain ok s
  | .auditExportPush => Sys2Proof.Machine.execAuditExportPush s
  | .audExpAckWrite m v => Sys2Proof.Machine.execAudExpAckWrite m v s
  | .auditGapRecord => Sys2Proof.Machine.execAuditGapRecord s
  | .audCtrlWrite m v => Sys2Proof.Machine.execAudCtrlWrite m v s
  | .queueWordWrite q prod v => Sys2Proof.Machine.execQueueWordWrite q prod v s
  | .queueHoldResume q => Sys2Proof.Machine.execQueueHoldResume q s
  | .queueItemTimeout q => Sys2Proof.Machine.execQueueItemTimeout q s
  | .spillStageMove q bad => Sys2Proof.Machine.execSpillStageMove q bad s
  | .queueThrClear m q => Sys2Proof.Machine.execQueueThrClear m q s
  | .queueThreshWrite m q v => Sys2Proof.Machine.execQueueThreshWrite m q v s
  | .queueStranded q => Sys2Proof.Machine.execQueueStranded q s
  | .queueFlush m q v => Sys2Proof.Machine.execQueueFlush m q v s
  | .queuePop m q => Sys2Proof.Machine.execQueuePop m q s
  | .queuePopCancel m q => Sys2Proof.Machine.execQueuePopCancel m q s
  | .queuePopServed q => Sys2Proof.Machine.execQueuePopServed q s
  | .qmgSpillWrite m slot region v => Sys2Proof.Machine.execQmgSpillWrite m slot region v s
  | .ingressHeaderEnd p len hdr => Sys2Proof.Machine.execIngressHeaderEnd p len hdr s
  | .frameAdmit p body good => Sys2Proof.Machine.execFrameAdmit p body good s
  | .cbResetTimeout n => Sys2Proof.Machine.execCbResetTimeout n s
  | .egressSelect p => Sys2Proof.Machine.execEgressSelect p s
  | .ageingSweep => Sys2Proof.Machine.execAgeingSweep s
  | .egressTxComplete p => Sys2Proof.Machine.execEgressTxComplete p s
  | .timedLaunchDue q => Sys2Proof.Machine.execTimedLaunchDue q s
  | .shaperIdleWrite m q v => Sys2Proof.Machine.execShaperIdleWrite m q v s
  | .gclEntryAdvance p => Sys2Proof.Machine.execGclEntryAdvance p s
  | .gclChange m p v => Sys2Proof.Machine.execGclChange m p v s
  | .gclCancel m p v => Sys2Proof.Machine.execGclCancel m p v s
  | .gclChangeTakeEffect p => Sys2Proof.Machine.execGclChangeTakeEffect p s
  | .portDisable m p v => Sys2Proof.Machine.execPortDisable m p v s
  | .portPurge m p v => Sys2Proof.Machine.execPortPurge m p v s
  | .portEnable m p v => Sys2Proof.Machine.execPortEnable m p v s
  | .ethLinkDown p => Sys2Proof.Machine.execEthLinkDown p s
  | .ethLinkUp p rate => Sys2Proof.Machine.execEthLinkUp p rate s
  | .pendLearnExpire => Sys2Proof.Machine.execPendLearnExpire s
  | .tblSearch ring => Sys2Proof.Machine.execTblSearch ring s
  | .tblInsert ring => Sys2Proof.Machine.execTblInsert ring s
  | .tblDelete ring => Sys2Proof.Machine.execTblDelete ring s
  | .tblNext ring => Sys2Proof.Machine.execTblNext ring s
  | .tblFlushByPort ring => Sys2Proof.Machine.execTblFlushByPort ring s
  | .tblAgeSweep ring => Sys2Proof.Machine.execTblAgeSweep ring s
  | .tblRehashMove ring => Sys2Proof.Machine.execTblRehashMove ring s
  | .hcbCommit m a v => Sys2Proof.Machine.execHcbCommit m a v s
  | .hcbShadowEnWrite m a v => Sys2Proof.Machine.execHcbShadowEnWrite m a v s
  | .tableAgerTick => Sys2Proof.Machine.execTableAgerTick s
  | .canFrameReceived n sof f => Sys2Proof.Machine.execCanFrameReceived n sof f s
  | .canRxError n code dataPhase severe => Sys2Proof.Machine.execCanRxError n code dataPhase severe s
  | .canTxSelect n => Sys2Proof.Machine.execCanTxSelect n s
  | .canArbLost n => Sys2Proof.Machine.execCanArbLost n s
  | .canTxError n code dataPhase exempt => Sys2Proof.Machine.execCanTxError n code dataPhase exempt s
  | .canTxComplete n => Sys2Proof.Machine.execCanTxComplete n s
  | .canRecover m n v => Sys2Proof.Machine.execCanRecover m n v s
  | .canBusoffRecovered n => Sys2Proof.Machine.execCanBusoffRecovered n s
  | .canEnable m n v => Sys2Proof.Machine.execCanEnable m n v s
  | .canDisable m n v => Sys2Proof.Machine.execCanDisable m n v s
  | .canOffHeadCheck n => Sys2Proof.Machine.execCanOffHeadCheck n s
  | .tpSessionOpen n f => Sys2Proof.Machine.execTpSessionOpen n f s
  | .tpDtReceived n f => Sys2Proof.Machine.execTpDtReceived n f s
  | .tpAbortReceived n f => Sys2Proof.Machine.execTpAbortReceived n f s
  | .tpTimeout n sa da pgn => Sys2Proof.Machine.execTpTimeout n sa da pgn s
  | .tpTxSessionStart n tag => Sys2Proof.Machine.execTpTxSessionStart n tag s
  | .tpTxSegmentTimeout n tag => Sys2Proof.Machine.execTpTxSegmentTimeout n tag s
  | .tpTxSessionEnd n tag ok => Sys2Proof.Machine.execTpTxSessionEnd n tag ok s
  | .tunnelTerminate => Sys2Proof.Machine.execTunnelTerminate s
  | .linSlotStart n => Sys2Proof.Machine.execLinSlotStart n s
  | .linScheduleSwitch m n v => Sys2Proof.Machine.execLinScheduleSwitch m n v s
  | .linBufferTake n => Sys2Proof.Machine.execLinBufferTake n s
  | .linHeaderReceived n id => Sys2Proof.Machine.execLinHeaderReceived n id s
  | .linResponseReceived n outcome data => Sys2Proof.Machine.execLinResponseReceived n outcome data s
  | .linFrameComplete n => Sys2Proof.Machine.execLinFrameComplete n s
  | .linWakeSend m n v => Sys2Proof.Machine.execLinWakeSend m n v s
  | .linWakeRx n => Sys2Proof.Machine.execLinWakeRx n s
  | .linBusIdle n => Sys2Proof.Machine.execLinBusIdle n s
  | .meHang n => Sys2Proof.Machine.execMeHang n s
  | .cellWrite m cell age ws => Sys2Proof.Machine.execCellWrite m cell age ws s
  | .staleSweep => Sys2Proof.Machine.execStaleSweep s
  | .packPeriodicEmit n => Sys2Proof.Machine.execPackPeriodicEmit n s
  | .packDeferredEmit n => Sys2Proof.Machine.execPackDeferredEmit n s
  | .routeImageLoad src ring => Sys2Proof.Machine.execRouteImageLoad src ring s
  | .sigLoad m v => Sys2Proof.Machine.execSigLoad m v s
  | .sigLoadClear m v => Sys2Proof.Machine.execSigLoadClear m v s
  | .sigLoadDone => Sys2Proof.Machine.execSigLoadDone s
  | .riArm m v => Sys2Proof.Machine.execRiArm m v s
  | .epochSwitchRequest m v => Sys2Proof.Machine.execEpochSwitchRequest m v s
  | .epochSwitchCancel m v => Sys2Proof.Machine.execEpochSwitchCancel m v s
  | .routeEpoch => Sys2Proof.Machine.execRouteEpoch s
  | .pdelayReqSend p => Sys2Proof.Machine.execPdelayReqSend p s
  | .pdelayReqReceived p seq ago peer => Sys2Proof.Machine.execPdelayReqReceived p seq ago peer s
  | .pdelaySample p t1 t2 t3 t4 => Sys2Proof.Machine.execPdelaySample p t1 t2 t3 t4 s
  | .pdelayResponseTimeout p => Sys2Proof.Machine.execPdelayResponseTimeout p s
  | .syncReceived p domain seq ago twoStep origin corr csro => Sys2Proof.Machine.execSyncReceived p domain seq ago twoStep origin corr csro s
  | .followUpReceived p domain seq origin corr csro => Sys2Proof.Machine.execFollowUpReceived p domain seq origin corr csro s
  | .followUpTimeout n => Sys2Proof.Machine.execFollowUpTimeout n s
  | .ofsInWrite m n v => Sys2Proof.Machine.execOfsInWrite m n v s
  | .tbStep m n => Sys2Proof.Machine.execTbStep m n s
  | .tbHold m n => Sys2Proof.Machine.execTbHold m n s
  | .tbRelease m n => Sys2Proof.Machine.execTbRelease m n s
  | .tbClrUnres m n => Sys2Proof.Machine.execTbClrUnres m n s
  | .slavePortWrite m n v => Sys2Proof.Machine.execSlavePortWrite m n v s
  | .servoHoldover n => Sys2Proof.Machine.execServoHoldover n s
  | .holdRelease n => Sys2Proof.Machine.execHoldRelease n s
  | .ppsEdge rising ago => Sys2Proof.Machine.execPpsEdge rising ago s
  | .zdaSentence bs => Sys2Proof.Machine.execZdaSentence bs s
  | .ppsLost => Sys2Proof.Machine.execPpsLost s
  | .ppsOutPulse => Sys2Proof.Machine.execPpsOutPulse s
  | .tb3Save ok => Sys2Proof.Machine.execTb3Save ok s
  | .refFail ratio => Sys2Proof.Machine.execRefFail ratio s
  | .refReturn => Sys2Proof.Machine.execRefReturn s
  | .pleUpdate => Sys2Proof.Machine.execPleUpdate s
  | .pleMwGo m v => Sys2Proof.Machine.execPleMwGo m v s
  | .modelPosTimeout => Sys2Proof.Machine.execModelPosTimeout s
  | .pleOrderPoint => Sys2Proof.Machine.execPleOrderPoint s
  | .pleOrderSpan => Sys2Proof.Machine.execPleOrderSpan s
  | .pleOrderLine => Sys2Proof.Machine.execPleOrderLine s
  | .pleOrderLineSpan => Sys2Proof.Machine.execPleOrderLineSpan s
  | .pleCancel => Sys2Proof.Machine.execPleCancel s
  | .pleCommit => Sys2Proof.Machine.execPleCommit s
  | .pleOrderExpire => Sys2Proof.Machine.execPleOrderExpire s
  | .pleCloseRetry => Sys2Proof.Machine.execPleCloseRetry s
  | .closeFail => Sys2Proof.Machine.execCloseFail s
  | .pleEnable m v => Sys2Proof.Machine.execPleEnable m v s
  | .pleDisable m v => Sys2Proof.Machine.execPleDisable m v s
  | .pleLoad m v => Sys2Proof.Machine.execPleLoad m v s
  | .pleLoadClear m v => Sys2Proof.Machine.execPleLoadClear m v s
  | .pleLoadDone => Sys2Proof.Machine.execPleLoadDone s
  | .txDoorbell m n v => Sys2Proof.Machine.execTxDoorbell m n v s
  | .rxDoorbell m n v => Sys2Proof.Machine.execRxDoorbell m n v s
  | .cqDoorbell m n v => Sys2Proof.Machine.execCqDoorbell m n v s
  | .tcDoorbell m n v => Sys2Proof.Machine.execTcDoorbell m n v s
  | .txDescFetch n fail => Sys2Proof.Machine.execTxDescFetch n fail s
  | .orderFetch n fail => Sys2Proof.Machine.execOrderFetch n fail s
  | .tcRingFetch n fail => Sys2Proof.Machine.execTcRingFetch n fail s
  | .rxDeliver q fail => Sys2Proof.Machine.execRxDeliver q fail s
  | .completionWrite c fail => Sys2Proof.Machine.execCompletionWrite c fail s
  | .cmplStall c => Sys2Proof.Machine.execCmplStall c s
  | .cqModTimer => Sys2Proof.Machine.execCqModTimer s
  | .ringEnable m k n v => Sys2Proof.Machine.execRingEnable m k n v s
  | .ringDisable m k n v => Sys2Proof.Machine.execRingDisable m k n v s
  | .pcieFunctionStop f flr => Sys2Proof.Machine.execPcieFunctionStop f flr s
  | .hmbInPost m f v => Sys2Proof.Machine.execHmbInPost m f v s
  | .hmbOutPost m f v => Sys2Proof.Machine.execHmbOutPost m f v s
  | .hmbInTaken m f v => Sys2Proof.Machine.execHmbInTaken m f v s
  | .hmbOutTaken m f v => Sys2Proof.Machine.execHmbOutTaken m f v s
  | .aqeneOffer party msg => Sys2Proof.Machine.execAqeneOffer party msg s
  | .aqeneConfirm party msg => Sys2Proof.Machine.execAqeneConfirm party msg s
  | .aqeneAnswer party msg => Sys2Proof.Machine.execAqeneAnswer party msg s
  | .aqenePeerAppear party => Sys2Proof.Machine.execAqenePeerAppear party s
  | .aqeneRetry party => Sys2Proof.Machine.execAqeneRetry party s
  | .bar4Access write x n bs => Sys2Proof.Machine.execBar4Access write x n bs s
  | .vfDoorbellWrite v j val => Sys2Proof.Machine.execVfDoorbellWrite v j val s
  | .outboundRead m a n => Sys2Proof.Machine.execOutboundRead m a n s
  | .outboundWrite m a bs => Sys2Proof.Machine.execOutboundWrite m a bs s
  | .outboundCompletion tag status bs => Sys2Proof.Machine.execOutboundCompletion tag status bs s
  | .outboundReadTimeout => Sys2Proof.Machine.execOutboundReadTimeout s
  | .prefetchLineExpire => Sys2Proof.Machine.execPrefetchLineExpire s
  | .hbrErrAck m v => Sys2Proof.Machine.execHbrErrAck m v s
  | .pcieLinkReset => Sys2Proof.Machine.execPcieLinkReset s
  | .pcieLinkUp speed width fns => Sys2Proof.Machine.execPcieLinkUp speed width fns s
  | .actWindowReset => Sys2Proof.Machine.execActWindowReset s
  | .grdLoad m v => Sys2Proof.Machine.execGrdLoad m v s
  | .grdLoadClear m v => Sys2Proof.Machine.execGrdLoadClear m v s
  | .grdLoadDone => Sys2Proof.Machine.execGrdLoadDone s
  | .guardManifestApply src => Sys2Proof.Machine.execGuardManifestApply src s
  | .grdApply m v => Sys2Proof.Machine.execGrdApply m v s
  | .grdApplyFail m v => Sys2Proof.Machine.execGrdApplyFail m v s
  | .safeSetRepeat => Sys2Proof.Machine.execSafeSetRepeat s
  | .faultForce m w v => Sys2Proof.Machine.execFaultForce m w v s
  | .faultAck m w v => Sys2Proof.Machine.execFaultAck m w v s
  | .faultStatusClear m w v => Sys2Proof.Machine.execFaultStatusClear m w v s
  | .aliveKick m v => Sys2Proof.Machine.execAliveKick m v s
  | .aliveStop => Sys2Proof.Machine.execAliveStop s
  | .aliveStopCmd m v => Sys2Proof.Machine.execAliveStopCmd m v s
  | .aliveRestart m v => Sys2Proof.Machine.execAliveRestart m v s
  | .kickWindowExpire => Sys2Proof.Machine.execKickWindowExpire s
  | .firstKickExpire => Sys2Proof.Machine.execFirstKickExpire s
  | .kickHalfTimeout => Sys2Proof.Machine.execKickHalfTimeout s
  | .safePwrOn => Sys2Proof.Machine.execSafePwrOn s
  | .safePwrOff fast => Sys2Proof.Machine.execSafePwrOff fast s
  | .detectorMismatch sensed => Sys2Proof.Machine.execDetectorMismatch sensed s
  | .safePwrLimit => Sys2Proof.Machine.execSafePwrLimit s
  | .safePwrTrip => Sys2Proof.Machine.execSafePwrTrip s
  | .safePwrRetry => Sys2Proof.Machine.execSafePwrRetry s
  | .safePwrThermal hot => Sys2Proof.Machine.execSafePwrThermal hot s
  | .keeperHang => Sys2Proof.Machine.execKeeperHang s
  | .slotLoad m n => Sys2Proof.Machine.execSlotLoad m n s
  | .slotRevoke m n => Sys2Proof.Machine.execSlotRevoke m n s
  | .slotZeroiseDone n => Sys2Proof.Machine.execSlotZeroiseDone n s
  | .jobGcmEnc m slot dst len src out aux => Sys2Proof.Machine.execJobGcmEnc m slot dst len src out aux s
  | .jobGcmDec m slot dst len src out aux => Sys2Proof.Machine.execJobGcmDec m slot dst len src out aux s
  | .jobCmac m slot dst len src out aux => Sys2Proof.Machine.execJobCmac m slot dst len src out aux s
  | .jobCtr m slot dst len src out aux => Sys2Proof.Machine.execJobCtr m slot dst len src out aux s
  | .jobKdfChild m slot dst len src out aux => Sys2Proof.Machine.execJobKdfChild m slot dst len src out aux s
  | .jobKdf8021x m slot dst len src out aux => Sys2Proof.Machine.execJobKdf8021x m slot dst len src out aux s
  | .jobUnwrap m slot dst len src out aux => Sys2Proof.Machine.execJobUnwrap m slot dst len src out aux s
  | .jobDeriveRoot m slot dst len src out aux => Sys2Proof.Machine.execJobDeriveRoot m slot dst len src out aux s
  | .jobDone busError core => Sys2Proof.Machine.execJobDone busError core s
  | .tamperAssert on mains batt => Sys2Proof.Machine.execTamperAssert on mains batt s
  | .cipherAlarm cause on => Sys2Proof.Machine.execCipherAlarm cause on s
  | .cipAlarmAck m v => Sys2Proof.Machine.execCipAlarmAck m v s
  | .saInstall m n => Sys2Proof.Machine.execSaInstall m n s
  | .saRetire m n => Sys2Proof.Machine.execSaRetire m n s
  | .saRead m n => Sys2Proof.Machine.execSaRead m n s
  | .fvSet m n => Sys2Proof.Machine.execFvSet m n s
  | .lcRequest m v => Sys2Proof.Machine.execLcRequest m v s
  | .vaultStore m slot id bad => Sys2Proof.Machine.execVaultStore m slot id bad s
  | .vaultLoad m slot id => Sys2Proof.Machine.execVaultLoad m slot id s
  | .vaultDelete m id bad => Sys2Proof.Machine.execVaultDelete m id bad s
  | .attestRequest m v => Sys2Proof.Machine.execAttestRequest m v s
  | .attestDone => Sys2Proof.Machine.execAttestDone s
  | .rngRead m => Sys2Proof.Machine.execRngRead m s
  | .orphanSweep => Sys2Proof.Machine.execOrphanSweep s
  | .replayGo m v => Sys2Proof.Machine.execReplayGo m v s
  | .discardSet m v => Sys2Proof.Machine.execDiscardSet m v s
  | .ledgerReplayPush => Sys2Proof.Machine.execLedgerReplayPush s
  | .replayFeedTake => Sys2Proof.Machine.execReplayFeedTake s
  | .replayDeadline => Sys2Proof.Machine.execReplayDeadline s
  | .domainGate m v => Sys2Proof.Machine.execDomainGate m v s
  | .domainWake m v => Sys2Proof.Machine.execDomainWake m v s
  | .powerGoodTimeout d => Sys2Proof.Machine.execPowerGoodTimeout d s
  | .standbyRequest m => Sys2Proof.Machine.execStandbyRequest m s
  | .sleepRequest m => Sys2Proof.Machine.execSleepRequest m s
  | .autoSleep => Sys2Proof.Machine.execAutoSleep s
  | .standbyTimeout => Sys2Proof.Machine.execStandbyTimeout s
  | .tc10SleepAck n => Sys2Proof.Machine.execTc10SleepAck n s
  | .tc10AckTimeout => Sys2Proof.Machine.execTc10AckTimeout s
  | .wakeSource k mains batt => Sys2Proof.Machine.execWakeSource k mains batt s
  | .keyInChange high => Sys2Proof.Machine.execKeyInChange high s
  | .wakeFwdCanFrame => Sys2Proof.Machine.execWakeFwdCanFrame s
  | .pwrBlkRst m v => Sys2Proof.Machine.execPwrBlkRst m v s
  | .blockResetDone d => Sys2Proof.Machine.execBlockResetDone d s
  | .pwrCoreRst m v => Sys2Proof.Machine.execPwrCoreRst m v s
  | .pwrChipRst m v => Sys2Proof.Machine.execPwrChipRst m v s
  | .resetN low mains batt => Sys2Proof.Machine.execResetN low mains batt s
  | .chipReset => Sys2Proof.Machine.execChipReset s
  | .boot pins => Sys2Proof.Machine.execBoot pins s
  | .coldPowerOn v => Sys2Proof.Machine.execColdPowerOn v s
  | .powerFailWarning batt => Sys2Proof.Machine.execPowerFailWarning batt s
  | .powerFailRecovered => Sys2Proof.Machine.execPowerFailRecovered s
  | .outputLost => Sys2Proof.Machine.execOutputLost s
  | .railFault d => Sys2Proof.Machine.execRailFault d s
  | .overTemp => Sys2Proof.Machine.execOverTemp s
  | .oscFail => Sys2Proof.Machine.execOscFail s
  | .updWriteBlock m v => Sys2Proof.Machine.execUpdWriteBlock m v s
  | .updErase m v => Sys2Proof.Machine.execUpdErase m v s
  | .updActivate m v => Sys2Proof.Machine.execUpdActivate m v s
  | .updConfirm m v => Sys2Proof.Machine.execUpdConfirm m v s
  | .updFailTrial m v => Sys2Proof.Machine.execUpdFailTrial m v s
  | .updRouteTry m v => Sys2Proof.Machine.execUpdRouteTry m v s
  | .updRouteCommit m v => Sys2Proof.Machine.execUpdRouteCommit m v s
  | .updGuardCommit m v => Sys2Proof.Machine.execUpdGuardCommit m v s
  | .updRecover m v => Sys2Proof.Machine.execUpdRecover m v s
  | .updInplace m v => Sys2Proof.Machine.execUpdInplace m v s
  | .updSetBlevel m v => Sys2Proof.Machine.execUpdSetBlevel m v s
  | .updCmdDone retries => Sys2Proof.Machine.execUpdCmdDone retries s
  | .residentLoader => Sys2Proof.Machine.execResidentLoader s
  | .recInfoReq party msg => Sys2Proof.Machine.execRecInfoReq party msg s
  | .recWrite party msg => Sys2Proof.Machine.execRecWrite party msg s
  | .recCommit party msg => Sys2Proof.Machine.execRecCommit party msg s
  | .recStageDram party msg => Sys2Proof.Machine.execRecStageDram party msg s
  | .recReboot party msg => Sys2Proof.Machine.execRecReboot party msg s
  | .configExport m mA mB => Sys2Proof.Machine.execConfigExport m mA mB s
  | .configImport m src len mA mB => Sys2Proof.Machine.execConfigImport m src len mA mB s
  | .dramEccError m a corrected => Sys2Proof.Machine.execDramEccError m a corrected s
  | .slotEcc n => Sys2Proof.Machine.execSlotEcc n s
  | .sramEcc off => Sys2Proof.Machine.execSramEcc off s

end Sys2Proof.Machine
end

