-- ==== Sys2Proof/Safety.lean ====
section
/-! DEFINITION. The terms that statements use: how a command ends, what a command leaves as it was, when a register write is
taken, and the one form of a memory. -/

namespace Sys2Proof.Machine

/-! ### How a command ends -/

/-- The outcome is a next state of which P holds. -/
def Ends (o : Host.Outcome State Fault Refusal) (P : State → Prop) : Prop := ∃ t, o = .next t ∧ P t

/-- The outcome is a next state: what the command did, a state of which P holds, and then what waited for it is served (frames
whose streams are held no more, and emissions that a changed cell triggers: R264, R522). -/
def Leaves (o : Host.Outcome State Fault Refusal) (P : State → Prop) : Prop := ∃ t, o = .next t.settle ∧ P t

/-- Nothing waits to be served. -/
abbrev Calm (s : State) : Prop := s.sig.due = [] ∧ s.swc.waiting = []

/-! ### Frames -/

/-- The parts of State. -/
inductive Part where
  | regs | mem | hostMem | sys | fox | aud | qs | swc | tbl | tim | grd | alv | pwr | hbr | rng | sig | ldg | cip | key | bus
  | ple | upd | aqn | out | freeCtr | pending
  deriving DecidableEq, Repr

/-- A part is the same in two states. -/
def Part.Same (p : Part) (s t : State) : Prop :=
  match p with
  | .regs => t.regs = s.regs
  | .mem => t.mem = s.mem
  | .hostMem => t.hostMem = s.hostMem
  | .sys => t.sys = s.sys
  | .fox => t.fox = s.fox
  | .aud => t.aud = s.aud
  | .qs => t.qs = s.qs
  | .swc => t.swc = s.swc
  | .tbl => t.tbl = s.tbl
  | .tim => t.tim = s.tim
  | .grd => t.grd = s.grd
  | .alv => t.alv = s.alv
  | .pwr => t.pwr = s.pwr
  | .hbr => t.hbr = s.hbr
  | .rng => t.rng = s.rng
  | .sig => t.sig = s.sig
  | .ldg => t.ldg = s.ldg
  | .cip => t.cip = s.cip
  | .key => t.key = s.key
  | .bus => t.bus = s.bus
  | .ple => t.ple = s.ple
  | .upd => t.upd = s.upd
  | .aqn => t.aqn = s.aqn
  | .out => t.out = s.out
  | .freeCtr => t.freeCtr = s.freeCtr
  | .pending => t.pending = s.pending

/-- Every part but those named is unchanged. -/
def SameBut (ps : List Part) (s t : State) : Prop := ∀ p : Part, p ∉ ps → p.Same s t

/-- What raising an event touches: status registers, the event queue, interrupt lines and their messages, and the free values
that a message to a vector beyond its table takes (R41, R44, R403). -/
def eventParts : List Part := [.regs, .qs, .sys, .out, .freeCtr]

/-- What the entry of a logged change touches beside (R89, R90). -/
def logParts : List Part := .aud :: eventParts

/-- A register that an event or an audit entry writes: the event status registers, the event queue's status, peak and lost
counter, the bridge's error mailbox, the audit log's next sequence number (R44, R90, R410). -/
def signalReg (a : Nat) : Bool :=
  (windows.any fun w => evtStatus w == some a) ||
    [R.QP_STATUS 5, R.QP_PEAK 5, R.QP_OVR_CNT 5, R.HBR_ERR_STATUS, R.HBR_ERR_ADDR_LO, R.HBR_ERR_ADDR_HI, R.HBR_ERR_INFO,
      R.HBR_ERR_MERGED, R.AUD_SEQ].contains a

/-- Every register but those named, and those that events and entries write, is unchanged. -/
def RegsBut (as : List Nat) (s t : State) : Prop := ∀ a, a ∉ as → signalReg a = false → t.reg a = s.reg a

/-! ### Faults and audit entries -/

/-- The registers that an occurrence of a fault in window w writes: the fault page, the sequence counter, the fault-event
queue's status, peak and lost counter (R437, R440). -/
def faultRegs (w : Nat) : List Nat :=
  [0, 0x20, 0x24, 0x28, 0x2C, 0x30, 0x34, 0x38, 0x3C].map (fltReg w) ++
    [R.SYS_FLT_SEQ, R.QP_STATUS 6, R.QP_PEAK 6, R.QP_OVR_CNT 6]

/-- The source's reaction is to record it or to interrupt, not to trap, to reset or to stop ALIVE_OUT (R438, R441). -/
abbrev Mild (s : State) (w src : Nat) : Prop := s.reaction w src ≤ 1

/-- The log has room and owes no GAP record (R97, R98). -/
abbrev LogRoom (s : State) : Prop := s.reserveOut = false ∧ s.aud.gap = 0

/-- The 32 bytes of the entry that a change makes now: its fields and the first six bytes of the chain value (R91, R94). -/
def State.entryFor (s : State) (origin priv target : Nat) (old new : Word) : Bytes :=
  let body := entryBody (compactOf 3 s.now) origin priv target old new (s.reg R.AUD_SEQ)
  body ++ (beBytes 32 (chainNext s.aud.head body).toNat).take 6

/-- One entry has joined the pending buffer and taken the next sequence number (R90). -/
def Entered (s t : State) (origin priv target : Nat) (old new : Word) : Prop :=
  t.aud.pend = s.aud.pend ++ [s.entryFor origin priv target old new] ∧ t.reg R.AUD_SEQ = s.reg R.AUD_SEQ + 1

/-! ### Register writes -/

/-- The master reaches the register space at an address: the debug port is open (R32), and an inbound master is the physical
function (R399). -/
abbrev Reaches (s : State) (m : Master) : Prop := debugClosed s m = false ∧ (inbound m = true → m.origin = 0x20)

/-- A 4-byte write of v by m to the register l at address a is taken: the window is up and granted (R23, R35), the master is
secure where the register asks for it (R30), the register takes writes and is not locked (R8, R76, R77), the value is legal,
and, for a logged register, the audit log has room and owes no GAP record (R90, R97, R98). -/
structure Writable (s : State) (m : Master) (a v : Nat) (l : Loc) : Prop where
  reaches : Reaches s m
  aligned : a % 4 = 0
  found : regAt a = some l
  up : alive s (domainOf l.win) = true
  granted : windowGranted s m l.win = true
  secure : l.row.sec = true → secureMaster s m = true
  writes : l.row.acc ≠ .ro ∧ l.row.acc ≠ .rc ∧ fixedPart l = false
  unlocked : (l.row.acc = .wl → a ∉ s.sys.wlDone) ∧
    (l.row.acc = .wlc → s.regBit (winBase l.win + 0x20) 0 = false)
  legal : s.valueOk m l (word v &&& inMask l) = true
  applies : a = R.GRD_APPLY → bitOf (word v) 0 = true → s.applyError none = none
  room : l.row.log = true → (s.holding = false ∨ safetyWrite m a = true) ∧ s.auditReady = true ∧
    s.reserveOut = false ∧ s.aud.gap = 0

/-- A 4-byte write by m reaches the register l at address a, and the log takes its entry: all that `Writable` asks but the value's
own check. -/
structure Addressed (s : State) (m : Master) (a : Nat) (l : Loc) : Prop where
  reaches : Reaches s m
  aligned : a % 4 = 0
  found : regAt a = some l
  up : alive s (domainOf l.win) = true
  granted : windowGranted s m l.win = true
  secure : l.row.sec = true → secureMaster s m = true
  writes : l.row.acc ≠ .ro ∧ l.row.acc ≠ .rc ∧ fixedPart l = false
  unlocked : (l.row.acc = .wl → a ∉ s.sys.wlDone) ∧
    (l.row.acc = .wlc → s.regBit (winBase l.win + 0x20) 0 = false)
  room : s.auditReady = true ∧ s.reserveOut = false ∧ s.aud.gap = 0 ∧
    (l.row.log = true → s.holding = false ∨ safetyWrite m a = true)

/-- The register only holds a value: a write of it starts nothing. -/
def Passive (l : Loc) : Prop := ∀ (s : State) (m : Master) (old new v : Word) (bad : Bool), s.wrote m l old new v bad = s

/-- The word of the register space through which bit b of the register at address r is reached (R24). -/
def bitAddress (r b : Nat) : Nat := 0x30000000 + (r - 0x10000000) * 32 + b * 4

/-- A register that only holds the value written: RW, starting nothing (R8). -/
def Plain (l : Loc) : Prop :=
  l.row.acc = .rw ∧ stored l = true ∧ Passive l ∧ actionBits l = 0 ∧ (l.win = 10 → hcbTable (winBase l.win + l.off) = none) ∧
    (l.win = 9 → l.off < 0x4000) ∧ signalReg (winBase l.win + l.off) = false

/-- The register holds the written value in its field bits (R8). -/
def Stored (s t : State) (a v : Nat) (l : Loc) : Prop := t.reg a = (s.reg a &&& ~~~ regMask l) ||| (word v &&& regMask l)

/-! ### Queues -/

/-- The queue's contents are as before but for the items given, and no register of another queue changes. -/
def QueueStep (s t : State) (q : Nat) (items : List QItem) : Prop :=
  (t.queue q).items = items ∧ (∀ k, k ≠ q → k ≠ 5 → t.queue k = s.queue k) ∧ SameBut eventParts s t ∧
    RegsBut [R.QP_STATUS q, R.QP_PEAK q, R.QP_OVR_CNT q, R.QP_TRUNC_CNT q] s t

/-- For the event queue itself: no interrupt line is routed, so that no message of a line can add an item (R41, R44). -/
def EventsQuiet (s : State) (q : Nat) : Prop := q = 5 → ∀ n, s.regBit (R.SYS_IRQ_ROUTE n) 31 = false

/-- Every copy of a port's queues came from a line and has no ledger record. -/
abbrev PlainCopies (s : State) (p : Nat) : Prop := ∀ tc < 8, ∀ c ∈ s.copies (p * 8 + tc), c.src = .line ∧ c.ledger = none

/-! ### Copies and ports -/

/-- A copy that came from a line and has no ledger record. -/
abbrev PlainCopy (c : Copy) : Prop := c.src = .line ∧ c.ledger = none

/-- The registers that the end of a copy writes: limits no longer exceeded, and a purge that is complete (R142, R160). -/
def releaseRegs (s : State) (c : Copy) : List Nat :=
  [R.SWC_STATUS, R.SWC_PSTAT c.port, R.SWC_QSTAT c.queue, R.SWC_PSTAT (s.frameOf c.frame).ingress]

/-- Port p sends nothing after the command: nothing waits to be served, and no safe-state set waits for the line (R435). -/
abbrev LineCalm (s : State) (p : Nat) : Prop := Calm s ∧ kvGet? s.grd.run p = none

/-- The strict head of a port: class tc of port p is the highest class that `ok` says is eligible, all classes are strict, and
no head is stale (R145, R146). -/
abbrev StrictHead (s : State) (ok : Nat → Nat → Bool) (p tc : Nat) : Prop :=
  s.spLow p = 0 ∧ s.dropPortStale p = s ∧ tc < 8 ∧ ok p tc = true ∧ (∀ k < 8, tc < k → ok p k = false)

/-- A transport frame of identifier `id` as it stands on a channel's line: classical, extended, eight bytes. -/
def tpLine (id : Nat) (d : Bytes) : Bytes := mkBus (idWord id true false) 0 0 0 8 0 0xFF 0 0 (slice d 0 8)

/-! ### Table commands -/

/-- The table command of an opcode, from the mailbox or from a ring (R199). -/
def tableInstr (op : Nat) (ring : Bool) : Instr :=
  match op with
  | 1 => .tblSearch ring
  | 2 => .tblInsert ring
  | 3 => .tblDelete ring
  | 4 => .tblNext ring
  | 5 => .tblFlushByPort ring
  | 6 => .tblAgeSweep ring
  | _ => .tblRehashMove ring

/-- Master m has started the mailbox command c, the tables run, and the audit log takes its entry (R89, R97, R199). -/
structure MailboxRuns (s : State) (m : Master) (c : TCmd) : Prop where
  started : s.tbl.mgo = some m
  named : s.mailboxCmd = c
  up : alive s 4 = true
  admitted : safetyOrigin m.origin = true ∨ s.holding = false
  ready : s.auditReady = true
  room : LogRoom s

/-- The mailbox command is complete: its status, the entries affected and the cursor stand in the registers (R199, R206) and
its entry in the log (R93, R202). -/
def MailboxDone (s t : State) (m : Master) (c : TCmd) (st aff cursor : Nat) (crc : Word) : Prop :=
  t.tbl.mgo = none ∧ t.reg R.TBL_MSTAT = word (2 ^ 31 + min aff 0x7FFF * 65536 + st) ∧
  t.reg R.TBL_MCURSOR = word cursor ∧ t.reg R.TBL_CMD_LAST = word (c.tag * 65536 + 0xFFFF) ∧
  t.reg R.TBL_CMD_OPEN = 0xFFFFFFFF ∧
  Entered s t m.origin (privByte s m false (m.origin == 0xB || m.origin ≤ 2))
    (0xC0000000 + c.table * 2 ^ 24 + c.op * 2 ^ 16 + 0xFFFF) (word (st + min aff 65535 * 65536)) crc

/-- The registers a mailbox command writes. -/
def mailboxRegs : List Nat :=
  [R.TBL_MSTAT, R.TBL_MCURSOR, R.TBL_CMD_LAST, R.TBL_CMD_OPEN] ++ (List.range 36).map R.TBL_MDATA

/-! ### Placement orders -/

/-- The order command of an OP (R339). -/
def orderInstr (op : Nat) : Instr :=
  match op with
  | 1 => .pleOrderPoint
  | 2 => .pleOrderSpan
  | 3 => .pleOrderLine
  | _ => .pleOrderLineSpan

/-- The front of the placement intake is an order with these bytes that came from no ring, as the engine takes it (R338). -/
abbrev Intake (s : State) (it : QItem) (rest : List QItem) (o : PleOrder) : Prop :=
  alive s 15 = true ∧ (s.queue 2).items = it :: rest ∧ it.done = true ∧ it.prod < 0x2000000 ∧
    o = orderOf 255 it.prod s.ple.bank (ofWords it.words)

/-! ### The alive signal -/

/-- The kick checker has stopped ALIVE_OUT with this cause: KICK_FAULT has occurred (R450). -/
def KickStopped (t : State) (cause : Nat) : Prop :=
  t.toggling = false ∧ t.stopCause = cause ∧ t.regBit (fltReg 5 0) 1 = true

/-! ### Update commands -/

/-- The instruction c is the update command of an OP (R584). -/
def IsUpd (op : Nat) (m : Master) (v : Nat) (c : Instr) : Prop :=
  match op with
  | 1 => c = .updWriteBlock m v
  | 2 => c = .updErase m v
  | 3 => c = .updActivate m v
  | 4 => c = .updConfirm m v
  | 5 => c = .updFailTrial m v
  | 6 => c = .updRouteTry m v
  | 7 => c = .updRouteCommit m v
  | 8 => c = .updGuardCommit m v
  | 9 => c = .updRecover m v
  | 10 => c = .updInplace m v
  | 11 => c = .updSetBlevel m v
  | _ => False

/-! ### Cipher jobs -/

/-- The instruction c is the cipher job of an OP (R487). -/
def IsJob (op : Nat) (m : Master) (slot dst len src out aux : Nat) (c : Instr) : Prop :=
  match op with
  | 1 => c = .jobGcmEnc m slot dst len src out aux
  | 2 => c = .jobGcmDec m slot dst len src out aux
  | 3 => c = .jobCmac m slot dst len src out aux
  | 4 => c = .jobCtr m slot dst len src out aux
  | 5 => c = .jobKdfChild m slot dst len src out aux
  | 6 => c = .jobKdf8021x m slot dst len src out aux
  | 7 => c = .jobUnwrap m slot dst len src out aux
  | 8 => c = .jobDeriveRoot m slot dst len src out aux
  | _ => False

/-- The eight words of a job: OP with its slots, LEN, and the three addresses (R487). -/
def jobWords (op slot dst len src out aux : Nat) : List Nat :=
  [op + slot * 256 + dst * 131072, len, src % 2 ^ 32, src / 2 ^ 32, out % 2 ^ 32, out / 2 ^ 32, aux % 2 ^ 32, aux / 2 ^ 32]

/-! ### Rings and the log's room -/

/-- No ring is enabled (R362). -/
abbrev NoRings (s : State) : Prop :=
  (∀ n < 256, s.ringSize 0 n = 0 ∧ s.ringSize 1 n = 0) ∧ (∀ n < 16, s.ringSize 3 n = 0) ∧
    ∀ c < 128, s.regFld (R.CQ_CFG c) 16 0 = 0

/-- The log has room for n entries and owes no GAP record (R97, R98). -/
abbrev RoomFor (s : State) (n : Nat) : Prop := s.unexported + n ≤ ringEntries ∧ s.aud.gap = 0

/-! ### Memory -/

/-- Both memories are in their one form (assumption 2). -/
abbrev MemoryOk (s : State) : Prop := memWf s.mem = true ∧ memWf s.hostMem = true

end Sys2Proof.Machine
end

