-- ==== Sys2Proof/WellFormed.lean ====
section
/-! DEFINITION. Operands a command can have: a master of R30, an index of the register, port, queue, ring or slot it names
(R27, R28, R111, R213, R230, R360, R469), an address of 48 bits (R20), a value of 32 bits (R85). -/

namespace Sys2Proof

/-- An origin of R30. -/
def masterOk (m : Master) : Bool :=
  m.origin ≤ 2 || (8 ≤ m.origin && m.origin ≤ 12) || (16 ≤ m.origin && m.origin < 24) ||
    (32 ≤ m.origin && m.origin < 40) || m.origin == 48 || (64 ≤ m.origin && m.origin < 80)

/-- An address from lo to hi. -/
def regionOk (lo hi a : Nat) : Bool := lo ≤ a && a ≤ hi

/-- A window number of R27. -/
def windowOk (w : Nat) : Bool :=
  w ≤ 6 || (8 ≤ w && w ≤ 11) || w == 16 || w == 17 || (20 ≤ w && w ≤ 22) || (24 ≤ w && w ≤ 26) || w == 54 ||
    (64 ≤ w && w < 93) || (96 ≤ w && w < 128)

/-- A power domain with a supply of its own, 1-15 (R16). -/
def domainOk (n : Nat) : Bool := 1 ≤ n && n ≤ 15

/-- A switch port of R28. -/
def switchPort (p : Nat) : Bool :=
  p < 29 || (32 ≤ p && p < 40) || (48 ≤ p && p < 60) || (64 ≤ p && p < 88) || (96 ≤ p && p < 104)

/-- A queue number of R111. -/
def primOk (q : Nat) : Bool := q < 37 || (40 ≤ q && q < 80)

/-- A ring of R360: transmit, receive and order rings 0-255, table-command rings 0-15, completion rings 0-127. -/
def ringNumberOk (k n : Nat) : Bool := k ≤ 4 && n < (match k with | 3 => 16 | 4 => 128 | _ => 256)

/-- A CAN frame as its format allows it (R216): identifier width, and no more data than the format carries. -/
def canOk (f : CanFrame) : Bool :=
  f.id < (if f.ide then 2 ^ 29 else 2 ^ 11) &&
    f.data.length ≤ (match f.kind with | .classic => 8 | .fd => 64 | .xl => 2048)

/-- The operands of a cipher job: two slots, a length, three addresses (R487). -/
def jobOk (slot dst len src out aux : Nat) : Bool :=
  slot < 512 && dst < 512 && len < 2 ^ 32 && src < 2 ^ 48 && out < 2 ^ 48 && aux < 2 ^ 48

/-- The operands are ones the command can have. -/
def Instr.wellFormed (i : Instr) : Bool :=
  match i with
  | .registerWrite m a size v => masterOk m && decide (a < 2 ^ 48) && decide (v < 256 ^ size)
  | .rcRead m a size => masterOk m && decide (a < 2 ^ 48) && decide (0 < size)
  | .bitAliasWrite m a v => masterOk m && regionOk 0x30000000 0x37FFFFFF a && decide (v < 2 ^ 32)
  | .unmappedAccess m a size _ => masterOk m && decide (a < 2 ^ 48) && decide (0 < size)
  | .gatedWindowAccess m a size _ v =>
    masterOk m && decide (a < 2 ^ 48) && decide (0 < size) && decide (v < 256 ^ size)
  | .heldAccessRelease => true
  | .accessSizeError m a _ bytes => masterOk m && decide (a < 2 ^ 48) && !bytes.isEmpty
  | .partitionDramDeny m a => masterOk m && decide (a < 2 ^ 48)
  | .blkLockSet m w v => masterOk m && windowOk w && decide (v < 2 ^ 32)
  | .mailboxRequest m w v => masterOk m && windowOk w && decide (v < 2 ^ 32)
  | .mailboxKeepPart m w v => masterOk m && windowOk w && decide (v < 2 ^ 32)
  | .mailboxSnapshotValid w => windowOk w
  | .irqRouteRewrite m n v => masterOk m && decide (n < 512) && decide (v < 2 ^ 32)
  | .paceLoopTick => true
  | .paceLost n => domainOk n
  | .sentinelFail n => domainOk n
  | .foxVsetWrite m n v => masterOk m && domainOk n && decide (v < 2 ^ 32)
  | .foxMeasUpdate ix v => decide (ix < 64) && decide (v < 2 ^ 32)
  | .foxRuleTick => true
  | .foxRuleWrite m n ix v => masterOk m && decide (n < 128) && decide (ix < 4) && decide (v < 2 ^ 32)
  | .foxFgrpWrite m n v => masterOk m && decide (n < 32) && decide (v < 2 ^ 32)
  | .batteryRunEnter => true
  | .battShed => true
  | .batteryRunExit => true
  | .vsetAudit n => domainOk n
  | .auditPendingAdmit => true
  | .auditDrain _ => true
  | .auditExportPush => true
  | .audExpAckWrite m v => masterOk m && decide (v < 2 ^ 32)
  | .auditGapRecord => true
  | .audCtrlWrite m v => masterOk m && decide (v < 2 ^ 32)
  | .queueWordWrite q _ v => primOk q && decide (v < 2 ^ 32)
  | .queueHoldResume q => primOk q
  | .queueItemTimeout q => primOk q
  | .spillStageMove q _ => primOk q
  | .queueThrClear m q => masterOk m && primOk q
  | .queueThreshWrite m q v => masterOk m && primOk q && decide (v < 2 ^ 32)
  | .queueStranded q => primOk q
  | .queueFlush m q v => masterOk m && primOk q && decide (v < 2 ^ 32)
  | .queuePop m q => masterOk m && primOk q
  | .queuePopCancel m q => masterOk m && primOk q
  | .queuePopServed q => primOk q
  | .qmgSpillWrite m slot _ v => masterOk m && decide (slot < 8) && decide (v < 2 ^ 32)
  | .ingressHeaderEnd p _ _ => decide (p < 29)
  | .frameAdmit p _ _ => decide (p < 29)
  | .cbResetTimeout n => decide (n < 256)
  | .egressSelect p => switchPort p
  | .ageingSweep => true
  | .egressTxComplete p => switchPort p
  | .timedLaunchDue q => decide (q < 1024)
  | .shaperIdleWrite m q v => masterOk m && decide (q < 1024) && decide (v < 2 ^ 32)
  | .gclEntryAdvance p => decide (p < 29)
  | .gclChange m p v => masterOk m && decide (p < 29) && decide (v < 2 ^ 32)
  | .gclCancel m p v => masterOk m && decide (p < 29) && decide (v < 2 ^ 32)
  | .gclChangeTakeEffect p => decide (p < 29)
  | .portDisable m p v => masterOk m && switchPort p && decide (v < 2 ^ 32)
  | .portPurge m p v => masterOk m && switchPort p && decide (v < 2 ^ 32)
  | .portEnable m p v => masterOk m && switchPort p && decide (v < 2 ^ 32)
  | .ethLinkDown p => decide (p < 29)
  | .ethLinkUp p rate => decide (p < 29) && decide (0 < rate)
  | .pendLearnExpire => true
  | .tblSearch _ => true
  | .tblInsert _ => true
  | .tblDelete _ => true
  | .tblNext _ => true
  | .tblFlushByPort _ => true
  | .tblAgeSweep _ => true
  | .tblRehashMove _ => true
  | .hcbCommit m a v => masterOk m && decide (a < 2 ^ 48) && decide (v < 2 ^ 32)
  | .hcbShadowEnWrite m a v => masterOk m && decide (a < 2 ^ 48) && decide (v < 2 ^ 32)
  | .tableAgerTick => true
  | .canFrameReceived n _ f => decide (n < 24) && canOk f
  | .canRxError n code _ _ => decide (n < 24) && decide (code < 8)
  | .canTxSelect n => decide (n < 24)
  | .canArbLost n => decide (n < 24)
  | .canTxError n code _ _ => decide (n < 24) && decide (code < 8)
  | .canTxComplete n => decide (n < 24)
  | .canRecover m n v => masterOk m && decide (n < 24) && decide (v < 2 ^ 32)
  | .canBusoffRecovered n => decide (n < 24)
  | .canEnable m n v => masterOk m && decide (n < 24) && decide (v < 2 ^ 32)
  | .canDisable m n v => masterOk m && decide (n < 24) && decide (v < 2 ^ 32)
  | .canOffHeadCheck n => decide (n < 24)
  | .tpSessionOpen n f => decide (n < 24) && canOk f
  | .tpDtReceived n f => decide (n < 24) && canOk f
  | .tpAbortReceived n f => decide (n < 24) && canOk f
  | .tpTimeout n sa da pgn => decide (n < 24) && decide (sa < 256) && decide (da < 256) && decide (pgn < 2 ^ 18)
  | .tpTxSessionStart n tag => decide (n < 24) && decide (tag < 2 ^ 32)
  | .tpTxSegmentTimeout n tag => decide (n < 24) && decide (tag < 2 ^ 32)
  | .tpTxSessionEnd n tag _ => decide (n < 24) && decide (tag < 2 ^ 32)
  | .tunnelTerminate => true
  | .linSlotStart n => decide (n < 8)
  | .linScheduleSwitch m n v => masterOk m && decide (n < 8) && decide (v < 2 ^ 32)
  | .linBufferTake n => decide (n < 8)
  | .linHeaderReceived n id => decide (n < 8) && decide (id < 64)
  | .linResponseReceived n outcome data => decide (n < 8) && decide (outcome < 8) && decide (data.length ≤ 8)
  | .linFrameComplete n => decide (n < 8)
  | .linWakeSend m n v => masterOk m && decide (n < 8) && decide (v < 2 ^ 32)
  | .linWakeRx n => decide (n < 8)
  | .linBusIdle n => decide (n < 8)
  | .meHang n => decide (n < 16)
  | .cellWrite m cell _ ws => masterOk m && decide (cell < 65536) && decide (0 < ws.length) && decide (ws.length ≤ 16)
  | .staleSweep => true
  | .packPeriodicEmit n => decide (n < 8192)
  | .packDeferredEmit n => decide (n < 8192)
  | .routeImageLoad src ring => decide (src < 2 ^ 48) && decide (ring < 256)
  | .sigLoad m v => masterOk m && decide (v < 2 ^ 32)
  | .sigLoadClear m v => masterOk m && decide (v < 2 ^ 32)
  | .sigLoadDone => true
  | .riArm m v => masterOk m && decide (v < 2 ^ 32)
  | .epochSwitchRequest m v => masterOk m && decide (v < 2 ^ 32)
  | .epochSwitchCancel m v => masterOk m && decide (v < 2 ^ 32)
  | .routeEpoch => true
  | .pdelayReqSend p => decide (p < 29)
  | .pdelayReqReceived p seq _ peer => decide (p < 29) && decide (seq < 65536) && decide (peer.length = 10)
  | .pdelaySample p _ _ _ _ => decide (p < 29)
  | .pdelayResponseTimeout p => decide (p < 29)
  | .syncReceived p domain seq _ _ _ _ _ => decide (p < 29) && decide (domain < 256) && decide (seq < 65536)
  | .followUpReceived p domain seq _ _ _ => decide (p < 29) && decide (domain < 256) && decide (seq < 65536)
  | .followUpTimeout n => decide (n < 3)
  | .ofsInWrite m n v => masterOk m && decide (n < 3) && decide (v < 2 ^ 32)
  | .tbStep m n => masterOk m && decide (n < 3)
  | .tbHold m n => masterOk m && decide (n < 3)
  | .tbRelease m n => masterOk m && decide (n < 3)
  | .tbClrUnres m n => masterOk m && decide (n < 3)
  | .slavePortWrite m n v => masterOk m && decide (n < 3) && decide (v < 2 ^ 32)
  | .servoHoldover n => decide (n < 3)
  | .holdRelease n => decide (n < 3)
  | .ppsEdge _ _ => true
  | .zdaSentence _ => true
  | .ppsLost => true
  | .ppsOutPulse => true
  | .tb3Save _ => true
  | .refFail _ => true
  | .refReturn => true
  | .pleUpdate => true
  | .pleMwGo m v => masterOk m && decide (v < 2 ^ 32)
  | .modelPosTimeout => true
  | .pleOrderPoint => true
  | .pleOrderSpan => true
  | .pleOrderLine => true
  | .pleOrderLineSpan => true
  | .pleCancel => true
  | .pleCommit => true
  | .pleOrderExpire => true
  | .pleCloseRetry => true
  | .closeFail => true
  | .pleEnable m v => masterOk m && decide (v < 2 ^ 32)
  | .pleDisable m v => masterOk m && decide (v < 2 ^ 32)
  | .pleLoad m v => masterOk m && decide (v < 2 ^ 32)
  | .pleLoadClear m v => masterOk m && decide (v < 2 ^ 32)
  | .pleLoadDone => true
  | .txDoorbell m n v => masterOk m && decide (n < 256) && decide (v < 2 ^ 32)
  | .rxDoorbell m n v => masterOk m && decide (n < 256) && decide (v < 2 ^ 32)
  | .cqDoorbell m n v => masterOk m && decide (n < 128) && decide (v < 2 ^ 32)
  | .tcDoorbell m n v => masterOk m && decide (n < 16) && decide (v < 2 ^ 32)
  | .txDescFetch n _ => decide (n < 256)
  | .orderFetch n _ => decide (n < 256)
  | .tcRingFetch n _ => decide (n < 16)
  | .rxDeliver q _ => decide (q < 1024)
  | .completionWrite c _ => decide (c < 128)
  | .cmplStall c => decide (c < 128)
  | .cqModTimer => true
  | .ringEnable m k n v => masterOk m && ringNumberOk k n && decide (v < 2 ^ 32)
  | .ringDisable m k n v => masterOk m && ringNumberOk k n && decide (v < 2 ^ 32)
  | .pcieFunctionStop f _ => decide (f < 8)
  | .hmbInPost m f v => masterOk m && decide (f < 8) && decide (v < 2 ^ 32)
  | .hmbOutPost m f v => masterOk m && decide (f < 8) && decide (v < 2 ^ 32)
  | .hmbInTaken m f v => masterOk m && decide (f < 8) && decide (v < 2 ^ 32)
  | .hmbOutTaken m f v => masterOk m && decide (f < 8) && decide (v < 2 ^ 32)
  | .aqeneOffer party _ => decide (party < 2 ^ 16)
  | .aqeneConfirm party _ => decide (party < 2 ^ 16)
  | .aqeneAnswer party _ => decide (party < 2 ^ 16)
  | .aqenePeerAppear party => decide (party < 2 ^ 16)
  | .aqeneRetry party => decide (party < 2 ^ 16)
  | .bar4Access write _ n bs => decide (0 < n) && (!write || bs.length == n)
  | .vfDoorbellWrite v j val => decide (0 < v) && decide (v < 8) && decide (j < 32) && decide (val < 2 ^ 32)
  | .outboundRead m a n => masterOk m && regionOk 0x800000000000 0xFFFFFFFFFFFF a && decide (0 < n)
  | .outboundWrite m a bs => masterOk m && regionOk 0x800000000000 0xFFFFFFFFFFFF a && !bs.isEmpty
  | .outboundCompletion _ status _ => decide (status < 8)
  | .outboundReadTimeout => true
  | .prefetchLineExpire => true
  | .hbrErrAck m v => masterOk m && decide (v < 2 ^ 32)
  | .pcieLinkReset => true
  | .pcieLinkUp _ _ fns => fns.all fun f => decide (f < 8)
  | .actWindowReset => true
  | .grdLoad m v => masterOk m && decide (v < 2 ^ 32)
  | .grdLoadClear m v => masterOk m && decide (v < 2 ^ 32)
  | .grdLoadDone => true
  | .guardManifestApply src => decide (src < 2 ^ 48)
  | .grdApply m v => masterOk m && decide (v < 2 ^ 32)
  | .grdApplyFail m v => masterOk m && decide (v < 2 ^ 32)
  | .safeSetRepeat => true
  | .faultForce m w v => masterOk m && windowOk w && decide (v < 2 ^ 32)
  | .faultAck m w v => masterOk m && windowOk w && decide (v < 2 ^ 32)
  | .faultStatusClear m w v => masterOk m && windowOk w && decide (v < 2 ^ 32)
  | .aliveKick m v => masterOk m && decide (v < 2 ^ 32)
  | .aliveStop => true
  | .aliveStopCmd m v => masterOk m && decide (v < 2 ^ 32)
  | .aliveRestart m v => masterOk m && decide (v < 2 ^ 32)
  | .kickWindowExpire => true
  | .firstKickExpire => true
  | .kickHalfTimeout => true
  | .safePwrOn => true
  | .safePwrOff _ => true
  | .detectorMismatch _ => true
  | .safePwrLimit => true
  | .safePwrTrip => true
  | .safePwrRetry => true
  | .safePwrThermal _ => true
  | .keeperHang => true
  | .slotLoad m n => masterOk m && decide (n < 512)
  | .slotRevoke m n => masterOk m && decide (n < 512)
  | .slotZeroiseDone n => decide (n < 512)
  | .jobGcmEnc m slot dst len src out aux => masterOk m && jobOk slot dst len src out aux
  | .jobGcmDec m slot dst len src out aux => masterOk m && jobOk slot dst len src out aux
  | .jobCmac m slot dst len src out aux => masterOk m && jobOk slot dst len src out aux
  | .jobCtr m slot dst len src out aux => masterOk m && jobOk slot dst len src out aux
  | .jobKdfChild m slot dst len src out aux => masterOk m && jobOk slot dst len src out aux
  | .jobKdf8021x m slot dst len src out aux => masterOk m && jobOk slot dst len src out aux
  | .jobUnwrap m slot dst len src out aux => masterOk m && jobOk slot dst len src out aux
  | .jobDeriveRoot m slot dst len src out aux => masterOk m && jobOk slot dst len src out aux
  | .jobDone _ core => (match core with | some c => decide (c < 8) | none => true)
  | .tamperAssert _ _ _ => true
  | .cipherAlarm cause _ => decide (2 ≤ cause) && decide (cause ≤ 5)
  | .cipAlarmAck m v => masterOk m && decide (v < 2 ^ 32)
  | .saInstall m n => masterOk m && decide (n < 2 ^ 15)
  | .saRetire m n => masterOk m && decide (n < 2 ^ 15)
  | .saRead m n => masterOk m && decide (n < 2 ^ 15)
  | .fvSet m n => masterOk m && decide (n < 4096)
  | .lcRequest m v => masterOk m && decide (v < 2 ^ 32)
  | .vaultStore m slot id _ => masterOk m && decide (slot < 512) && decide (id < 2048)
  | .vaultLoad m slot id => masterOk m && decide (slot < 512) && decide (id < 2048)
  | .vaultDelete m id _ => masterOk m && decide (id < 2048)
  | .attestRequest m v => masterOk m && decide (v < 2 ^ 32)
  | .attestDone => true
  | .rngRead m => masterOk m
  | .orphanSweep => true
  | .replayGo m v => masterOk m && decide (v < 2 ^ 32)
  | .discardSet m v => masterOk m && decide (v < 2 ^ 32)
  | .ledgerReplayPush => true
  | .replayFeedTake => true
  | .replayDeadline => true
  | .domainGate m v => masterOk m && decide (v < 2 ^ 32)
  | .domainWake m v => masterOk m && decide (v < 2 ^ 32)
  | .powerGoodTimeout d => decide (d < 16)
  | .standbyRequest m => masterOk m
  | .sleepRequest m => masterOk m
  | .autoSleep => true
  | .standbyTimeout => true
  | .tc10SleepAck n => decide (n < 29)
  | .tc10AckTimeout => true
  | .wakeSource k _ _ => decide (k < 16)
  | .keyInChange _ => true
  | .wakeFwdCanFrame => true
  | .pwrBlkRst m v => masterOk m && decide (v < 2 ^ 32)
  | .blockResetDone d => decide (d < 16)
  | .pwrCoreRst m v => masterOk m && decide (v < 2 ^ 32)
  | .pwrChipRst m v => masterOk m && decide (v < 2 ^ 32)
  | .resetN _ _ _ => true
  | .chipReset => true
  | .boot _ => true
  | .coldPowerOn v => decide (v < 3)
  | .powerFailWarning _ => true
  | .powerFailRecovered => true
  | .outputLost => true
  | .railFault d => decide (d < 16)
  | .overTemp => true
  | .oscFail => true
  | .updWriteBlock m v => masterOk m && decide (v < 2 ^ 32)
  | .updErase m v => masterOk m && decide (v < 2 ^ 32)
  | .updActivate m v => masterOk m && decide (v < 2 ^ 32)
  | .updConfirm m v => masterOk m && decide (v < 2 ^ 32)
  | .updFailTrial m v => masterOk m && decide (v < 2 ^ 32)
  | .updRouteTry m v => masterOk m && decide (v < 2 ^ 32)
  | .updRouteCommit m v => masterOk m && decide (v < 2 ^ 32)
  | .updGuardCommit m v => masterOk m && decide (v < 2 ^ 32)
  | .updRecover m v => masterOk m && decide (v < 2 ^ 32)
  | .updInplace m v => masterOk m && decide (v < 2 ^ 32)
  | .updSetBlevel m v => masterOk m && decide (v < 2 ^ 32)
  | .updCmdDone _ => true
  | .residentLoader => true
  | .recInfoReq party _ => decide (party < 2 ^ 16)
  | .recWrite party _ => decide (party < 2 ^ 16)
  | .recCommit party _ => decide (party < 2 ^ 16)
  | .recStageDram party _ => decide (party < 2 ^ 16)
  | .recReboot party _ => decide (party < 2 ^ 16)
  | .configExport m mA mB => masterOk m && decide (mA < 2 ^ 48) && decide (mB < 2 ^ 48)
  | .configImport m src _ mA mB => masterOk m && decide (mA < 2 ^ 48) && decide (mB < 2 ^ 48) && decide (src < 2 ^ 48)
  | .dramEccError m a _ => masterOk m && decide (a < 2 ^ 48)
  | .slotEcc n => decide (n < 512)
  | .sramEcc _ => true

end Sys2Proof
end

