-- ==== Sys2Proof/Certificates/Slice0/Obligations.lean ====
section
/-! DEFINITION. The statements for the provers: what the commands and the machine do, from the numbered rules of the spec. In
each clause `t` is the state that the command itself leaves; where a clause says `Leaves`, what waited is served after it. -/

section

open Sys2Proof Sys2Proof.Machine

/-! ### The machine -/

/-- A step with a command at the front of the queue is that command's meaning on the state with the queue's rest. -/
def Obligations.StepRunsFrontCommand : Prop :=
  ∀ (s : State) (c : Instr) (rest : List Instr), s.pending = c :: rest → step s = exec c { s with pending := rest }

/-- A step with an empty queue is one tick of the counting clock (assumption 3): with the reference present and the module not
asleep, TB3 and each enabled base 0-2 advance by 4 ns x (1 + RATE) (R287), a disabled base stands, and beside the bases
only the operating time moves. -/
def Obligations.IdleStepTicks : Prop :=
  ∀ s : State, s.pending = [] → s.tim.refOk = true → s.pwr.mode ≠ .sleep → powered s 15 = true →
    Ends (step s) fun t =>
      t.tim.tb3.val = s.tim.tb3.val + tickAdd (4 * frac32) s.tim.tb3.rate ∧
      (∀ n < 3, (t.tb n).val =
        if s.regBit (R.TIM_TB_CFG n) 0 then (s.tb n).val + tickAdd (4 * frac32) (s.tb n).rate else (s.tb n).val) ∧
      SameBut [.tim, .pwr] s t ∧ t.pwr = { s.pwr with runNs := t.pwr.runNs }

/-- Every command ends in a next state: no command stops the block, and none takes or adds a command of the queue. -/
def Obligations.CommandsNeverStopNorTouchTheQueue : Prop :=
  ∀ (c : Instr) (s : State), Ends (exec c s) fun t => t.pending = s.pending

/-- Each step keeps both memories in their one form: addresses strictly rising, and no entry equal to what an unlisted address
reads as (assumption 2). -/
def Obligations.StepKeepsMemoryForm : Prop :=
  ∀ s t : State, MemoryOk s → step s = .next t → MemoryOk t

/-- The state after reset has both memories in their one form. -/
def Obligations.ResetMemoryForm : Prop :=
  MemoryOk State.reset

/-! ### Accesses (R8, R22-R24, R36, R81, R85, R86) -/

/-- REGISTER_WRITE, RC_READ, BIT_ALIAS_WRITE: a plain RW register takes the written value in its field bits; an RC register gives
its value and then clears; a bit written by its own word changes alone. -/
def Obligations.RegisterAccesses : Prop :=
  (∀ (s : State) (m : Master) (a v : Nat) (l : Loc), Writable s m a v l → Plain l →
    Leaves (exec (.registerWrite m a 4 v) s) fun t =>
      t.reg a = (s.reg a &&& ~~~ regMask l) ||| (word v &&& regMask l) ∧ t.sys.bus = .done ∧
      SameBut logParts s t ∧ RegsBut [a] s t) ∧
  (∀ (s : State) (m : Master) (a : Nat) (l : Loc), Reaches s m → a % 4 = 0 → regAt a = some l → l.row.acc = .rc →
    alive s (domainOf l.win) = true → windowGranted s m l.win = true → (l.row.sec = true → secureMaster s m = true) →
    a ≠ R.KEY_RNG →
    Leaves (exec (.rcRead m a 4) s) fun t =>
      t.sys.bus = .data (s.liveAt l).toNat ∧ t.reg a = l.row.reset ∧
      SameBut [.regs, .sys] s t ∧ RegsBut [a] s t) ∧
  (∀ (s : State) (m : Master) (r b v : Nat) (l : Loc),
    Writable s m r (putBit (s.reg r) b (v % 2 == 1)).toNat l → Plain l → internalMaster s m = true → b < 32 →
    (l.row.log = true → (s.holding = false ∨ safetyWrite m r = true)) →
    Leaves (exec (.bitAliasWrite m (bitAddress r b) v) s) fun t =>
      (∀ k < 32, bitOf (t.reg r) k = if k = b ∧ bitOf (regMask l) b then v % 2 == 1 else bitOf (s.reg r) k) ∧
      t.sys.bus = .done ∧ SameBut logParts s t ∧ RegsBut [r] s t)

/-- UNMAPPED_ACCESS, GATED_WINDOW_ACCESS, ACCESS_SIZE_ERROR, PARTITION_DRAM_DENY: an access that no target takes ends in an error
and writes nothing but the records of the error.

HELD_ACCESS_RELEASE: of the accesses held by a BLOCK reset, the first whose block has left it leaves the list and completes
normally, as the same access made then (R23); while none has, nothing changes.
The model's choices in it: assumption 15. -/
def Obligations.AccessErrors : Prop :=
  (∀ (s : State) (m : Master) (a n : Nat) (w : Bool), inbound m = false → debugClosed s m = false →
    (regionOf a = .unmapped ∨ (regionOf a = .regs ∧ winOf a = none)) →
    Ends (exec (.unmappedAccess m a n w) s) fun t => t.sys.bus = .error ∧ SameBut [.sys] s t) ∧
  (∀ (s : State) (m : Master) (a n : Nat), inbound m = true → regionOf a = .unmapped →
    Ends (exec (.unmappedAccess m a n false) s) fun t => t.sys.bus = .unsupported ∧ SameBut [.sys] s t) ∧
  (∀ (s : State) (m : Master) (a n v w off : Nat) (wr : Bool), inbound m = false → winOf a = some (w, off) →
    powered s (domainOf w) = false →
    Ends (exec (.gatedWindowAccess m a n wr v) s) fun t => t.sys.bus = .error ∧ SameBut [.sys] s t) ∧
  (∀ (s : State) (m : Master) (a : Nat) (bs : Bytes) (w off : Nat) (wr : Bool), inbound m = false →
    debugClosed s m = false → winOf a = some (w, off) → powered s (domainOf w) = true → bs ≠ [] →
    sizeOk a bs.length wr = false → (wr = true → (wordReg a).all (fun l => !l.row.log) = true) →
    Ends (exec (.accessSizeError m a wr bs) s) fun t =>
      t.sys.bus = .error ∧ t.reg R.SYS_SIZE_ERR_CNT = satInc (s.reg R.SYS_SIZE_ERR_CNT) ∧
      (s.reg R.SYS_SIZE_ERR_CNT = 0 → t.reg R.SYS_SIZE_ERR_ADDR = word a) ∧
      SameBut [.sys, .regs] s t ∧
      RegsBut [R.SYS_SIZE_ERR_CNT, R.SYS_SIZE_ERR_ADDR, R.SYS_SIZE_ERR_INFO] s t) ∧
  (∀ (s : State) (m : Master) (a : Nat), 0 < partitionOf s m → regionOf a = .dram → s.inPartition m a 1 = false →
    Ends (exec (.partitionDramDeny m a) s) fun t =>
      t.sys.bus = .error ∧ t.reg R.SYS_DENY_CNT = satInc (s.reg R.SYS_DENY_CNT) ∧
      (s.reg R.SYS_DENY_CNT = 0 →
        t.reg R.SYS_DENY_ADDR_LO = word a ∧ t.reg R.SYS_DENY_ADDR_HI = word (a / 2 ^ 32 % 65536)) ∧
      SameBut [.sys, .regs] s t ∧ RegsBut [R.SYS_DENY_CNT, R.SYS_DENY_ADDR_LO, R.SYS_DENY_ADDR_HI] s t) ∧
  (∀ (s : State) (xs ys : List HeldAccess) (h : HeldAccess), s.sys.held = xs ++ h :: ys →
    (∀ x ∈ xs, inReset s (holdDomain x.addr) = true) → inReset s (holdDomain h.addr) = false →
    exec .heldAccessRelease s = exec (if h.write then .registerWrite h.m h.addr h.size h.value
      else .rcRead h.m h.addr h.size) { s with sys := { s.sys with held := xs ++ ys } }) ∧
  (∀ (s : State) (m : Master) (a v : Nat) (l : Loc) (ys : List HeldAccess), s.sys.held = ⟨m, a, 4, true, v⟩ :: ys →
    Writable { s with sys := { s.sys with held := ys } } m a v l → Plain l →
    Leaves (exec .heldAccessRelease s) fun t =>
      t.sys.held = ys ∧ t.reg a = (s.reg a &&& ~~~ regMask l) ||| (word v &&& regMask l) ∧ SameBut logParts s t)

/-! ### Every window: lock, mailbox, routes (R43, R76, R83, R84) -/

/-- BLK_LOCK_SET, MAILBOX_REQUEST, MAILBOX_KEEP_PART, MAILBOX_SNAPSHOT_VALID: a 1 sets LOCK; a request clears VALID, takes the
value that SELECTOR names, records the origin and counts GEN; KEEP changes the part shown alone; the snapshot then becomes
valid.

IRQ_ROUTE_REWRITE: the entry takes the written value; a line that stands is posted once to a PCIe function that the new
entry names and that has not had it for this assertion, and to no function otherwise (R43). -/
def Obligations.LockMailboxAndRoutes : Prop :=
  (∀ (s : State) (m : Master) (w v : Nat) (l : Loc), winOk w = true → Writable s m (winBase w + 0x20) v l →
    bitOf (word v) 0 = true →
    Leaves (exec (.blkLockSet m w v) s) fun t =>
      t.regBit (winBase w + 0x20) 0 = true ∧ SameBut logParts s t ∧ RegsBut [winBase w + 0x20] s t) ∧
  (∀ (s : State) (m : Master) (w v : Nat) (l : Loc), winOk w = true →
    Writable s m (winBase w + 0x30) (sansBit v 31) l → ¬ (w = 9 ∧ fld (word v) 15 0 = 1) →
    Leaves (exec (.mailboxRequest m w v) s) fun t =>
      (∃ b, kvGet? t.sys.mbox w = some b ∧ b.data = (s.mboxData w (fld (word v) 15 0)).getD [] ∧
        b.part = fld (word v) 17 16 ∧ b.valid = false ∧ b.origin = m.origin ∧
        b.gen = ((kvGet s.sys.mbox w Mailbox.empty).gen + 1) % 256 ∧
        b.badsel = decide (b.data.length ≤ 4 * fld (word v) 17 16)) ∧
      SameBut eventParts s t ∧ RegsBut [] s t) ∧
  (∀ (s : State) (m : Master) (w v : Nat) (l : Loc), winOk w = true →
    Writable s m (winBase w + 0x30) (withBit v 31) l →
    Leaves (exec (.mailboxKeepPart m w v) s) fun t =>
      kvGet? t.sys.mbox w = some { kvGet s.sys.mbox w Mailbox.empty with
        part := fld (word v) 17 16
        badsel := decide ((kvGet s.sys.mbox w Mailbox.empty).data.length ≤ 4 * fld (word v) 17 16) } ∧
      SameBut eventParts s t ∧ RegsBut [] s t) ∧
  (∀ (s : State) (w : Nat) (b : Mailbox), winOk w = true → alive s (domainOf w) = true →
    kvGet? s.sys.mbox w = some b →
    Ends (exec (.mailboxSnapshotValid w) s) fun t =>
      kvGet? t.sys.mbox w = some { b with valid := true } ∧ SameBut [.sys] s t) ∧
  (∀ (s : State) (m : Master) (n v : Nat) (l : Loc), n < 512 → Writable s m (R.SYS_IRQ_ROUTE n) v l →
    s.holding = false → s.unexported + 2 < ringEntries - s.regFld R.AUD_CTRL 31 16 →
    (∀ w < 128, ∀ k < 3, s.lineLevel w k = s.sys.irqUp.contains (w * 4 + k)) →
    Leaves (exec (.irqRouteRewrite m n v) s) fun t =>
      t.reg (R.SYS_IRQ_ROUTE n) = (s.reg (R.SYS_IRQ_ROUTE n) &&& ~~~ regMask l) ||| (word v &&& regMask l) ∧
      (fld (t.reg (R.SYS_IRQ_ROUTE n)) 25 16 < msixEntries (fld (t.reg (R.SYS_IRQ_ROUTE n)) 28 26) →
        let f := fld (t.reg (R.SYS_IRQ_ROUTE n)) 28 26
        t.out = if s.sys.irqUp.contains n ∧ bitOf (t.reg (R.SYS_IRQ_ROUTE n)) 31 ∧
            fld (t.reg (R.SYS_IRQ_ROUTE n)) 30 29 = 2 ∧ f ∉ kvGet s.sys.irqSent n [] ∧ s.fnReady f
          then s.out ++ [.msix f (fld (t.reg (R.SYS_IRQ_ROUTE n)) 25 16)] else s.out) ∧
      SameBut logParts s t ∧ RegsBut [R.SYS_IRQ_ROUTE n] s t)

/-! ### Pace and the policy engine (R52-R70) -/

/-- FOX_VSET_WRITE, FOX_RULE_WRITE, FOX_FGRP_WRITE: an accepted write sets the supply, the rule word or the group record, with
its audit entry where the register is logged.

FOX_RULE_TICK: an enabled rule whose condition has held for its dwell becomes active, is hit, and its EVENT action sets the
event bit it names (R62, R63); with RULES_EN clear a tick changes no rule. -/
def Obligations.PolicyRules : Prop :=
  (∀ (s : State) (m : Master) (n v : Nat) (l : Loc), 1 ≤ n → n ≤ 15 → Writable s m (R.FOX_VSET_PD n) v l →
    Leaves (exec (.foxVsetWrite m n v) s) fun t =>
      t.reg (R.FOX_VSET_PD n) = (s.reg (R.FOX_VSET_PD n) &&& ~~~ regMask l) ||| (word v &&& regMask l) ∧ SameBut logParts s t ∧ RegsBut [R.FOX_VSET_PD n] s t) ∧
  (∀ (s : State) (m : Master) (n ix v : Nat) (l : Loc), n < 128 → ix < 4 → Writable s m (R.FOX_RULE n ix) v l →
    (ix = 0 → bitOf (word v) 31 = true ∨ s.regBit (R.FOX_RULE n 0) 31 = false) →
    Leaves (exec (.foxRuleWrite m n ix v) s) fun t =>
      t.reg (R.FOX_RULE n ix) = (s.reg (R.FOX_RULE n ix) &&& ~~~ regMask l) ||| (word v &&& regMask l) ∧
      SameBut logParts s t ∧ RegsBut [R.FOX_RULE n ix] s t) ∧
  (∀ (s : State) (m : Master) (n v : Nat) (l : Loc), n < 128 → Writable s m (R.FOX_RULE n 0) v l →
    bitOf (word v) 31 = false → n ∉ s.fox.active →
    Leaves (exec (.foxRuleWrite m n 0 v) s) fun t =>
      t.regBit (R.FOX_RULE n 0) 31 = false ∧ kvGet? t.fox.cnt n = (if s.regBit (R.FOX_RULE n 0) 31 then none
        else kvGet? s.fox.cnt n) ∧ SameBut (.fox :: logParts) s t ∧ RegsBut [R.FOX_RULE n 0] s t) ∧
  (∀ (s : State) (m : Master) (n v : Nat) (l : Loc), n < 32 → Writable s m (R.FOX_FGRP n) v l →
    Leaves (exec (.foxFgrpWrite m n v) s) fun t =>
      t.reg (R.FOX_FGRP n) = (s.reg (R.FOX_FGRP n) &&& ~~~ regMask l) ||| (word v &&& regMask l) ∧
      SameBut logParts s t ∧ RegsBut [R.FOX_FGRP n] s t) ∧
  (∀ (s : State) (n : Nat), alive s 2 = true → s.regBit R.FOX_CTRL 0 = true → n < 128 →
    (∀ k < 128, k ≠ n → bitOf (s.rule k 0) 31 = false) → bitOf (s.rule n 0) 31 = true → n ∉ s.fox.active →
    s.measOk (fld (s.rule n 0) 29 24) = true →
    s.ruleMeets n (s.takeAll.meas (fld (s.rule n 0) 29 24)) false = true →
    fld (s.rule n 0) 15 0 ≤ kvGet s.fox.cnt n 0 + 1 → s.ruleAction n ≤ 1 → LogRoom s →
    Leaves (exec .foxRuleTick s) fun t =>
      t.fox.active = s.fox.active ++ [n] ∧ kvGet? t.fox.cnt n = none ∧ t.regBit (R.FOX_HIT (n / 32)) (n % 32) = true ∧
      (s.ruleAction n = 1 → t.regBit R.FOX_EVT_STATUS (fld (s.rule n 3) 4 0) = true) ∧
      SameBut (.fox :: logParts) s t ∧
      RegsBut (R.FOX_HIT (n / 32) :: R.FOX_ACT_CNT :: R.PAC_PACE_PD 0 :: (List.range 64).map R.FOX_MEAS) s t) ∧
  (∀ s : State, alive s 2 = true → s.regBit R.FOX_CTRL 0 = false →
    Ends (exec .foxRuleTick s) fun t =>
      t.fox = { s.fox with rates := t.fox.rates } ∧ SameBut [.regs, .fox] s t ∧
      RegsBut (R.PAC_PACE_PD 0 :: (List.range 64).map R.FOX_MEAS) s t)

/-- PACE_LOOP_TICK: each supply in the loop is raised by 10 mV up to 900 mV where the pace is near its floor or the supply below
its minimum, lowered by 10 mV once the pace has stood above the band long enough, and else kept (R53). -/
def Obligations.PaceLoop : Prop :=
  ∀ (s : State) (n : Nat), alive s 2 = true → 1 ≤ n → n ≤ 15 → s.regBit R.FOX_LOOP_EN n = true → powered s n = true →
    Ends (exec .paceLoopTick s) fun t =>
      let p := (s.reg (R.PAC_PACE_PD n)).toNat
      let floor := (s.reg (R.FOX_FLOOR_PD n)).toNat
      let hold := s.regFld R.FOX_CTRL 23 16
      let k := kvGet s.fox.held n 0 + 1
      t.reg (R.FOX_VSET_PD n) =
        (if p < floor + 8 ∨ s.vset n < s.vmin n then
          (if s.vset n < 900 then word (s.vset n + 10) else s.reg (R.FOX_VSET_PD n))
        else if floor + s.regFld R.FOX_CTRL 15 8 < p ∧ 0 < hold ∧ hold * 10 ≤ k ∧ s.vmin n + 10 ≤ s.vset n then
          word (s.vset n - 10)
        else s.reg (R.FOX_VSET_PD n)) ∧
      SameBut [.regs, .fox] s t ∧
      RegsBut (R.FOX_STATUS :: R.PAC_PACE_PD 0 :: (List.range' 1 15).map R.FOX_VSET_PD ++
        (List.range 64).map R.FOX_MEAS) s t

/-- PACE_LOST, SENTINEL_FAIL, VSET_AUDIT: a domain that stood below its floor for 1 ms at 900 mV sets PACE_LOST (R54); a domain
whose sentinels differ goes to 900 mV and leaves the loop (R55); a supply that has stood still for 100 ms is recorded with
its setting before and after (R70).

FOX_MEAS_UPDATE: the supply state, a domain's pace, and a sensor's value stand in their registers after the update, and the
lowest pace since its last read follows (R58).
The model's choices in it: assumption 37. -/
def Obligations.SuppliesAndMeasurements : Prop :=
  (∀ (s : State) (n t0 : Nat), kvGet? s.fox.below n = some t0 → t0 + 1000000 ≤ s.now → alive s 2 = true →
    n ∉ s.fox.paceLost → Mild s 2 1 →
    Ends (exec (.paceLost n) s) fun t =>
      t.regBit (fltReg 2 0) 1 = true ∧ t.fox.paceLost = s.fox.paceLost ++ [n] ∧
      SameBut (.fox :: eventParts) s t ∧ RegsBut (faultRegs 2) s t) ∧
  (∀ (s : State) (n : Nat), 1 ≤ n → n ≤ 15 → powered s n = true → Mild s 2 2 →
    Ends (exec (.sentinelFail n) s) fun t =>
      t.reg (R.FOX_VSET_PD n) = 900 ∧ t.regBit R.FOX_LOOP_EN n = false ∧ n ∈ t.fox.sentinel ∧
      t.regBit (fltReg 2 0) 2 = true ∧ SameBut (.fox :: eventParts) s t ∧
      RegsBut (R.FOX_VSET_PD n :: R.FOX_LOOP_EN :: faultRegs 2) s t) ∧
  (∀ (s : State) (n : Nat) (x : VsetMove), kvGet? s.fox.move n = some x → x.last + 100000000 ≤ s.now → LogRoom s →
    Ends (exec (.vsetAudit n) s) fun t =>
      Entered s t 8 0x84 (R.FOX_VSET_PD n) x.base (s.reg (R.FOX_VSET_PD n)) ∧ kvGet? t.fox.move n = none ∧
      SameBut (.fox :: logParts) s t ∧ RegsBut [] s t) ∧
  (∀ (s : State) (v : Nat), v < 3 →
    Ends (exec (.foxMeasUpdate 28 v) s) fun t =>
      t.reg (R.FOX_MEAS 28) = word v ∧ t.regFld R.FOX_STATUS 1 0 = v ∧ t.regBit R.PWR_STATUS 3 = decide (v < 2) ∧
      t.regBit R.PWR_STATUS 4 = decide (v ≠ 1) ∧ SameBut (.fox :: eventParts) s t ∧
      RegsBut [R.FOX_MEAS 28, R.FOX_STATUS, R.PWR_STATUS, R.ALV_STATUS] s t) ∧
  (∀ (s : State) (n v : Nat), 1 ≤ n → n ≤ 15 → v < 65536 → powered s n = true → alive s 2 = true →
    Ends (exec (.foxMeasUpdate n v) s) fun t =>
      t.reg (R.PAC_PACE_PD n) = word v ∧ t.reg (R.FOX_MEAS n) = word v ∧
      t.reg (R.PAC_PACE_LOW_PD n) = word (min v (s.reg (R.PAC_PACE_LOW_PD n)).toNat) ∧
      SameBut [.regs, .fox] s t ∧
      RegsBut [R.PAC_PACE_PD n, R.FOX_MEAS n, R.PAC_PACE_LOW_PD n, R.FOX_MEAS 0, R.PAC_PACE_PD 0, R.PAC_PACE_LOW_PD 0] s t) ∧
  (∀ (s : State) (i v : Nat), (16 ≤ i ∧ i ≤ 27) ∨ (40 ≤ i ∧ i < 48) ∨ i = 57 ∨ i = 59 → s.measOk i = true → alive s 2 = true →
    Ends (exec (.foxMeasUpdate i v) s) fun t =>
      t.reg (R.FOX_MEAS i) = word v ∧ SameBut [.regs] s t ∧ RegsBut [R.FOX_MEAS i, R.FOX_MEAS 58] s t)

/-- BATTERY_RUN_ENTER, BATT_SHED, BATTERY_RUN_EXIT: on battery alone the module is in BATTERY-RUN, and those of PD7, PD9 and PD10
that are powered are shed (R66); after 50 ms above the budget the next named domain is shed, and with none left BATT_OVER is
set (R67); 500 ms after mains has returned the module is in RUN and no domain is shed (R68).
The model's choices in it: assumption 38. -/
def Obligations.BatteryOperation : Prop :=
  (∀ s : State, s.pwr.mode = .run → s.regFld R.FOX_STATUS 1 0 = 2 → alive s 2 = true →
    Leaves (exec .batteryRunEnter s) fun t =>
      t.pwr.mode = .batteryRun ∧ t.regFld R.PWR_STATUS 2 0 = 2 ∧ t.regBit R.FOX_STATUS 2 = true ∧
      t.fox.shed = [7, 9, 10].filter (powered s)) ∧
  (∀ (s : State) (t0 d : Nat), s.pwr.mode = .batteryRun → alive s 2 = true →
    s.regFld R.FOX_BATT_CTRL 15 0 < s.meas 25 → s.fox.overAt = some t0 → t0 + 50000000 ≤ s.now →
    (∀ u, s.fox.lastShed = some u → u + 50000000 ≤ s.now) →
    ((List.range 16).find? fun d => s.regBit R.FOX_BATT_SHED_EXTRA d && powered s d && !s.fox.shed.contains d) = some d →
    Leaves (exec .battShed s) fun t =>
      t.fox.shed = s.fox.shed ++ [d] ∧ t.fox.lastShed = some s.now) ∧
  (∀ (s : State) (t0 : Nat), s.pwr.mode = .batteryRun → alive s 2 = true →
    s.regFld R.FOX_BATT_CTRL 15 0 < s.meas 25 → s.fox.overAt = some t0 → t0 + 50000000 ≤ s.now →
    (∀ u, s.fox.lastShed = some u → u + 50000000 ≤ s.now) →
    (∀ d < 16, s.regBit R.FOX_BATT_SHED_EXTRA d = true → powered s d = true → d ∈ s.fox.shed) → Mild s 2 3 →
    Ends (exec .battShed s) fun t =>
      t.regBit (fltReg 2 0) 3 = true ∧ SameBut eventParts s t ∧ RegsBut (faultRegs 2) s t) ∧
  (∀ (s : State) (t0 : Nat), s.fox.mains = some t0 → s.pwr.mode = .batteryRun → t0 + 500000000 ≤ s.now →
    s.regBit R.FOX_BATT_CTRL 16 = false → alive s 2 = true →
    Ends (exec .batteryRunExit s) fun t =>
      t.pwr.mode = .run ∧ t.regFld R.PWR_STATUS 2 0 = 1 ∧ t.regBit R.FOX_STATUS 2 = false ∧ t.fox.shed = [])

/-! ### The change record (R89-R103) -/

/-- AUDIT_PENDING_ADMIT, AUDIT_DRAIN, AUDIT_EXPORT_PUSH, AUDIT_GAP_RECORD: a waiting change is made once the buffer has room
(R90); the oldest pending entry is written to its place in the ring, and to no other byte (R95); a failed write check stops
logging (R103); the next entry of the ring joins the export queue (R96); the GAP record gives the number of changes that
went unlogged (R98).

AUD_EXP_ACK_WRITE, AUD_CTRL_WRITE: under HOLD an acknowledgement exports every entry up to and including the one it names
(R96), under WRAP it changes nothing; a change from HOLD to WRAP counts the popped entries as exported (R100). -/
def Obligations.AuditRecord : Prop :=
  (∀ (s : State) (x : WaitingWrite) (l : Loc), s.aud.waiting = [x] → s.auditReady = true →
    Writable { s with aud := { s.aud with waiting := [] } } x.m x.addr x.value.toNat l → Plain l →
    Leaves (exec .auditPendingAdmit s) fun t =>
      t.aud.waiting = [] ∧ t.reg x.addr = (s.reg x.addr &&& ~~~ regMask l) ||| (x.value &&& regMask l) ∧
      SameBut logParts s t ∧ RegsBut [x.addr] s t) ∧
  (∀ (s : State) (e : Bytes) (rest : List Bytes), s.aud.pend = e :: rest → s.aud.writeFail = false → alive s 2 = true →
    Ends (exec (.auditDrain true) s) fun t =>
      t.aud = { s.aud with pend := rest } ∧
      (∀ a, memGet t.mem a = if auditAt (entrySeq e) ≤ a ∧ a < auditAt (entrySeq e) + e.length
        then e.getD (a - auditAt (entrySeq e)) 0 else memGet s.mem a) ∧
      SameBut [.aud, .mem] s t) ∧
  (∀ s : State, s.aud.pend ≠ [] → s.aud.writeFail = false → alive s 2 = true → Mild s 3 2 →
    Ends (exec (.auditDrain false) s) fun t =>
      t.aud = { s.aud with writeFail := true } ∧ t.auditReady = false ∧ t.regBit (fltReg 3 0) 2 = true ∧
      SameBut logParts s t ∧ RegsBut (faultRegs 3) s t) ∧
  (∀ s : State, s.regBit R.AUD_CTRL 1 = true → alive s 2 = true → s.exportLost = false →
    s.aud.pend.length < (s.reg R.AUD_SEQ - s.aud.push).toNat → s.queueFull 1 = false →
    Ends (exec .auditExportPush s) fun t =>
      t.aud = { s.aud with push := s.aud.push + 1 } ∧
      (t.queue 1).items = (s.queue 1).items ++
        [⟨toWords (s.read (auditAt s.aud.push.toNat) 32), true, false, 0, s.now⟩] ∧
      SameBut logParts s t ∧ RegsBut [R.QP_STATUS 1, R.QP_PEAK 1] s t) ∧
  (∀ s : State, 0 < s.aud.gap → s.reserveOut = false → alive s 2 = true →
    Ends (exec .auditGapRecord s) fun t =>
      t.aud.gap = 0 ∧ Entered s t 0x0C 0x84 0xA0000001 0 (satWord s.aud.gap) ∧ t.regBit R.AUD_EVT_STATUS 2 = true ∧
      SameBut logParts s t ∧ RegsBut [] s t) ∧
  (∀ (s : State) (m : Master) (v : Nat) (l : Loc), Writable s m R.AUD_EXP_ACK v l → s.regBit R.AUD_CTRL 0 = false →
    (word v - s.reg R.AUD_EXP_SEQ).toNat < 2 ^ 31 →
    Leaves (exec (.audExpAckWrite m v) s) fun t =>
      t.reg R.AUD_EXP_SEQ = word v + 1 ∧ SameBut logParts s t ∧ RegsBut [R.AUD_EXP_SEQ, R.AUD_EXP_ACK] s t) ∧
  (∀ (s : State) (m : Master) (v : Nat) (l : Loc), Writable s m R.AUD_EXP_ACK v l → s.regBit R.AUD_CTRL 0 = true →
    Leaves (exec (.audExpAckWrite m v) s) fun t =>
      t.reg R.AUD_EXP_SEQ = s.reg R.AUD_EXP_SEQ ∧ SameBut logParts s t) ∧
  (∀ (s : State) (m : Master) (v : Nat) (l : Loc), Writable s m R.AUD_CTRL v l →
    Leaves (exec (.audCtrlWrite m v) s) fun t =>
      t.reg R.AUD_CTRL = (s.reg R.AUD_CTRL &&& ~~~ regMask l) ||| (word v &&& regMask l) ∧
      t.reg R.AUD_EXP_SEQ = (if s.regBit R.AUD_CTRL 0 = false ∧ t.regBit R.AUD_CTRL 0 = true ∧
          (s.aud.popped - s.reg R.AUD_EXP_SEQ).toNat < 2 ^ 31
        then s.aud.popped else s.reg R.AUD_EXP_SEQ) ∧
      SameBut logParts s t ∧ RegsBut [R.AUD_CTRL, R.AUD_EXP_SEQ] s t)

/-! ### Queue primitives (R106-R127) -/

/-- QUEUE_WORD_WRITE, QUEUE_HOLD_RESUME: a first word reserves a slot, a later word extends its producer's item, which is whole
with its last word (R109); with the queue full a flag-class item is ignored with OVERRUN and a hold-class producer waits
(R106), until there is space.

QUEUE_POP, QUEUE_POP_CANCEL, QUEUE_POP_SERVED: a pop gives the first whole item in the staging area and removes it, is EMPTY on
an empty flag-class queue, and pends on a hold-class one until an item comes or it is cancelled (R126); under WRAP a pop of the
audit export queue exports its entry (R96).
The model's choices in it: assumption 138. -/
def Obligations.QueueItems : Prop :=
  (∀ (s : State) (q p v : Nat), s.queueAlive q = true → EventsQuiet s q → kvGet? (s.queue q).skip p = none →
    (∀ i ∈ (s.queue q).items, i.done = false → i.prod ≠ p) → (∀ h ∈ (s.queue q).held, h.1 ≠ p) →
    s.queueFull q = false →
    Ends (exec (.queueWordWrite q p v) s) fun t =>
      QueueStep s t q ((s.queue q).items ++ [⟨[word v], decide (queueEntry q ≤ 4), false, p, s.now⟩])) ∧
  (∀ (s : State) (q p v : Nat) (xs ys : List QItem) (i : QItem), s.queueAlive q = true → EventsQuiet s q →
    kvGet? (s.queue q).skip p = none → (s.queue q).items = xs ++ i :: ys →
    (∀ x ∈ xs, x.done = false → x.prod ≠ p) → i.done = false → i.prod = p → i.marked = false →
    Ends (exec (.queueWordWrite q p v) s) fun t =>
      QueueStep s t q (xs ++ { i with
        words := i.words ++ [word v], done := decide (queueEntry q ≤ 4 * (i.words.length + 1)), last := s.now } :: ys)) ∧
  (∀ (s : State) (q p v : Nat), s.queueAlive q = true → EventsQuiet s q → kvGet? (s.queue q).skip p = none →
    (∀ i ∈ (s.queue q).items, i.done = false → i.prod ≠ p) → (∀ h ∈ (s.queue q).held, h.1 ≠ p) →
    s.queueFull q = true → queueHold q = false →
    Ends (exec (.queueWordWrite q p v) s) fun t =>
      t.reg (R.QP_OVR_CNT q) = satInc (s.reg (R.QP_OVR_CNT q)) ∧ t.regBit (R.QP_STATUS q) 3 = true ∧
      QueueStep s t q (s.queue q).items) ∧
  (∀ (s : State) (q p v : Nat), s.queueAlive q = true → EventsQuiet s q → kvGet? (s.queue q).skip p = none →
    (∀ i ∈ (s.queue q).items, i.done = false → i.prod ≠ p) → (∀ h ∈ (s.queue q).held, h.1 ≠ p) →
    s.queueFull q = true → queueHold q = true →
    Ends (exec (.queueWordWrite q p v) s) fun t =>
      (t.queue q).held = (s.queue q).held ++ [(p, word v)] ∧ QueueStep s t q (s.queue q).items) ∧
  (∀ (s : State) (q p : Nat) (w : Word) (rest : List (Nat × Word)), s.queueAlive q = true → EventsQuiet s q →
    (s.queue q).held = (p, w) :: rest → s.queueFull q = false →
    Ends (exec (.queueHoldResume q) s) fun t =>
      (t.queue q).held = rest ∧
      QueueStep s t q ((s.queue q).items ++ [⟨[w], decide (queueEntry q ≤ 4), false, p, s.now⟩])) ∧
  (∀ (s : State) (m : Master) (q : Nat) (l : Loc) (i : QItem) (rest : List QItem), queueOk q = true → EventsQuiet s q →
    Writable s m (R.QP_POP q) 1 l → (s.queue q).items = i :: rest → i.done = true → i.words.length ≤ 16 →
    Leaves (exec (.queuePop m q) s) fun t =>
      (t.queue q).items = rest ∧ (∀ k < i.words.length, t.reg (R.QP_DATA q k) = i.words.getD k 0) ∧
      t.reg (R.QP_POPSTAT q) = 0 ∧
      (q = 1 → s.regBit R.AUD_CTRL 0 = true → t.reg R.AUD_EXP_SEQ = word (leAt (ofWords i.words) 22 4) + 1) ∧
      SameBut logParts s t ∧
      RegsBut (R.AUD_EXP_SEQ :: R.QP_POP q :: R.QP_POPSTAT q :: (List.range 16).map (R.QP_DATA q)) s t) ∧
  (∀ (s : State) (m : Master) (q : Nat) (l : Loc), queueOk q = true → Writable s m (R.QP_POP q) 1 l →
    (s.queue q).items = [] → (s.queue q).held = [] →
    Leaves (exec (.queuePop m q) s) fun t =>
      t.reg (R.QP_POPSTAT q) = (if queueHold q then 2 else 1) ∧
      (t.queue q).popPend = (if queueHold q then true else (s.queue q).popPend) ∧ (t.queue q).items = [] ∧
      SameBut logParts s t ∧ RegsBut [R.QP_POP q, R.QP_POPSTAT q] s t) ∧
  (∀ (s : State) (m : Master) (q : Nat) (l : Loc), queueOk q = true → Writable s m (R.QP_POP q) 2 l →
    (s.queue q).popPend = true → EventsQuiet s q →
    Leaves (exec (.queuePopCancel m q) s) fun t =>
      t.queue q = { s.queue q with popPend := false } ∧ t.reg (R.QP_POPSTAT q) = 1 ∧
      SameBut logParts s t ∧ RegsBut [R.QP_POP q, R.QP_POPSTAT q] s t) ∧
  (∀ (s : State) (q : Nat) (i : QItem) (rest : List QItem), s.queueAlive q = true → EventsQuiet s q →
    (s.queue q).popPend = true → (s.queue q).items = i :: rest → i.done = true → i.words.length ≤ 16 →
    Ends (exec (.queuePopServed q) s) fun t =>
      (t.queue q).items = rest ∧ (t.queue q).popPend = false ∧
      (∀ k < i.words.length, t.reg (R.QP_DATA q k) = i.words.getD k 0) ∧ t.reg (R.QP_POPSTAT q) = 0 ∧
      SameBut logParts s t ∧ RegsBut (R.AUD_EXP_SEQ :: R.QP_POPSTAT q :: (List.range 16).map (R.QP_DATA q)) s t)

/-- QUEUE_ITEM_TIMEOUT, QUEUE_STRANDED, SPILL_STAGE_MOVE, QUEUE_FLUSH: silent unfinished items go with TRUNCATED (R110); a queue
left unpopped for its limit is STRANDED and keeps its items (R119); a move between the stages keeps the items and their
order, and an uncorrectable middle entry alone is discarded (R108, R117); a flush discards the whole items and marks the
unfinished ones (R121).

QUEUE_THR_CLEAR, QUEUE_THRESH_WRITE, QMG_SPILL_WRITE: a write of 1 clears THR only below the threshold (R118); a threshold
written at or below the depth sets THR at once (R123); a spill slot takes a legal binding or region (R113).
The model's choices in it: assumption 138. -/
def Obligations.QueueUpkeep : Prop :=
  (∀ (s : State) (q : Nat), s.queueAlive q = true → (s.queue q).items.any (s.itemLate q) = true → EventsQuiet s q →
    Ends (exec (.queueItemTimeout q) s) fun t =>
      t.regBit (R.QP_STATUS q) 5 = true ∧ QueueStep s t q ((s.queue q).items.filter fun i => !s.itemLate q i)) ∧
  (∀ (s : State) (q : Nat), s.queueAlive q = true → 0 < s.regFld (R.QP_CFG q) 15 0 → (s.queue q).items ≠ [] →
    (s.queue q).flushing = false → (s.queue q).stranded = false →
    (s.queue q).timer + s.regFld (R.QP_CFG q) 15 0 * 10000 ≤ s.now → EventsQuiet s q →
    Ends (exec (.queueStranded q) s) fun t =>
      t.regBit (R.QP_STATUS q) 4 = true ∧ (t.queue q).stranded = true ∧ QueueStep s t q (s.queue q).items) ∧
  (∀ (s : State) (q k : Nat), s.queueAlive q = true → alive s 3 = true → s.spillSlot q = some k →
    Ends (exec (.spillStageMove q false) s) fun t =>
      t.queue q = (s.queue q).settle ∧ (t.queue q).items = (s.queue q).items ∧ (∀ k, k ≠ q → t.queue k = s.queue k) ∧
      SameBut [.qs] s t) ∧
  (∀ (s : State) (q k : Nat), s.queueAlive q = true → alive s 3 = true → s.spillSlot q = some k → 0 < (s.queue q).mid →
    Mild s 9 1 → EventsQuiet s q → q ≠ 6 →
    Ends (exec (.spillStageMove q true) s) fun t =>
      (t.queue q).items = (s.queue q).items.eraseIdx (s.queue q).head ∧ t.regBit (R.QP_STATUS q) 7 = true ∧
      t.reg R.QMG_SPILL_ECC_CNT = satInc (s.reg R.QMG_SPILL_ECC_CNT) ∧ t.regBit (fltReg 9 0) 1 = true ∧
      SameBut eventParts s t ∧ RegsBut (R.QP_STATUS q :: R.QMG_SPILL_ECC_CNT :: faultRegs 9) s t) ∧
  (∀ (s : State) (m : Master) (q v : Nat) (l : Loc), queueOk q = true → Writable s m (R.QP_FLUSH q) v l →
    bitOf (word v) 0 = true → EventsQuiet s q →
    Leaves (exec (.queueFlush m q v) s) fun t =>
      (t.queue q).items = ((s.queue q).items.filter fun i => !i.done).map (fun i => { i with marked := true }) ∧
      SameBut logParts s t ∧ RegsBut [R.QP_FLUSH q] s t) ∧
  (∀ (s : State) (m : Master) (q : Nat) (l : Loc), queueOk q = true → EventsQuiet s q → Writable s m (R.QP_STATUS q) 4 l →
    Leaves (exec (.queueThrClear m q) s) fun t =>
      t.regBit (R.QP_STATUS q) 2 = (s.regBit (R.QP_STATUS q) 2 &&
        decide (0 < (s.reg (R.QP_THRESH q)).toNat ∧ (s.reg (R.QP_THRESH q)).toNat ≤ (s.queue q).depth)) ∧
      SameBut logParts s t ∧ RegsBut [R.QP_STATUS q] s t) ∧
  (∀ (s : State) (m : Master) (q v : Nat) (l : Loc), queueOk q = true → EventsQuiet s q → Writable s m (R.QP_THRESH q) v l →
    Leaves (exec (.queueThreshWrite m q v) s) fun t =>
      t.reg (R.QP_THRESH q) = (s.reg (R.QP_THRESH q) &&& ~~~ regMask l) ||| (word v &&& regMask l) ∧
      (0 < (t.reg (R.QP_THRESH q)).toNat → (t.reg (R.QP_THRESH q)).toNat ≤ (s.queue q).depth →
        t.regBit (R.QP_STATUS q) 2 = true) ∧
      (t.queue q).items = (s.queue q).items ∧
      SameBut logParts s t ∧ RegsBut [R.QP_THRESH q, R.QP_STATUS q, R.QP_PEAK q] s t) ∧
  (∀ (s : State) (m : Master) (k v : Nat) (region : Bool) (l : Loc), k < 8 →
    Writable s m (if region then R.QMG_SPILL_REGION k else R.QMG_SPILL_BIND k) v l →
    Leaves (exec (.qmgSpillWrite m k region v) s) fun t =>
      t.reg (if region then R.QMG_SPILL_REGION k else R.QMG_SPILL_BIND k) =
        (s.reg (if region then R.QMG_SPILL_REGION k else R.QMG_SPILL_BIND k) &&& ~~~ regMask l) |||
          (word v &&& regMask l) ∧
      SameBut logParts s t ∧ RegsBut [if region then R.QMG_SPILL_REGION k else R.QMG_SPILL_BIND k] s t)

/-! ### The switch core (R131-R161) -/

/-- INGRESS_HEADER_END, FRAME_ADMIT: at the end of its header a frame is in reception with its arrival latched (R170); a bad frame
leaves nothing behind (R138); a good frame resolved to one egress port with room is stored once and one copy of it joins the
tail of that port's queue (R135, R138).
The model's choices in it: assumptions 132, 152. -/
def Obligations.FrameReception : Prop :=
  (∀ (s : State) (p len : Nat) (hdr : Bytes), s.ethHears p = true → kvGet? s.swc.rx p = none →
    Leaves (exec (.ingressHeaderEnd p len hdr) s) fun t =>
      ∃ x, kvGet? t.swc.rx p = some x ∧ x.len = len ∧ x.rxTime = s.latchRx p 0 ∧
        (s.secyOn p = false → x.hdr = hdr ∧ x.macsec = false)) ∧
  (∀ (s : State) (p : Nat) (body : Bytes) (x : RxFrame), s.ethHears p = true → kvGet? s.swc.rx p = some x → x.cut = none →
    Leaves (exec (.frameAdmit p body false) s) fun t =>
      t = s.setSwc { s.swc with rx := kvDel s.swc.rx p }) ∧
  (∀ (s : State) (p e : Nat) (body : Bytes) (x : RxFrame) (r : Resolved), s.ethHears p = true →
    kvGet? s.swc.rx p = some x → x.macsec = false → x.cut = none → x.res = ⟨none, some r⟩ →
    (x.hdr ++ body).length = x.len → x.len ≤ 9216 → r.egress = [e] → e < 128 → r.tc < 8 → r.tunnel = none → r.src = .line →
    r.ledger = false → s.cbOf r.stream = none → s.streamHeld r.stream = false → s.regBit R.SWC_STATUS 0 = false →
    s.poolUse + cellsOf x.len ≤ s.regFld R.SWC_POOL_SIZE 15 0 → s.queueFits (e * 8 + r.tc) (cellsOf x.len) = true →
    s.descFree ≠ 0 → (∀ c ∈ s.heldCopies, c.frame < s.swc.nextId) →
    Leaves (exec (.frameAdmit p body true) s) fun t =>
      (∃ c, t.copies (e * 8 + r.tc) = s.copies (e * 8 + r.tc) ++ [c] ∧ c.frame = s.swc.nextId ∧ c.port = e ∧
        c.tc = r.tc ∧ c.stream = r.stream) ∧
      (t.frameOf s.swc.nextId).bytes = x.hdr ++ body ∧ (t.frameOf s.swc.nextId).refs = 1 ∧
      kvGet? t.swc.rx p = none ∧
      t.ctr 8 (0x1000 + (e * 8 + r.tc)) 4 = (s.ctr 8 (0x1000 + (e * 8 + r.tc)) 4 + 1) % 2 ^ 64 ∧
      SameBut (.swc :: eventParts) s t ∧ RegsBut [] s t)

/-- EGRESS_SELECT, TIMED_LAUNCH_DUE, EGRESS_TX_COMPLETE: a free port starts the head of its highest strict class that is eligible
(R146), a timed head at its launch included (R152); with its last bit the frame has left on the line and its copy's
descriptor is released (R135). -/
def Obligations.Transmission : Prop :=
  (∀ (s s' : State) (p tc : Nat) (c : Copy) (rest : List Copy) (line : Bytes), s.ethFree p = true → s.spLow p = 0 →
    s.dropPortStale p = s → (∀ k < 8, s.regBit (R.SWC_QCBS (p * 8 + k)) 31 = false) → tc < 8 →
    s.eligible p tc = true → (∀ k < 8, tc < k → s.eligible p k = false) → s.copies (p * 8 + tc) = c :: rest →
    State.wayOutEth ((s.setCopies (p * 8 + tc) rest).setSwc
      { (s.setCopies (p * 8 + tc) rest).swc with
        tx := kvSet (s.setCopies (p * 8 + tc) rest).swc.tx p ⟨c, [], false, false, s.now⟩ }) c = (.sent line, s') →
    c.port = p → c.tc = tc →
    Leaves (exec (.egressSelect p) s) fun t =>
      kvGet? t.swc.tx p = some ⟨c, line, true, false, s'.now⟩ ∧ SameBut [.swc] s' t) ∧
  (∀ (s s' : State) (p tc : Nat) (c : Copy) (rest : List Copy) (line : Bytes), s.ethFree p = true → s.spLow p = 0 →
    s.dropPortStale p = s → (∀ k < 8, s.regBit (R.SWC_QCBS (p * 8 + k)) 31 = false) → tc < 8 →
    s.eligible p tc = true → (∀ k < 8, tc < k → s.eligible p k = false) → s.copies (p * 8 + tc) = c :: rest →
    c.timed = true → s.untilStart c = 0 →
    State.wayOutEth ((s.setCopies (p * 8 + tc) rest).setSwc
      { (s.setCopies (p * 8 + tc) rest).swc with
        tx := kvSet (s.setCopies (p * 8 + tc) rest).swc.tx p ⟨c, [], false, false, s.now⟩ }) c = (.sent line, s') →
    c.port = p → c.tc = tc →
    Leaves (exec (.timedLaunchDue (p * 8 + tc)) s) fun t =>
      kvGet? t.swc.tx p = some ⟨c, line, true, false, s'.now⟩ ∧ SameBut [.swc] s' t) ∧
  (∀ (s : State) (p : Nat) (x : TxCopy), alive s 3 = true → kvGet? s.swc.tx p = some x → x.whole = true →
    x.stomp = false → x.copy.src = .line → x.copy.ledger = none → x.copy.tag = none → kvGet? s.grd.run p = none →
    x.copy.port = p →
    Ends (exec (.egressTxComplete p) s) fun t =>
      t.out = s.out ++ [.frame p x.line true] ∧ kvGet? t.swc.tx p = none ∧
      t.ctr 8 (0x1000 + x.copy.queue) 0 = (s.ctr 8 (0x1000 + x.copy.queue) 0 + 1) % 2 ^ 64 ∧
      SameBut [.regs, .sys, .swc, .out] s t ∧ RegsBut (R.SWC_STATUS :: R.SWC_QSTAT x.copy.queue :: R.SWC_PSTAT p ::
        [R.SWC_PSTAT (s.frameOf x.copy.frame).ingress]) s t)

/-- CB_RESET_TIMEOUT, AGEING_SWEEP: an 802.1CB instance silent for its reset time takes any sequence number next (R161); a copy
older than its queue's limit is discarded and counted, whatever the state of its port (R155).

SHAPER_IDLE_WRITE, GCL_ENTRY_ADVANCE, GCL_CHANGE, GCL_CANCEL, GCL_CHANGE_TAKE_EFFECT: a new idle slope keeps the credit, clipped to
the new bounds (R148); the running entry's gates are those the list gives now (R149); a change is requested for its change
time and can be withdrawn, and when it takes effect the administrative list is operational (R150). -/
def Obligations.SwitchTimers : Prop :=
  (∀ (s : State) (n : Nat), n < 256 → alive s 3 = true → s.regBit (R.SWC_CB_CFG n) 31 = true →
    s.regFld (R.SWC_CB_CFG n) 15 0 ≠ 0 → (kvGet s.swc.cb n CbInst.none).takeAny = false →
    (kvGet s.swc.cb n CbInst.none).last + s.regFld (R.SWC_CB_CFG n) 15 0 * 1000000 ≤ s.now →
    Ends (exec (.cbResetTimeout n) s) fun t =>
      kvGet? t.swc.cb n = some { kvGet s.swc.cb n CbInst.none with takeAny := true } ∧
      t.ctr 8 (0x400 + n) 5 = (s.ctr 8 (0x400 + n) 5 + 1) % 2 ^ 32 ∧ SameBut [.swc, .sys] s t) ∧
  (∀ (s : State) (q : Nat) (c : Copy), alive s 3 = true → s.swc.queues = [(q, [c])] → s.aged c = true → c.queue = q →
    c.src = .line → c.ledger = none →
    Ends (exec .ageingSweep s) fun t =>
      t.copies q = [] ∧ t.ctr 8 (0x1000 + q) 8 = (s.ctr 8 (0x1000 + q) 8 + 1) % 2 ^ 64 ∧
      t.regBit R.SWC_EVT_STATUS 4 = true ∧ SameBut (.swc :: eventParts) s t ∧
      RegsBut [R.SWC_STATUS, R.SWC_PSTAT c.port, R.SWC_QSTAT q, R.SWC_PSTAT (s.frameOf c.frame).ingress] s t) ∧
  (∀ (s : State) (m : Master) (q v : Nat) (l : Loc), q < 1024 → Writable s m (R.SWC_QCBS q) v l →
    Leaves (exec (.shaperIdleWrite m q v) s) fun t =>
      t.reg (R.SWC_QCBS q) = (s.reg (R.SWC_QCBS q) &&& ~~~ regMask l) ||| (word v &&& regMask l) ∧
      kvGet? t.swc.credit q =
        some (clampI (t.creditBounds q).1 (t.creditBounds q).2 (kvGet (s.creditStep q).swc.credit q 0)) ∧
      SameBut (.swc :: logParts) s t ∧ RegsBut [R.SWC_QCBS q] s t) ∧
  (∀ (s : State) (p : Nat), p < 29 → alive s 3 = true → s.operList p ≠ [] →
    Ends (exec (.gclEntryAdvance p) s) fun t =>
      ((t.gcl p).entry, (t.gcl p).gates) = s.gclNow p ∧ t.regFld (R.SWC_GCL_STAT p) 6 1 = (s.gclNow p).1 % 64 ∧
      SameBut [.swc, .regs] s t ∧ RegsBut [R.SWC_GCL_STAT p] s t) ∧
  (∀ (s : State) (m : Master) (p v : Nat) (l : Loc), p < 29 →
    Writable s m (R.SWC_GCL_CTRL p) (withBit (sansBit v 2) 1) l →
    Leaves (exec (.gclChange m p v) s) fun t =>
      (t.gcl p).change.isSome = true ∧ t.regBit (R.SWC_GCL_CTRL p) 1 = true ∧ t.regBit (R.SWC_GCL_STAT p) 0 = true ∧
      SameBut (.swc :: logParts) s t ∧ RegsBut [R.SWC_GCL_CTRL p, R.SWC_GCL_STAT p] s t) ∧
  (∀ (s : State) (m : Master) (p v : Nat) (l : Loc), p < 29 →
    Writable s m (R.SWC_GCL_CTRL p) (withBit (sansBit v 1) 2) l →
    Leaves (exec (.gclCancel m p v) s) fun t =>
      (t.gcl p).change = none ∧ t.regBit (R.SWC_GCL_CTRL p) 1 = false ∧ t.regBit (R.SWC_GCL_STAT p) 0 = false ∧
      SameBut (.swc :: logParts) s t ∧ RegsBut [R.SWC_GCL_CTRL p, R.SWC_GCL_STAT p] s t) ∧
  (∀ (s : State) (p : Nat), p < 29 → alive s 3 = true → s.changeIn p = some 0 →
    Ends (exec (.gclChangeTakeEffect p) s) fun t =>
      (∀ e < 64, t.reg (R.SWC_GCL_OPR p e) =
        if e < s.regFld (R.SWC_GCL_CTRL p) 14 8 then s.reg (R.SWC_GCL_ADM p e) else 0) ∧
      t.regFld (R.SWC_GCL_CTRL p) 22 16 = s.regFld (R.SWC_GCL_CTRL p) 14 8 ∧
      (t.gcl p).cycle = (s.reg (R.SWC_GCL_CYCLE p)).toNat ∧ (t.gcl p).ext = (s.reg (R.SWC_GCL_EXT p)).toNat ∧
      (t.gcl p).base = s.adminBase p ∧ (t.gcl p).tb = s.regFld (R.SWC_GCL_CTRL p) 25 24 ∧ (t.gcl p).change = none ∧
      SameBut [.swc, .regs] s t ∧
      RegsBut (R.SWC_GCL_CTRL p :: R.SWC_GCL_STAT p :: (List.range 64).map (R.SWC_GCL_OPR p)) s t)

/-- PORT_DISABLE, PORT_PURGE, PORT_ENABLE, ETH_LINK_DOWN, ETH_LINK_UP: EN clear stops the port and keeps its queued copies, with
PURGE every queued copy is discarded, EN set resumes it; a link that goes down ends reception and keeps the queues (R160). -/
def Obligations.PortsAndLinks : Prop :=
  (∀ (s : State) (m : Master) (p v : Nat) (l : Loc), portUsed p = true →
    Writable s m (R.SWC_PCTL p) (sansBit (sansBit v 0) 1) l →
    Leaves (exec (.portDisable m p v) s) fun t =>
      t.regBit (R.SWC_PCTL p) 0 = false ∧ t.ethFree p = false ∧ (∀ q n, q / 8 = p → t.queueFits q n = false) ∧
      SameBut logParts s t ∧ RegsBut [R.SWC_PCTL p] s t) ∧
  (∀ (s : State) (m : Master) (p v : Nat) (l : Loc), portUsed p = true →
    Writable s m (R.SWC_PCTL p) (withBit (sansBit v 0) 1) l → PlainCopies s p →
    Leaves (exec (.portPurge m p v) s) fun t =>
      t.regBit (R.SWC_PCTL p) 0 = false ∧ (∀ tc < 8, t.copies (p * 8 + tc) = []) ∧
      (∀ q, q / 8 ≠ p → t.copies q = s.copies q) ∧ SameBut (.swc :: logParts) s t) ∧
  (∀ (s : State) (m : Master) (p v : Nat) (l : Loc), portUsed p = true → Writable s m (R.SWC_PCTL p) (withBit v 0) l →
    Leaves (exec (.portEnable m p v) s) fun t =>
      t.regBit (R.SWC_PCTL p) 0 = true ∧ SameBut logParts s t ∧ RegsBut [R.SWC_PCTL p] s t) ∧
  (∀ (s : State) (p : Nat), p < 29 → (∀ x, kvGet? s.swc.rx p = some x → x.cut = none) →
    Ends (exec (.ethLinkDown p) s) fun t =>
      t.lineRate p = 0 ∧ kvGet? t.swc.rx p = none ∧ t.swc.queues = s.swc.queues ∧ SameBut [.swc] s t) ∧
  (∀ (s : State) (p rate : Nat), p < 29 → 0 < rate →
    Ends (exec (.ethLinkUp p rate) s) fun t =>
      t.lineRate p = rate ∧ t.swc.queues = s.swc.queues ∧ SameBut [.swc] s t)

/-! ### The tables (R174-R206) -/

/-- TBL_SEARCH, TBL_INSERT, TBL_DELETE, TBL_NEXT from the mailbox: a search of the MAC table gives the slot and body of the entry
whose key matches (R176, R201); an insert of a new key whose first bucket has room takes its lowest free way, in the active
generation, with MOVE_GEN 0, and of a VLAN index writes that entry (R177, R185); a delete removes the entry (R201); a walk
from the start gives the first entry and names where the next one stands (R180). Each reports itself and is logged. -/
def Obligations.RecordCommands : Prop :=
  (∀ (s : State) (m : Master) (c : TCmd) (k : Nat), MailboxRuns s m c → c.op = 1 → c.table = 4 → c.shadow = false → c.count = 1 →
    s.lookup 4 s.tbl.mac (keyOf 4 (cleanBody 4 (slice s.mailboxData 0 24))) = some k →
    Ends (exec (.tblSearch false) s) fun t =>
      MailboxDone s t m c 0 1 0 (auditCrc (keyOf 4 (cleanBody 4 (slice s.mailboxData 0 24)))) ∧
      slice t.mailboxData 0 24 = mkRecord 4 k 0 (moveGen 4 (kvGet s.tbl.mac k [])) (kvGet s.tbl.mac k []) ∧
      t.tbl = { s.tbl with mgo := none } ∧ SameBut (.tbl :: logParts) s t ∧ RegsBut mailboxRegs s t) ∧
  (∀ (s : State) (m : Master) (c : TCmd) (e : Bytes) (g k : Nat), MailboxRuns s m c → c.op = 2 → c.table = 4 → c.shadow = false →
    c.count = 1 → e = putBytes (cleanBody 4 (slice s.mailboxData 0 24)) 8
      (leBytes 4 (putBit (word (leAt (cleanBody 4 (slice s.mailboxData 0 24)) 8 4)) 31 true).toNat) →
    s.hctrl 4 (keyOf 4 e) = (g, false) → s.lookup 4 s.tbl.mac (keyOf 4 e) = none →
    freeWay s.tbl.mac (s.buckets 4 g (keyOf 4 e)).1 = some k → kvGet? s.tbl.walks 4 = none →
    Ends (exec (.tblInsert false) s) fun t =>
      MailboxDone s t m c 0 1 0 (auditCrc (keyOf 4 (cleanBody 4 (slice s.mailboxData 0 24)))) ∧
      t.tbl.mac = kvSet s.tbl.mac k (withMove 4 0 (withGen 4 g e)) ∧
      t.tbl.pend = s.tbl.pend.filter (fun q => !(macKey q.mac q.fid == keyOf 4 e)) ∧
      SameBut (.tbl :: logParts) s t ∧ RegsBut mailboxRegs s t) ∧
  (∀ (s : State) (m : Master) (c : TCmd) (body : Bytes), MailboxRuns s m c → c.op = 2 → c.table = 3 → c.shadow = false →
    c.count = 1 → body = cleanBody 3 (slice s.mailboxData 0 32) → insertOk 3 body = true →
    indexOk 3 (recIndex (slice s.mailboxData 0 32)) = true →
    Ends (exec (.tblInsert false) s) fun t =>
      MailboxDone s t m c 0 1 0 (auditCrc (slice s.mailboxData 0 4)) ∧
      t.tbl.act.vlan = putEntryOf s.tbl.act.vlan (recIndex (slice s.mailboxData 0 32)) body ∧
      t.tbl = { s.tbl with mgo := none, act := { s.tbl.act with vlan := t.tbl.act.vlan } } ∧
      SameBut (.tbl :: logParts) s t ∧ RegsBut mailboxRegs s t) ∧
  (∀ (s : State) (m : Master) (c : TCmd) (k : Nat), MailboxRuns s m c → c.op = 3 → c.table = 4 → c.shadow = false → c.count = 1 →
    s.lookup 4 s.tbl.mac (keyOf 4 (cleanBody 4 (slice s.mailboxData 0 24))) = some k →
    Ends (exec (.tblDelete false) s) fun t =>
      MailboxDone s t m c 0 1 0 (auditCrc (keyOf 4 (cleanBody 4 (slice s.mailboxData 0 24)))) ∧
      t.tbl = { s.tbl with mgo := none, mac := kvDel s.tbl.mac k } ∧
      SameBut (.tbl :: logParts) s t ∧ RegsBut mailboxRegs s t) ∧
  (∀ (s : State) (m : Master) (c : TCmd) (k : Nat) (e : Bytes) (rest : Kv Bytes), MailboxRuns s m c → c.op = 4 → c.table = 4 →
    c.shadow = false → c.count = 1 → c.cursor = 0 → s.tbl.mac = (k, e) :: rest →
    Ends (exec (.tblNext false) s) fun t =>
      MailboxDone s t m c 0 1 (match rest with | r :: _ => r.1 | [] => 0xFFFFFFFF) 0 ∧
      slice t.mailboxData 0 24 = mkRecord 4 k 0 (moveGen 4 e) e ∧
      kvGet? t.tbl.walks 4 = (match rest with | r :: _ => some ⟨r.1, [], false⟩ | [] => none) ∧
      t.tbl = { s.tbl with mgo := none, walks := t.tbl.walks } ∧
      SameBut (.tbl :: logParts) s t ∧ RegsBut mailboxRegs s t)

/-- TBL_FLUSH_BY_PORT, TBL_AGE_SWEEP, TBL_REHASH_MOVE from the mailbox: a flush deletes the learned MAC entries of the ports in the
mask, static ones only when asked, and the pending entries last seen there (R191); a sweep deletes the MAC entries of its
buckets that are neither static nor hit, and clears HIT of the others (R191); a rehash moves an entry of the other
generation to a bucket of its new seed, its MOVE_GEN one higher for each move (R178, R179). -/
def Obligations.TableWideCommands : Prop :=
  (∀ (s : State) (m : Master) (c : TCmd) (mask : Bytes), MailboxRuns s m c → c.op = 5 → c.table = 4 → c.shadow = false →
    mask = slice s.mailboxData 0 16 → mask.all (· == 0) = false →
    let hit := fun p => byteAt mask (p / 8) / 2 ^ (p % 8) % 2 == 1
    let gone := fun (e : Nat × Bytes) => !bitOf (word (leAt e.2 8 4)) 26 && hit (fld (word (leAt e.2 8 4)) 6 0) &&
      (c.incl || !bitOf (word (leAt e.2 8 4)) 30)
    Ends (exec (.tblFlushByPort false) s) fun t =>
      MailboxDone s t m c 0 (s.tbl.mac.filter gone).length 0 (auditCrc (slice mask 0 16)) ∧
      t.tbl = { s.tbl with
        mgo := none, mac := s.tbl.mac.filter (fun e => !gone e), pend := s.tbl.pend.filter fun q => !hit q.last } ∧
      SameBut (.tbl :: logParts) s t ∧ RegsBut mailboxRegs s t) ∧
  (∀ (s : State) (m : Master) (c : TCmd) (k : Nat) (e : Bytes), MailboxRuns s m c → c.op = 6 → c.table = 4 → c.shadow = false →
    0 < c.count → s.tbl.mac = [(k, e)] → 4 * c.cursor ≤ k → k < 4 * (c.cursor + c.count) →
    bitOf (word (leAt e 8 4)) 30 = false →
    Ends (exec (.tblAgeSweep false) s) fun t =>
      t.tbl.mac = (if bitOf (word (leAt e 8 4)) 28 then
        [(k, putBytes e 8 (leBytes 4 (putBit (word (leAt e 8 4)) 28 false).toNat))] else []) ∧
      MailboxDone s t m c 0 (if bitOf (word (leAt e 8 4)) 28 then 0 else 1)
        (if 8192 ≤ c.cursor + c.count then 0xFFFFFFFF else c.cursor + c.count) 0 ∧
      SameBut (.tbl :: logParts) s t ∧ RegsBut mailboxRegs s t) ∧
  (∀ (s : State) (m : Master) (c : TCmd) (k n : Nat) (e : Bytes), MailboxRuns s m c → c.op = 7 → c.table = 4 → c.shadow = false →
    0 < c.count → c.toGen < 2 → s.tbl.mac = [(k, e)] → genOf 4 e = 1 - c.toGen →
    s.regBit (R.HCB_MAC_HCTRL) 1 = true → inBucket 4 s.tbl.mac (keyOf 4 e) (s.buckets 4 (1 - c.toGen) (keyOf 4 e)).1 = some k →
    freeWay s.tbl.mac (s.buckets 4 c.toGen (keyOf 4 e)).1 = some n → kvGet? s.tbl.walks 4 = none →
    Ends (exec (.tblRehashMove false) s) fun t =>
      MailboxDone s t m c 0 1 0 0 ∧
      t.tbl.mac = [(n, withGen 4 c.toGen (withMove 4 ((moveGen 4 e + 1) % 256) e))] ∧
      SameBut (.tbl :: logParts) s t ∧ RegsBut mailboxRegs s t)

/-- TBL_SEARCH, TBL_INSERT, TBL_DELETE, TBL_NEXT, TBL_FLUSH_BY_PORT, TBL_AGE_SWEEP, TBL_REHASH_MOVE from a ring: with no mailbox
command waiting, the command at the front of the intake runs as the mailbox's would (`tableCommand`), leaves the intake,
and is named in TBL_CMD_LAST (R202, R206, R373).

HCB_COMMIT, HCB_SHADOW_EN_WRITE, TABLE_AGER_TICK, PEND_LEARN_EXPIRE: a commit makes the shadow generation the active one and
ends the rehash (R179); SHADOW_EN takes the written value; the ager's sweep deletes an entry not hit since the last one and
clears HIT of one hit (R191); pending entries whose lifetime has ended are freed (R188).
The model's choices in it: assumption 51. -/
def Obligations.RingTablesAndUpkeep : Prop :=
  (∀ (s : State) (op ring ix o : Nat) (i : QItem) (rest : List QItem) (c : TCmd), 1 ≤ op → op ≤ 7 → alive s 4 = true →
    s.tbl.mgo = none → s.auditReady = true → (s.queue 3).items = i :: rest → i.done = true → i.prod = tcProducer ring ix →
    ix < 0x40000 → c = TCmd.of (ofWords i.words) → c.op = op → s.ringOwner 3 ring = o →
    let recs := if op ≤ 3 then (List.range c.count).map (fun k => s.ownRead o (c.data + k * recLen c.table) (recLen c.table))
      else []
    Ends (exec (tableInstr op true) s) fun t =>
      t.tbl = (s.tableCommand (ownerMaster o) c ring recs (s.ownRead o c.data 16)).s.tbl ∧
      (t.queue 3).items = rest ∧ t.reg R.TBL_CMD_LAST = word (c.tag * 65536 + ring) ∧ t.reg R.TBL_CMD_OPEN = 0xFFFFFFFF ∧
      SameBut (.tbl :: .sig :: .mem :: .hostMem :: .rng :: logParts) s t) ∧
  (∀ (s : State) (m : Master) (a v : Nat) (l : Loc), (hcbTable a).isSome = true → a % 16 = 8 → Writable s m a (withBit v 2) l →
    Leaves (exec (.hcbCommit m a v) s) fun t =>
      t.reg a = word (1 - fld (s.reg a) 0 0) ∧ SameBut logParts s t ∧ RegsBut [a] s t) ∧
  (∀ (s : State) (m : Master) (a v : Nat) (l : Loc), (hcbTable a).isSome = true → a % 16 = 8 → Writable s m a (sansBit v 2) l →
    Leaves (exec (.hcbShadowEnWrite m a v) s) fun t =>
      t.reg a = putBit (s.reg a) 1 (bitOf (word v) 1) ∧ SameBut logParts s t ∧ RegsBut [a] s t) ∧
  (∀ (s : State) (k : Nat) (e : Bytes), alive s 4 = true → s.regFld R.TBL_AGER 15 0 ≠ 0 → s.auditReady = true → LogRoom s →
    s.tbl.mac = [(k, e)] → k < 32768 → bitOf (word (leAt e 8 4)) 30 = false →
    Ends (exec .tableAgerTick s) fun t =>
      t.tbl.mac = (if bitOf (word (leAt e 8 4)) 28 then
        [(k, putBytes e 8 (leBytes 4 (putBit (word (leAt e 8 4)) 28 false).toNat))] else []) ∧
      Entered s t 0xB 0x84 0xC406FFFE (if bitOf (word (leAt e 8 4)) 28 then 0 else 65536) 0 ∧
      SameBut (.tbl :: logParts) s t ∧ RegsBut [R.TBL_CMD_LAST, R.TBL_CMD_OPEN] s t) ∧
  (∀ s : State, alive s 4 = true →
    Ends (exec .pendLearnExpire s) fun t =>
      t.tbl = { s.tbl with pend := s.tbl.pend.filter fun q => !decide (q.expiry ≤ s.now) } ∧ SameBut [.tbl, .sys] s t)

/-! ### CAN (R210-R222, R237) -/

/-- CAN_FRAME_RECEIVED, CAN_RX_ERROR: a good frame of an enabled format is counted, lowers REC by one, and goes in its stored form,
with the time of its start of frame, to classification and admission on its channel's port (R213, R216, R221, R222); an
error raises REC by 1, or by 8 where the standard says so, and stands in CAN_LAST_ERR (R213).
The model's choices in it: assumptions 54, 152. -/
def Obligations.CanReception : Prop :=
  (∀ (s : State) (n sof : Nat) (f : CanFrame) (bs : Bytes), s.canOn n = true → kindFormat f.kind ≤ s.canProto n →
    canCarries n (kindFormat f.kind) = true → s.canCounts n = true → (s.canCh n).rec_ ≤ 127 → s.meRuns (canHome n) = true →
    bs = storedFrame f n (latchCompact (s.latchRx (64 + n) sof) (s.regFld (R.CAN_CFG n) 13 12)) → busAgrees bs = true →
    s.rxSeal n bs = none →
    Leaves (exec (.canFrameReceived n sof f) s) fun t =>
      t = ((s.addCtr (96 + n) 1 0 1).canCount n fun c => { c with rec_ := c.rec_ - 1 }).busTake (64 + n) bs (s.latchRx (64 + n) sof)) ∧
  (∀ (s : State) (n code : Nat) (dp severe : Bool), s.canOn n = true → s.canCounts n = true → (s.canCh n).tec < 96 →
    (s.canCh n).rec_ + (if severe then 8 else 1) < 96 → (s.canCh n).busOff = false →
    Ends (exec (.canRxError n code dp severe) s) fun t =>
      t.canCh n = { s.canCh n with rec_ := (s.canCh n).rec_ + (if severe then 8 else 1) } ∧
      t.reg (R.CAN_LAST_ERR n) = word (code % 8 + (if dp then 8 else 0)) ∧
      t.ctr (96 + n) 1 4 = min (s.ctr (96 + n) 1 4 + 1) 0xFFFFFFFF ∧
      SameBut [.regs, .sys, .bus] s t ∧ RegsBut [R.CAN_LAST_ERR n] s t)

/-- CAN_TX_SELECT, CAN_TX_COMPLETE, CAN_ARB_LOST, CAN_TX_ERROR: a free channel starts the head of its highest class that is
eligible (R218); a frame sent to its end has left on the line, lowers TEC by one and releases its copy (R135, R213, R219);
one that lost arbitration, or met an error within its limit of attempts, stands at the head of its queue again, an error
raising TEC by 8; beyond the limit it is abandoned (R219); a TEC above 255 is bus-off (R213). -/
def Obligations.CanTransmission : Prop :=
  (∀ (s s' : State) (n tc : Nat) (c : Copy) (rest : List Copy) (line : Bytes), s.canFree n = true →
    StrictHead s s.canEligible (64 + n) tc → s.copies ((64 + n) * 8 + tc) = c :: rest →
    ((s.frameOf c.frame).bus && busFormat (s.copyBytes c) == 4) = false →
    State.wayOutCan ((s.setCopies ((64 + n) * 8 + tc) rest).setSwc
      { (s.setCopies ((64 + n) * 8 + tc) rest).swc with
        tx := kvSet s.swc.tx (64 + n) ⟨{ c with attempts := c.attempts + 1 }, [], false, false, s.now⟩ })
      { c with attempts := c.attempts + 1 } = (.sent line, s') →
    Leaves (exec (.canTxSelect n) s) fun t =>
      kvGet? t.swc.tx (64 + n) = some ⟨{ c with attempts := c.attempts + 1 }, line, true, false, s'.now⟩ ∧
      SameBut [.swc] s' t) ∧
  (∀ (s : State) (n : Nat) (x : TxCopy), n < 24 → kvGet? s.swc.tx (64 + n) = some x → LineCalm s (64 + n) →
    PlainCopy x.copy → x.copy.tag = none → x.copy.port = 64 + n → s.regBit (R.CAN_TDC n) 16 = false →
    s.regBit R.TBL_TRACK_CTRL n = false → (s.canCh n).tec ≤ 255 → (s.canCh n).rec_ ≤ 128 → (s.canCh n).busOff = false →
    Ends (exec (.canTxComplete n) s) fun t =>
      t.out = s.out ++ [.frame (64 + n) x.line true] ∧ kvGet? t.swc.tx (64 + n) = none ∧
      t.canCh n = { s.canCh n with tec := (s.canCh n).tec - 1 } ∧
      t.ctr (96 + n) 1 2 = (s.ctr (96 + n) 1 2 + 1) % 2 ^ 64 ∧
      SameBut [.regs, .sys, .bus, .swc, .out] s t ∧ RegsBut (releaseRegs s x.copy) s t) ∧
  (∀ (s : State) (n : Nat) (x : TxCopy), n < 24 → kvGet? s.swc.tx (64 + n) = some x → LineCalm s (64 + n) →
    s.regBit (R.SWC_PSTAT (64 + n)) 1 = false →
    Ends (exec (.canArbLost n) s) fun t =>
      t.copies x.copy.queue = x.copy :: s.copies x.copy.queue ∧ kvGet? t.swc.tx (64 + n) = none ∧
      t.ctr (96 + n) 1 5 = min (s.ctr (96 + n) 1 5 + 1) 0xFFFFFFFF ∧ SameBut [.sys, .swc] s t) ∧
  (∀ (s : State) (n code : Nat) (dp : Bool) (x : TxCopy), n < 24 → kvGet? s.swc.tx (64 + n) = some x →
    LineCalm s (64 + n) → s.regBit (R.SWC_PSTAT (64 + n)) 1 = false →
    (s.regFld (R.CAN_CFG n) 23 16 = 255 ∨ x.copy.errs + 1 ≤ s.regFld (R.CAN_CFG n) 23 16) →
    (s.canCh n).tec + 8 < 96 → (s.canCh n).rec_ < 96 → (s.canCh n).busOff = false →
    Ends (exec (.canTxError n code dp false) s) fun t =>
      t.copies x.copy.queue = { x.copy with errs := x.copy.errs + 1 } :: s.copies x.copy.queue ∧
      kvGet? t.swc.tx (64 + n) = none ∧ t.canCh n = { s.canCh n with tec := (s.canCh n).tec + 8 } ∧
      t.reg (R.CAN_LAST_ERR n) = word (code % 8 + (if dp then 8 else 0)) ∧
      SameBut [.regs, .sys, .bus, .swc] s t ∧ RegsBut [R.CAN_LAST_ERR n] s t) ∧
  (∀ (s : State) (n code : Nat) (dp : Bool) (x : TxCopy), n < 24 → kvGet? s.swc.tx (64 + n) = some x →
    LineCalm s (64 + n) → PlainCopy x.copy → x.copy.port = 64 + n → s.regFld (R.CAN_CFG n) 23 16 ≠ 255 →
    s.regFld (R.CAN_CFG n) 23 16 < x.copy.errs + 1 →
    Ends (exec (.canTxError n code dp true) s) fun t =>
      kvGet? t.swc.tx (64 + n) = none ∧ t.swc.queues = s.swc.queues ∧ t.canCh n = s.canCh n ∧
      t.ctr (96 + n) 1 6 = min (s.ctr (96 + n) 1 6 + 1) 0xFFFFFFFF ∧
      SameBut [.regs, .sys, .swc] s t ∧ RegsBut (R.CAN_LAST_ERR n :: releaseRegs s x.copy) s t) ∧
  (∀ (s : State) (n code : Nat) (dp : Bool) (x : TxCopy), n < 24 → kvGet? s.swc.tx (64 + n) = some x →
    LineCalm s (64 + n) → s.regBit (R.SWC_PSTAT (64 + n)) 1 = false → s.regFld (R.CAN_CFG n) 23 16 = 255 →
    255 < (s.canCh n).tec + 8 → (s.canCh n).busOff = false →
    Ends (exec (.canTxError n code dp false) s) fun t =>
      (t.canCh n).busOff = true ∧ t.regBit (R.CAN_EVT_STATUS n) 0 = true ∧
      t.copies x.copy.queue = { x.copy with errs := x.copy.errs + 1 } :: s.copies x.copy.queue ∧
      SameBut (.bus :: .swc :: eventParts) s t ∧ RegsBut [R.CAN_LAST_ERR n] s t)

/-- CAN_ENABLE, CAN_DISABLE, CAN_RECOVER, CAN_BUSOFF_RECOVERED, CAN_OFF_HEAD_CHECK: EN takes the written value, and a bus-off channel
enabled with AUTO_BO, or given RECOVER, begins its recovery, which disabling abandons; a recovered channel starts again
with its counters at 0 (R213), and while ALIVE_OUT is stopped it sends its safe-state set (R435); while a channel is off or bus-off, an aged head is dropped and counted (R155, R213).

LIN_BUFFER_TAKE, LIN_SCHEDULE_SWITCH, LIN_WAKE_SEND, LIN_WAKE_RX, LIN_BUS_IDLE: a head enters the response buffer of its ID (R231);
a new TABLE takes effect at once with no slot in progress, and raises its event (R230); a wake pulse is sent, received, or
the bus found idle (R233).
The model's choices in it: assumptions 56, 59. -/
def Obligations.BusChannels : Prop :=
  (∀ (s : State) (m : Master) (n v : Nat) (l : Loc), n < 24 → Writable s m (R.CAN_CFG n) (withBit v 0) l →
    s.regBit (R.CAN_CFG n) 0 = false →
    Leaves (exec (.canEnable m n v) s) fun t =>
      Stored s t (R.CAN_CFG n) (withBit v 0) l ∧
      t.canCh n = { s.canCh n with recovering := (s.canCh n).recovering || ((s.canCh n).busOff && bitOf (word v) 7) } ∧
      SameBut (.bus :: logParts) s t ∧ RegsBut [R.CAN_CFG n] s t) ∧
  (∀ (s : State) (m : Master) (n v : Nat) (l : Loc), n < 24 → Writable s m (R.CAN_CFG n) (sansBit v 0) l →
    s.regBit (R.CAN_CFG n) 0 = true →
    Leaves (exec (.canDisable m n v) s) fun t =>
      t.canState n = 3 ∧ t.canCh n = { s.canCh n with recovering := false } ∧
      SameBut (.bus :: logParts) s t ∧ RegsBut [R.CAN_CFG n] s t) ∧
  (∀ (s : State) (m : Master) (n v : Nat) (l : Loc), n < 24 → Writable s m (R.CAN_CMD n) (withBit v 0) l → s.canState n = 2 →
    Leaves (exec (.canRecover m n v) s) fun t =>
      t.canCh n = { s.canCh n with recovering := true } ∧ SameBut (.bus :: logParts) s t ∧ RegsBut [] s t) ∧
  (∀ (s : State) (n : Nat), n < 24 → alive s (canDomain n) = true → s.canState n = 2 → (s.canCh n).recovering = true →
    s.safeDue = false →
    Ends (exec (.canBusoffRecovered n) s) fun t =>
      t.canCh n = CanCh.start ∧ t.canState n = 0 ∧ t.regBit (R.CAN_EVT_STATUS n) 3 = true ∧
      SameBut (.bus :: eventParts) s t ∧ RegsBut [] s t) ∧
  (∀ (s : State) (n tc : Nat) (c : Copy), n < 24 → 2 ≤ s.canState n → alive s 3 = true → tc < 8 →
    s.swc.queues = [((64 + n) * 8 + tc, [c])] → s.aged c = true → PlainCopy c → c.port = 64 + n → c.tc = tc →
    Leaves (exec (.canOffHeadCheck n) s) fun t =>
      t.copies ((64 + n) * 8 + tc) = [] ∧
      t.ctr 8 (0x1000 + ((64 + n) * 8 + tc)) 8 = (s.ctr 8 (0x1000 + ((64 + n) * 8 + tc)) 8 + 1) % 2 ^ 64 ∧
      t.regBit R.SWC_EVT_STATUS 4 = true ∧ SameBut (.swc :: eventParts) s t ∧ RegsBut (releaseRegs s c) s t) ∧
  (∀ (s : State) (n : Nat), n < 24 → alive s (canDomain n) = true → s.canState n = 2 → (s.canCh n).recovering = true →
    s.safeDue = true →
    Ends (exec (.canBusoffRecovered n) s) fun t =>
      t = ((s.setCanCh n CanCh.start).raise (96 + n) 3).sendSafeSet (64 + n)) ∧
  (∀ (s : State) (n tc : Nat) (c : Copy) (rest : List Copy), s.linOn n = true → alive s 3 = true →
    s.meRuns (linHome n) = true → s.regBit (R.SWC_PCTL (96 + n)) 0 = true → StrictHead s s.linEligible (96 + n) tc →
    s.copies ((96 + n) * 8 + tc) = c :: rest → (s.frameOf c.frame).bus = true → busFormat (s.copyBytes c) = 3 →
    busAgrees (s.copyBytes c) = true → c.protect ≠ 1 →
    (kvGet (s.linCh n).bufs ((busHdr (s.copyBytes c)).id % 64) ⟨[], false, none⟩).copy = none →
    Leaves (exec (.linBufferTake n) s) fun t =>
      kvGet? (t.linCh n).bufs ((busHdr (s.copyBytes c)).id % 64) = some ⟨busData (s.copyBytes c), true, some c⟩ ∧
      t.copies ((96 + n) * 8 + tc) = rest ∧ SameBut [.bus, .swc] s t) ∧
  (∀ (s : State) (m : Master) (n v : Nat) (l : Loc), n < 8 → Writable s m (R.LIN_SCHED_CTRL n) v l →
    fld (word v) 1 0 ≠ (s.linCh n).table → (s.linCh n).slot = none → (s.linCh n).pass = none →
    Leaves (exec (.linScheduleSwitch m n v) s) fun t =>
      Stored s t (R.LIN_SCHED_CTRL n) v l ∧
      t.linCh n = { s.linCh n with table := fld (word v) 1 0, entry := 0, want := none } ∧
      t.regBit (R.LIN_EVT_STATUS n) 5 = true ∧ SameBut (.bus :: logParts) s t ∧ RegsBut [R.LIN_SCHED_CTRL n] s t) ∧
  (∀ (s : State) (m : Master) (n v : Nat) (l : Loc), n < 8 → Writable s m (R.LIN_SCHED_CTRL n) v l →
    fld (word v) 1 0 ≠ (s.linCh n).table → (s.linCh n).slot ≠ none →
    Leaves (exec (.linScheduleSwitch m n v) s) fun t =>
      Stored s t (R.LIN_SCHED_CTRL n) v l ∧ t.linCh n = { s.linCh n with want := some (fld (word v) 1 0) } ∧
      SameBut (.bus :: logParts) s t ∧ RegsBut [R.LIN_SCHED_CTRL n] s t) ∧
  (∀ (s : State) (m : Master) (n v : Nat) (l : Loc), n < 8 → Writable s m (R.LIN_CMD n) (withBit v 0) l →
    s.regBit (R.LIN_CFG n) 0 = true →
    Leaves (exec (.linWakeSend m n v) s) fun t =>
      .linWake n ∈ t.out ∧ SameBut logParts s t ∧ RegsBut [] s t) ∧
  (∀ (s : State) (n : Nat), s.linOn n = true →
    Ends (exec (.linWakeRx n) s) fun t =>
      t.regBit (R.LIN_EVT_STATUS n) 3 = true ∧ SameBut eventParts s t ∧ RegsBut [] s t) ∧
  (∀ (s : State) (n : Nat), s.linOn n = true →
    Ends (exec (.linBusIdle n) s) fun t =>
      t.regBit (R.LIN_EVT_STATUS n) 4 = true ∧ SameBut eventParts s t ∧ RegsBut [] s t)

/-! ### LIN (R229-R233) -/

/-- LIN_SLOT_START, LIN_HEADER_RECEIVED, LIN_RESPONSE_RECEIVED, LIN_FRAME_COMPLETE: a slot or a header of a published ID answers with
its buffer's data (R230-R232); of a subscribed ID it waits for the response, which is stored under its ID, counted, and goes
to classification (R232); a published frame sent whole is on the line, and the schedule goes on to its next entry. -/
def Obligations.LinFrames : Prop :=
  (∀ (s : State) (n t id : Nat) (d : Bytes), s.linOn n = true → s.regBit (R.LIN_CFG n) 1 = true →
    s.regBit (R.LIN_SCHED_CTRL n) 2 = true → s.meRuns (linHome n) = true → (s.linCh n).slot = none → (s.linCh n).pass = none →
    (s.linCh n).table = t → s.regFld (R.LIN_SCHED_LEN n t) 6 0 ≠ 0 → fld (s.reg (R.LIN_SCH n t (s.linCh n).entry)) 10 8 = 1 →
    fld (s.reg (R.LIN_SCH n t (s.linCh n).entry)) 5 0 = id → s.linDir n id = 2 → s.regBit (R.LIN_ID n id) 7 = false →
    kvGet? (s.linCh n).bufs id = some ⟨d, false, none⟩ → d ≠ [] →
    s.guardCause (96 + n) ⟨96 + n, 0, s.linFrame n id d, d.length⟩ = none →
    Leaves (exec (.linSlotStart n) s) fun t =>
      t.linCh n = { s.linCh n with
        slot := some ⟨id, 1, fld (s.reg (R.LIN_SCH n (s.linCh n).table (s.linCh n).entry)) 13 12, some d, none, s.now⟩ } ∧
      SameBut [.regs, .sys, .grd, .bus] s t ∧ RegsBut [R.GRD_PSTAT (96 + n)] s t) ∧
  (∀ (s : State) (n id : Nat), s.linOn n = true → s.regBit (R.LIN_CFG n) 1 = false → id < 64 →
    s.meRuns (linHome n) = true → (s.linCh n).slot = none → s.linDir n id = 1 →
    Leaves (exec (.linHeaderReceived n id) s) fun t =>
      t = s.setLinCh n { s.linCh n with slot := some ⟨id, 1, 0, none, none, s.now⟩ }) ∧
  (∀ (s : State) (n : Nat) (x : LinSlot) (data : Bytes), s.linOn n = true → LineCalm s (96 + n) →
    s.meRuns (linHome n) = false → (s.linCh n).slot = some x → x.type_ = 1 → x.copy = none → s.linDir n x.id = 1 →
    data ≠ [] → data.length ≤ 8 → s.regBit (R.LIN_CFG n) 1 = false →
    Ends (exec (.linResponseReceived n 0 data) s) fun t =>
      kvGet? (t.linCh n).bufs x.id = some ⟨data, false, (kvGet (s.linCh n).bufs x.id ⟨[], false, none⟩).copy⟩ ∧
      (t.linCh n).slot = none ∧ t.ctr (120 + n) 1 0 = (s.ctr (120 + n) 1 0 + 1) % 2 ^ 64 ∧ SameBut [.sys, .bus] s t) ∧
  (∀ (s : State) (n : Nat) (x : LinSlot) (data : Bytes), s.linOn n = true → LineCalm s (96 + n) →
    (s.linCh n).slot = some x → x.type_ = 1 → x.copy = none → s.linDir n x.id = 1 → s.regBit (R.LIN_CFG n) 1 = false →
    Ends (exec (.linResponseReceived n 1 data) s) fun t =>
      t.regBit (R.LIN_EVT_STATUS n) 1 = true ∧ t.ctr (120 + n) 1 5 = min (s.ctr (120 + n) 1 5 + 1) 0xFFFFFFFF ∧
      t.linCh n = { s.linCh n with slot := none } ∧ SameBut (.bus :: eventParts) s t ∧ RegsBut [] s t) ∧
  (∀ (s : State) (n : Nat) (x : LinSlot) (d : Bytes), s.linOn n = true → LineCalm s (96 + n) → (s.linCh n).slot = some x →
    x.data = some d → x.copy = none → s.regBit (R.LIN_CFG n) 1 = true → (s.linCh n).pass = none → (s.linCh n).want = none →
    Ends (exec (.linFrameComplete n) s) fun t =>
      t.out = s.out ++ [.frame (96 + n) (s.linFrame n x.id d) true] ∧
      t.linCh n = { s.linCh n with slot := none, entry :=
        if (s.linCh n).entry + 1 < s.regFld (R.LIN_SCHED_LEN n (s.linCh n).table) 6 0 then (s.linCh n).entry + 1 else 0 } ∧
      t.ctr (120 + n) 1 2 = (s.ctr (120 + n) 1 2 + 1) % 2 ^ 64 ∧ SameBut [.sys, .bus, .out] s t)

/-! ### The session microengines (R223-R228, R243) -/

/-- TP_SESSION_OPEN, TP_DT_RECEIVED, TP_TIMEOUT, TP_ABORT_RECEIVED: an announcement for an enabled entry opens a session, answered with
a clear to send (R223, R224); the next packet is gathered; a session silent for its time, or aborted by a node, ends, counted
as TP_ABORT (R223, R224).
The model's choices in it: assumption 64. -/
def Obligations.TransportReception : Prop :=
  (∀ (s : State) (n e : Nat) (f : CanFrame) (a : Announce), s.tpHears n = true → tpFrame f = true → f.id < 2 ^ 29 →
    announceOf (pgnOf f.id) f.data = some a → s.tpEntry n (cmPgn f.data) a.etp = some e →
    (∀ x ∈ s.bus.rx, x.same n (f.id % 256) (f.id / 256 % 256) (cmPgn f.data) = false) → 0 < a.total → a.total ≤ 65536 →
    s.tpOpen (canDomain n) < 128 → s.bus.rx.length < s.tpRoom → s.tpAnswers e (f.id / 256 % 256) a.bam = false →
    Leaves (exec (.tpSessionOpen n f) s) fun t =>
      t = s.setTpRx (s.bus.rx ++ [⟨n, e, f.id % 256, f.id / 256 % 256, cmPgn f.data, f.id / 2 ^ 26 % 8, a.total, a.etp, a.bam,
        [], 1, 0, s.now, if a.bam then 750 else 1250⟩])) ∧
  (∀ (s : State) (n : Nat) (f : CanFrame) (x : TpRx), s.tpHears n = true → tpFrame f = true → f.id < 2 ^ 29 →
    s.bus.rx = [x] → x.ch = n → x.sa = f.id % 256 → x.da = f.id / 256 % 256 → pgnOf f.id = dtOf x.etp →
    byteAt f.data 0 = x.next → x.got.length + 7 < x.total → (s.tpAnswers x.entry x.da x.bam = false ∨
      x.got.length + 7 < x.clear * 7) →
    Leaves (exec (.tpDtReceived n f) s) fun t =>
      t = s.setTpRx [{ x with got := x.got ++ slice f.data 1 7, next := x.next + 1, last := s.now, wait := 750 }]) ∧
  (∀ (s : State) (n : Nat) (f : CanFrame) (x : TpRx), s.tpHears n = true → tpFrame f = true → f.id < 2 ^ 29 →
    s.bus.rx = [x] → x.ch = n → x.sa = f.id % 256 → x.da = f.id / 256 % 256 → pgnOf f.id = dtOf x.etp →
    byteAt f.data 0 = x.next → x.total ≤ x.got.length + 7 → x.got.length < x.total →
    s.tpAnswers x.entry x.da x.bam = false →
    Leaves (exec (.tpDtReceived n f) s) fun t =>
      t = (s.setTpRx []).tpAdmit
        { x with got := x.got ++ slice f.data 1 7, next := x.next + 1, last := s.now, wait := 750 }) ∧
  (∀ (s : State) (x : TpRx), s.bus.rx = [x] → x.ch < 24 → s.sessionRuns (canDomain x.ch) = true →
    x.wait * 1000000 ≤ s.now - x.last → s.tpAnswers x.entry x.da x.bam = false →
    Ends (exec (.tpTimeout x.ch x.sa x.da x.pgn) s) fun t =>
      t.bus.rx = [] ∧ t.ctr (96 + x.ch) 1 12 = min (s.ctr (96 + x.ch) 1 12 + 1) 0xFFFFFFFF ∧
      t.regBit (R.CAN_EVT_STATUS x.ch) 5 = true ∧ SameBut (.bus :: eventParts) s t ∧ RegsBut [] s t) ∧
  (∀ (s : State) (n : Nat) (f : CanFrame) (x : TpRx), s.tpHears n = true → tpFrame f = true → f.id < 2 ^ 29 →
    pgnOf f.id = 0xEC00 → byteAt f.data 0 = 0xFF → s.bus.rx = [x] → n < 24 →
    x.same n (f.id % 256) (f.id / 256 % 256) (cmPgn f.data) = true →
    Ends (exec (.tpAbortReceived n f) s) fun t =>
      t.bus.rx = [] ∧ t.ctr (96 + n) 1 12 = min (s.ctr (96 + n) 1 12 + 1) 0xFFFFFFFF ∧
      t.regBit (R.CAN_EVT_STATUS n) 5 = true ∧ SameBut (.bus :: eventParts) s t ∧ RegsBut [] s t)

/-- TP_TX_SESSION_START, TP_TX_SEGMENT_TIMEOUT, TP_TX_SESSION_END, TUNNEL_TERMINATE, ME_HANG: with every segment present a message is
announced (R226); without one of them for 1,250 ms, or aborted, its session's copies are discarded as TP_ABORT; a message of
one packet that ends well is on the line and its copy complete; a tunnel frame is terminated message by message (R228); a
microengine that hangs latches its source (R243). -/
def Obligations.TransportTransmission : Prop :=
  (∀ (s : State) (n : Nat) (y : TpTx) (c : Copy), s.tpHears n = true → s.canCounts n = true → s.bus.tx = [y] → y.ch = n →
    y.started = false → y.nseg = 1 → y.segs = [(0, c)] → (busData (s.copyBytes c)).length ≤ 1785 →
    s.regBit R.TBL_TRACK_CTRL n = false →
    let msg := busData (s.copyBytes c)
    let x := s.txMsg c msg.length
    let line := tpLine (tpId x.prio 0xEC00 x.da x.sa) (rtsData false x.bam msg.length x.pgn)
    s.guardCause (64 + n) ⟨c.ingress, c.stream, line, 8⟩ = none →
    Leaves (exec (.tpTxSessionStart n y.tag) s) fun t =>
      t.bus.tx = [{ y with started := true, msg := msg, last := s.now }] ∧
      t.out = s.out ++ [.frame (64 + n) line true] ∧ t.ctr (96 + n) 1 2 = (s.ctr (96 + n) 1 2 + 1) % 2 ^ 64 ∧
      SameBut [.regs, .sys, .grd, .bus, .out] s t ∧ RegsBut [R.GRD_PSTAT (64 + n)] s t) ∧
  (∀ (s : State) (n : Nat) (y : TpTx) (c : Copy), n < 24 → s.sessionRuns (canDomain n) = true → s.bus.tx = [y] → y.ch = n →
    y.started = false → 1 < y.nseg → y.segs = [(0, c)] → PlainCopy c → c.port = 64 + n → 1250000000 ≤ s.now - y.last →
    Leaves (exec (.tpTxSegmentTimeout n y.tag) s) fun t =>
      t.bus.tx = [] ∧ t.ctr (96 + n) 1 12 = min (s.ctr (96 + n) 1 12 + 1) 0xFFFFFFFF ∧
      t.regBit (R.CAN_EVT_STATUS n) 5 = true ∧ SameBut (.bus :: .swc :: eventParts) s t ∧ RegsBut (releaseRegs s c) s t) ∧
  (∀ (s : State) (n : Nat) (y : TpTx) (c : Copy), n < 24 → s.sessionRuns (canDomain n) = true → s.bus.tx = [y] → y.ch = n →
    y.started = true → y.nseg = 1 → y.segs = [(0, c)] → PlainCopy c → c.port = 64 + n →
    Leaves (exec (.tpTxSessionEnd n y.tag false) s) fun t =>
      t.bus.tx = [] ∧ t.ctr (96 + n) 1 12 = min (s.ctr (96 + n) 1 12 + 1) 0xFFFFFFFF ∧
      t.regBit (R.CAN_EVT_STATUS n) 5 = true ∧ SameBut (.bus :: .swc :: eventParts) s t ∧ RegsBut (releaseRegs s c) s t) ∧
  (∀ (s : State) (n : Nat) (y : TpTx) (c : Copy), n < 24 → s.canOn n = true → s.canCounts n = true →
    s.sessionRuns (canDomain n) = true → s.bus.tx = [y] → y.ch = n → y.started = true → y.nseg = 1 → y.segs = [(0, c)] →
    0 < y.msg.length → y.msg.length ≤ 7 → PlainCopy c → c.port = 64 + n → c.tag = none →
    s.regBit R.TBL_TRACK_CTRL n = false →
    let x := s.txMsg c y.msg.length
    let line := tpLine (tpId x.prio 0xEB00 x.da x.sa) ([1#8] ++ y.msg ++ List.replicate (7 - y.msg.length) 0xFF#8)
    s.guardCause (64 + n) ⟨c.ingress, c.stream, line, 8⟩ = none →
    Leaves (exec (.tpTxSessionEnd n y.tag true) s) fun t =>
      t.bus.tx = [] ∧ t.out = s.out ++ [.frame (64 + n) line true] ∧
      t.ctr 8 (0x1000 + c.queue) 0 = (s.ctr 8 (0x1000 + c.queue) 0 + 1) % 2 ^ 64 ∧
      SameBut [.regs, .sys, .grd, .bus, .swc, .out] s t ∧
      RegsBut (R.GRD_PSTAT (64 + n) :: releaseRegs s c) s t) ∧
  (∀ (s : State) (t : TunFrame) (rest : List TunFrame), alive s 3 = true → s.bus.tun = t :: rest →
    Leaves (exec .tunnelTerminate s) fun t' =>
      t' = (tunnelItems t.bytes fun c => latchCompact t.rx (if c < 24 then s.regFld (R.CAN_CFG c) 13 12 else 2)).foldl
        (fun s i => s.tunItem t.entry t.rx i) { s with bus := { s.bus with tun := rest } }) ∧
  (∀ (s : State) (n : Nat), n < 16 → s.meRuns n = true → Mild s 54 2 →
    Ends (exec (.meHang n) s) fun t =>
      t.regBit (fltReg 54 0) 2 = true ∧ SameBut eventParts s t ∧ RegsBut (faultRegs 54) s t)

/-! ### The signal plane (R244-R284) -/

/-- CELL_WRITE, STALE_SWEEP: a granted write of a single cell sets its value and state and counts it, stamping its age (R246, R247,
R258); one that its attribute does not grant is refused, counted and captured first (R260); the sweep turns a cell older than
its limit `STALE` (R248).

PACK_PERIODIC_EMIT, PACK_DEFERRED_EMIT: the rule's template starts on the classification of its stream on port 56, counted, its
gap running again and no trigger of it left deferred (R264, R265). -/
def Obligations.SignalCells : Prop :=
  (∀ (s : State) (m : Master) (n b : Nat) (w : Word), n < 65536 → inbound m = false → debugClosed s m = false →
    inReset s 15 = false → s.groupOf n = (n, 1) → s.wmaskBit m = some b → (fld (s.attrOf n) 6 0).testBit b = true →
    cellState w < 6 → s.regBit R.PLE_CTRL 0 = false → s.regBit R.SIG_CTRL 1 = false →
    Leaves (exec (.cellWrite m n false [w]) s) fun t =>
      t.cell n = word (fld w 31 8 * 256 + cellState w * 32 + (fld (s.cell n) 4 0 + 1) % 32) ∧
      kvGet t.sig.stamp n 0 = s.nowUs % 2 ^ 32 ∧ (∀ k, k ≠ n → t.cell k = s.cell k) ∧ t.sys.bus = .done ∧
      SameBut [.sig, .sys] s t) ∧
  (∀ (s : State) (m : Master) (n b : Nat) (w : Word), n < 65536 → inbound m = false → debugClosed s m = false →
    inReset s 15 = false → s.groupOf n = (n, 1) → s.wmaskBit m = some b → (fld (s.attrOf n) 6 0).testBit b = false →
    s.reg R.SIG_WDENY_CNT = 0 → Mild s 22 3 →
    Leaves (exec (.cellWrite m n false [w]) s) fun t =>
      t.sig = s.sig ∧ t.reg R.SIG_WDENY_CNT = 1 ∧ t.reg R.SIG_WDENY_ADDR = word n ∧ t.regBit (fltReg 22 0) 3 = true ∧
      t.sys.bus = .done ∧ SameBut eventParts s t ∧
      RegsBut (R.SIG_WDENY_CNT :: R.SIG_WDENY_ADDR :: R.SIG_WDENY_INFO :: faultRegs 22) s t) ∧
  (∀ (s : State) (n : Nat) (w : Word), s.regBit R.SIG_CTRL 2 = true → alive s 15 = true → s.sig.cell = [(n, w)] →
    s.groupOf n = (n, 1) → fld (s.attrOf n) 27 16 ≠ 0 → (cellState w = 0 ∨ cellState w = 2 ∨ cellState w = 3) →
    fld (s.attrOf n) 27 16 * 1000 < (s.nowUs % 2 ^ 32 + 2 ^ 32 - kvGet s.sig.stamp n 0) % 2 ^ 32 →
    Ends (exec .staleSweep s) fun t =>
      t.cell n = putFld w 7 5 1 ∧ t.ctr 22 1 10 = min (s.ctr 22 1 10 + 1) 0xFFFFFFFF ∧
      t.regBit R.SIG_EVT_STATUS 1 = true ∧ SameBut (.sig :: eventParts) s t ∧ RegsBut [] s t) ∧
  (∀ (s : State) (n : Nat), s.periodicDue n = true →
    Leaves (exec (.packPeriodicEmit n) s) fun t =>
      t = (State.originate ((s.setSig { s.sig with
          lastMs := kvSet s.sig.lastMs n s.nowMs, lastEmit := kvSet s.sig.lastEmit n s.now
          deferred := s.sig.deferred.filter (· != n) }).addCtr 22 1 4 1)
        56 (fld (s.sig.act.wordOf 3 n 0) 15 0) (.pack n) none none (s.template n)).2) ∧
  (∀ (s : State) (n : Nat), s.deferredDue n = true → s.regBit R.SIG_CTRL 1 = true → alive s 15 = true →
    bitOf (s.sig.act.wordOf 3 n 0) 31 = true →
    Leaves (exec (.packDeferredEmit n) s) fun t =>
      t = (State.originate ((s.setSig { s.sig with
          lastEmit := kvSet s.sig.lastEmit n s.now, deferred := s.sig.deferred.filter (· != n) }).addCtr 22 1 4 1)
        56 (fld (s.sig.act.wordOf 3 n 0) 15 0) (.pack n) none none (s.template n)).2)

/-- SIG_LOAD, SIG_LOAD_CLEAR, SIG_LOAD_DONE: a load is running, from its source or of zeroes, and SIG_RI_ARM.OK clears with it (R274,
R283); complete, its bytes stand in the shadow structure and LD_DONE is raised. RI_ARM: OK stands where no check fails
(R275). ROUTE_IMAGE_LOAD: the shadow banks of SIG and PLE are those of the image, and armed where it is signed and its SVN
is not below the minimum (R273).

EPOCH_SWITCH_REQUEST, EPOCH_SWITCH_CANCEL, ROUTE_EPOCH: a switch is pending for its instant, or withdrawn with its event (R276,
R279); when it takes effect the banks of SIG, TBL and PLE change places as one step, the epoch counts, OK clears, the cells
whose attribute word did not change keep their words, and the change is recorded (R276, R278).
The model's choices in it: assumptions 66, 67, 128, 151. -/
def Obligations.RouteImages : Prop :=
  (∀ (s : State) (m : Master) (v : Nat) (l : Loc), Writable s m R.SIG_LD_CTRL (withBit (sansBit v 8) 31) l →
    (s.reg R.SIG_LD_LEN).toNat ≠ 0 → s.sig.switch = none →
    Leaves (exec (.sigLoad m v) s) fun t =>
      t.sig = { s.sig with load := some ⟨false, fld (word v) 2 0,
        (s.reg (R.SIG_LD_SRC 0)).toNat + s.regFld (R.SIG_LD_SRC 1) 15 0 * 2 ^ 32, (s.reg R.SIG_LD_DST).toNat,
        (s.reg R.SIG_LD_LEN).toNat⟩ } ∧
      t.regBit R.SIG_RI_ARM 0 = false ∧ SameBut (.sig :: logParts) s t ∧ RegsBut [R.SIG_RI_ARM] s t) ∧
  (∀ (s : State) (m : Master) (v : Nat) (l : Loc), Writable s m R.SIG_LD_CTRL (withBit v 8) l → s.sig.switch = none →
    Leaves (exec (.sigLoadClear m v) s) fun t =>
      t.sig = { s.sig with
        shd := s.sig.shd.setPart (fld (word v) 2 0) [], load := some ⟨true, fld (word v) 2 0, 0, 0, 0⟩ } ∧
      t.regBit R.SIG_RI_ARM 0 = false ∧ SameBut (.sig :: logParts) s t ∧ RegsBut [R.SIG_RI_ARM] s t) ∧
  (∀ (s : State) (j : LoadJob), alive s 15 = true → s.sig.load = some j → j.clear = false →
    Ends (exec .sigLoadDone s) fun t =>
      t.sig = { s.sig with
        load := none
        shd := s.sig.shd.setPart j.struct_ (memWrite (s.sig.shd.part j.struct_) j.dst (s.read j.src j.len)) } ∧
      t.reg R.SIG_LD_STAT = 0 ∧ t.regBit R.SIG_EVT_STATUS 4 = true ∧
      SameBut (.sig :: eventParts) s t ∧ RegsBut [R.SIG_LD_STAT] s t) ∧
  (∀ (s : State) (m : Master) (v : Nat) (l : Loc), Writable s m R.SIG_RI_ARM (withBit v 0) l →
    Leaves (exec (.riArm m v) s) fun t =>
      t.reg R.SIG_RI_ARM = 1 ∧ SameBut logParts s t ∧ RegsBut [R.SIG_RI_ARM] s t) ∧
  (∀ (s : State) (src ring : Nat) (bs : Bytes), bs = s.readImage src 0x1000000 → alive s 1 = true → alive s 4 = true →
    alive s 15 = true → s.sig.load = none → s.ple.load = none → s.drainCount = 0 → s.pleDrain = 0 → s.sig.switch = none →
    imgForm bs (ascii "PGRT") s.routeMajors routeTypes 0x1000000 = true → routeFits bs = true →
    (∀ x ∈ imgSections bs, 0x10 ≤ x.type_) → (∀ t ∈ [0, 1, 2, 3, 5, 9], s.tbl.table t true = []) →
    (routeSig bs).armCheck = none → (routePle bs).armCheck = none → s.aud.gap = 0 → s.unexported + 3 ≤ ringEntries →
    Ends (exec (.routeImageLoad src ring) s) fun t =>
      t.sig.shd = routeSig bs ∧ t.ple.shd = routePle bs ∧ t.sig.act = s.sig.act ∧ t.tbl = s.tbl ∧
      (if s.imgSigned 2 bs = true ∧ leAt s.sel 20 4 ≤ leAt bs 16 4 then
        t.reg R.SIG_RI_ARM = 1 ∧ t.reg R.SIG_RI_SHD_VER = word (leAt bs 12 4) ∧ t.sig.shdDigest = imgDigest bs
      else t.regBit R.SIG_RI_ARM 0 = false ∧ t.reg R.SIG_RI_SHD_VER = s.reg R.SIG_RI_SHD_VER) ∧
      SameBut (.sig :: .ple :: logParts) s t ∧ RegsBut [R.SIG_RI_ARM, R.SIG_RI_SHD_VER, R.SIG_RI_SHD_DIG] s t) ∧
  (∀ (s : State) (m : Master) (v at_ : Nat) (l : Loc), Writable s m R.SIG_EPOCH_CTRL (withBit (sansBit v 1) 0) l →
    at_ = (s.reg (R.SIG_EPOCH_AT 0)).toNat + (s.reg (R.SIG_EPOCH_AT 1)).toNat * 2 ^ 32 →
    Leaves (exec (.epochSwitchRequest m v) s) fun t =>
      t.sig = { s.sig with switch := some ⟨if at_ = 0 then none else some (compactBase at_, s.expand at_), m⟩ } ∧
      t.reg R.SIG_EPOCH_CTRL = 1 ∧ SameBut (.sig :: logParts) s t ∧ RegsBut [R.SIG_EPOCH_CTRL] s t) ∧
  (∀ (s : State) (m : Master) (v : Nat) (r : EpochReq) (l : Loc),
    Writable s m R.SIG_EPOCH_CTRL (withBit (sansBit v 0) 1) l → s.sig.switch = some r →
    Leaves (exec (.epochSwitchCancel m v) s) fun t =>
      t.sig = { s.sig with switch := none } ∧ t.reg R.SIG_EPOCH_CTRL = 0 ∧ t.regBit R.SIG_EVT_STATUS 3 = true ∧
      SameBut (.sig :: logParts) s t ∧ RegsBut [R.SIG_EPOCH_CTRL] s t) ∧
  (∀ (s : State) (r : EpochReq), s.sig.switch = some r → s.switchDue = true → alive s 15 = true → LogRoom s →
    Ends (exec .routeEpoch s) fun t =>
      t.sig.act = s.sig.shd ∧ t.sig.shd = s.sig.act ∧ t.tbl = { s.tbl with act := s.tbl.shd, shd := s.tbl.act } ∧
      t.ple.act = s.ple.shd ∧ t.ple.shd = s.ple.act ∧ t.sig.bank = 1 - s.sig.bank ∧ t.sig.switch = none ∧
      (∀ n, s.sig.act.wordOf 2 n 0 = s.sig.shd.wordOf 2 n 0 → t.cell n = s.cell n) ∧
      t.reg R.SIG_EPOCH_STAT = word ((s.regFld R.SIG_EPOCH_STAT 15 0 + 1) % 65536) ∧
      t.reg R.SIG_RI_ACT_VER = s.reg R.SIG_RI_SHD_VER ∧ t.reg R.SIG_RI_ARM = 0 ∧ t.regBit R.SIG_EVT_STATUS 2 = true ∧
      Entered s t r.m.origin (privByte s r.m false (r.m.origin ≤ 2)) 0xD000000B
        (word (2 + 256 * (if byteAt s.sel 13 = 0xFF then byteAt s.sel 12 else byteAt s.sel 13)))
        (s.reg R.SIG_RI_SHD_VER) ∧
      SameBut (.sig :: .tbl :: .ple :: logParts) s t ∧
      RegsBut [R.SIG_EPOCH_STAT, R.SIG_RI_ACT_VER, R.SIG_RI_ACT_DIG, R.SIG_RI_ARM, R.SIG_EPOCH_CTRL] s t)

/-! ### Time (R286-R322) -/

/-- PDELAY_REQ_SEND, PDELAY_REQ_RECEIVED, PDELAY_SAMPLE, PDELAY_RESPONSE_TIMEOUT: a request goes out under the next sequence number
(R296); a peer's request is answered by a response and its follow-up (R296); the first exchange measured gives the link
delay and makes it valid, and a later one within the threshold moves it by its share (R297); three exchanges in a row
without response end its validity (R297).

OFS_IN_WRITE, SYNC_RECEIVED, FOLLOW_UP_RECEIVED, FOLLOW_UP_TIMEOUT, SERVO_HOLDOVER: a sample within the step limit moves the
integral and RATE by the servo's law, both clipped to RLIM (R300, R301); a two-step Sync waits for its Follow_Up, which makes
its sample, and without one is discarded (R299); a base without a sample for its time loses lock (R303).
The model's choices in it: assumptions 69, 70. -/
def Obligations.TimeMeasurement : Prop :=
  (∀ (s : State) (p : Nat), s.pdOn p = true →
    Ends (exec (.pdelayReqSend p) s) fun t =>
      t.portDelay p = { s.portDelay p with seqId := ((s.portDelay p).seqId + 1) % 65536, out := true } ∧
      t.out = s.out ++ [.frame p (s.pdMessage p 2 (((s.portDelay p).seqId + 1) % 65536) 5
        (s.regFld (R.TIM_PORT_CFG p) 15 8) 0 [0, 0] (List.replicate 20 0)) true] ∧
      SameBut [.tim, .sys, .out] s t) ∧
  (∀ (s : State) (p seq ago : Nat) (peer : Bytes), s.pdOn p = true →
    Ends (exec (.pdelayReqReceived p seq ago peer) s) fun t =>
      let t2 := captured (s.tim.tb3.val - ago * frac32) - fld (s.reg (R.TIM_PORT_LAT p)) 31 16 * 0x4000
      let t3 := captured s.tim.tb3.val + fld (s.reg (R.TIM_PORT_LAT p)) 15 0 * 0x4000
      t.out = s.out ++ [
        .frame p (s.pdMessage p 3 (seq % 65536) 5 0x7F (t2 % 65536) [2, 0] (ptpStamp t2 ++ slice peer 0 10)) true,
        .frame p (s.pdMessage p 0xA (seq % 65536) 5 0x7F (t3 % 65536) [0, 0] (ptpStamp t3 ++ slice peer 0 10)) true] ∧
      SameBut [.sys, .out] s t) ∧
  (∀ (s : State) (p t1 t2 t3 t4 : Nat), s.pdOn p = true → (s.portDelay p).out = true → (s.portDelay p).valid = false →
    (s.portDelay p).lastT3T4 = none →
    Ends (exec (.pdelaySample p t1 t2 t3 t4) s) fun t =>
      t.portDelay p = { s.portDelay p with
        mld := roundDiv (((t4 : Int) - t1) * (s.portDelay p).nrr - ((t3 : Int) - t2) * 2 ^ 32) (2 ^ 33)
        valid := true, lastT3T4 := some (t3, t4), lost := 0, out := false } ∧
      t.ctr 20 (0x100 + p) 3 = min (s.ctr 20 (0x100 + p) 3 + 1) 0xFFFFFFFF ∧ SameBut [.tim, .sys] s t) ∧
  (∀ (s : State) (p t1 t2 t3 t4 a b r : Nat) (d : Int), s.pdOn p = true → (s.portDelay p).out = true →
    (s.portDelay p).valid = true → (s.portDelay p).lastT3T4 = some (a, b) → a < t3 → b < t4 →
    r = ((t3 - a) * 2 ^ 32 + (t4 - b) / 2) / (t4 - b) →
    d = roundDiv (((t4 : Int) - t1) * r - ((t3 : Int) - t2) * 2 ^ 32) (2 ^ 33) →
    (d - (s.portDelay p).mld).natAbs ≤ s.regFld (R.TIM_PORT_STEP_THR p) 15 0 * 65536 →
    Ends (exec (.pdelaySample p t1 t2 t3 t4) s) fun t =>
      t.portDelay p = { s.portDelay p with
        mld := (s.portDelay p).mld + roundDiv (d - (s.portDelay p).mld) (2 ^ s.regFld (R.TIM_PORT_CFG p) 18 16)
        nrr := r, step := false, lastT3T4 := some (t3, t4), lost := 0, out := false } ∧ SameBut [.tim, .sys] s t) ∧
  (∀ (s : State) (p : Nat), s.pdOn p = true → (s.portDelay p).out = true →
    Ends (exec (.pdelayResponseTimeout p) s) fun t =>
      (t.portDelay p).lost = min ((s.portDelay p).lost + 1) 3 ∧ (t.portDelay p).out = false ∧
      (t.portDelay p).valid = ((s.portDelay p).valid && decide ((s.portDelay p).lost < 2)) ∧
      t.ctr 20 (0x100 + p) 4 = min (s.ctr 20 (0x100 + p) 4 + 1) 0xFFFFFFFF ∧ SameBut [.tim, .sys] s t) ∧
  (∀ (s : State) (m : Master) (n v : Nat) (l : Loc) (off i : Int), n < 3 → Writable s m (R.TIM_TB_OFS_IN n) v l →
    off = signed 32 (word v).toNat * 2 ^ 28 → (s.tb n).hold = false → (s.tb n).foxHold = false →
    (s.regFld (R.TIM_TB_STEP n) 23 0 = 0 ∨ off.natAbs ≤ s.regFld (R.TIM_TB_STEP n) 23 0 * frac32) →
    i = clampI (-(s.rlim n)) (s.rlim n)
      (roundDiv ((s.tb n).integ * 2 ^ 40 - (s.reg (R.TIM_TB_KI n)).toNat * off) (2 ^ 40)) →
    Leaves (exec (.ofsInWrite m n v) s) fun t =>
      (t.tb n).integ = i ∧ (t.tb n).lastOff = off ∧ (t.tb n).val = (s.tb n).val ∧
      (t.tb n).rate = clampI (-(s.rlim n)) (s.rlim n) (roundDiv (i * 2 ^ 40 - (s.reg (R.TIM_TB_KP n)).toNat * off) (2 ^ 40)) ∧
      SameBut (.tim :: logParts) s t ∧ RegsBut [] s t) ∧
  (∀ (s : State) (p dom seq ago origin n : Nat) (corr csro : Int), s.syncBase p dom = some n →
    Ends (exec (.syncReceived p dom seq ago true origin corr csro) s) fun t =>
      t.tim = { s.tim with sync := kvSet s.tim.sync n ⟨seq, s.latch ago, corr, s.now⟩ } ∧ SameBut [.tim, .sys] s t) ∧
  (∀ (s : State) (p dom seq ago origin n : Nat) (corr csro : Int), s.syncBase p dom = some n → (s.portDelay p).valid = true →
    Ends (exec (.syncReceived p dom seq ago false origin corr csro) s) fun t =>
      t = (s.satCtr 20 (0x100 + p) 6).servo n
        ((captured ((s.latch ago).getD n 0) - (s.regFld (R.TIM_PORT_LAT p) 31 16 * 0x4000 : Nat) - origin - corr -
          signed 32 (s.reg (R.TIM_PORT_ASYM p)).toNat) * 65536 -
          roundDiv ((s.portDelay p).mld * (2 ^ 41 + csro) * (s.portDelay p).nrr) (2 ^ 57)) (s.latch ago)) ∧
  (∀ (s : State) (p dom seq origin n : Nat) (corr csro : Int) (w : SyncWait), s.syncBase p dom = some n →
    kvGet? s.tim.sync n = some w → w.seqId = seq → s.now ≤ w.at3 + giga → (s.portDelay p).valid = true →
    Ends (exec (.followUpReceived p dom seq origin corr csro) s) fun t =>
      t = (s.setTim { s.tim with sync := kvDel s.tim.sync n }).servo n
        ((captured (w.at_.getD n 0) - (s.regFld (R.TIM_PORT_LAT p) 31 16 * 0x4000 : Nat) - origin - (corr + w.corr) -
          signed 32 (s.reg (R.TIM_PORT_ASYM p)).toNat) * 65536 -
          roundDiv ((s.portDelay p).mld * (2 ^ 41 + csro) * (s.portDelay p).nrr) (2 ^ 57)) w.at_) ∧
  (∀ (s : State) (n : Nat) (w : SyncWait), kvGet? s.tim.sync n = some w → w.at3 + giga ≤ s.now →
    Ends (exec (.followUpTimeout n) s) fun t => t = s.setTim { s.tim with sync := kvDel s.tim.sync n }) ∧
  (∀ (s : State) (n : Nat), n < 3 → (n = 2 → s.tim.tb0.hold = false ∧ s.tim.tb1.hold = false) →
    0 < s.regFld (R.TIM_TB_HOLD n) 31 16 → (s.tb n).sampled = true →
    (s.tb n).holdover = false → (s.tb n).lastSample + s.regFld (R.TIM_TB_HOLD n) 31 16 * 1000000 ≤ s.now →
    alive s 15 = true → (s.tb n).locked = true →
    Ends (exec (.servoHoldover n) s) fun t =>
      t.tb n = { s.tb n with holdover := true, lockCnt := 0, unlockCnt := 0, locked := false } ∧
      t.regBit R.TIM_EVT_STATUS 1 = true ∧ SameBut (.tim :: eventParts) s t ∧ RegsBut [] s t)

/-- TB_STEP, TB_HOLD, TB_RELEASE, TB_CLR_UNRES, SLAVE_PORT_WRITE, HOLD_RELEASE: a step moves the base by its adjustment, advances its
generation and ends its lock (R302, R303); HOLD starts with its timer, by command or where the link delays of the old and
the new slave port differ too much (R298, R304); its release without TB2 leaves the asymmetry unresolved, which CLR_UNRES
clears (R305, R306); with TB2 the correction within its limit is added to ASYM (R305). -/
def Obligations.BaseCommands : Prop :=
  (∀ (s : State) (m : Master) (n : Nat) (l : Loc), n < 3 → Writable s m (R.TIM_TB_CMD n) 1 l → (n ≠ s.pleBase ∨ s.ple.mode = 0) →
    Leaves (exec (.tbStep m n) s) fun t =>
      (t.tb n).val = ((s.tb n).val + s.adjNs n * frac32).toNat ∧ (t.tb n).gen = (s.tb n).gen + 1 ∧
      (t.tb n).locked = false ∧ (t.tb n).lockCnt = 0 ∧ (t.tb n).rate = (s.tb n).rate ∧
      t.regBit R.TIM_EVT_STATUS 0 = true ∧ SameBut (.tim :: .ple :: logParts) s t ∧ RegsBut [] s t) ∧
  (∀ (s : State) (m : Master) (n : Nat) (l : Loc), n < 3 → Writable s m (R.TIM_TB_CMD n) 2 l → (s.tb n).hold = false →
    Leaves (exec (.tbHold m n) s) fun t =>
      t.tb n = { s.tb n with hold := true, holdAt := s.now, during := [], asymWritten := false } ∧
      t.regBit R.TIM_EVT_STATUS 2 = true ∧ SameBut (.tim :: logParts) s t ∧ RegsBut [] s t) ∧
  (∀ (s : State) (m : Master) (n : Nat) (l : Loc), n < 3 → Writable s m (R.TIM_TB_CMD n) 4 l → (s.tb n).hold = true →
    (s.tb n).asymWritten = false → s.regFld (R.TIM_TB_CFG n) 2 1 = 0 →
    Leaves (exec (.tbRelease m n) s) fun t =>
      t.tb n = { s.tb n with hold := false, asymAlarm := false, asymUnres := true } ∧
      t.regBit R.TIM_EVT_STATUS 4 = true ∧ SameBut (.tim :: logParts) s t ∧ RegsBut [] s t) ∧
  (∀ (s : State) (m : Master) (n : Nat) (l : Loc), n < 3 → Writable s m (R.TIM_TB_CMD n) 4 l → (s.tb n).hold = true →
    ((s.tb n).asymWritten = true ∨ s.regFld (R.TIM_TB_CFG n) 2 1 ≠ 0) →
    Leaves (exec (.tbRelease m n) s) fun t =>
      t.tb n = { s.tb n with hold := false, asymAlarm := false } ∧ SameBut (.tim :: logParts) s t ∧ RegsBut [] s t) ∧
  (∀ (s : State) (m : Master) (n : Nat) (l : Loc), n < 3 → Writable s m (R.TIM_TB_CMD n) 8 l →
    Leaves (exec (.tbClrUnres m n) s) fun t =>
      t.tb n = { s.tb n with asymUnres := false } ∧ SameBut (.tim :: logParts) s t ∧ RegsBut [] s t) ∧
  (∀ (s : State) (m : Master) (n v : Nat) (l : Loc), n < 3 → Writable s m (R.TIM_TB_CFG n) v l →
    s.regFld (R.TIM_TB_CFG n) 2 1 = 0 → fld (word v) 2 1 = 0 → s.regFld (R.TIM_TB_CFG n) 10 4 ≠ fld (word v) 10 4 →
    (s.tb n).hold = false → (s.portDelay (fld (word v) 10 4)).valid = false →
    Leaves (exec (.slavePortWrite m n v) s) fun t =>
      Stored s t (R.TIM_TB_CFG n) v l ∧
      t.tb n = { s.tb n with hold := true, holdAt := s.now, during := [], asymWritten := false } ∧
      t.regBit R.TIM_EVT_STATUS 2 = true ∧ SameBut (.tim :: logParts) s t ∧ RegsBut [R.TIM_TB_CFG n] s t) ∧
  (∀ (s : State) (n : Nat), n < 3 → (s.tb n).hold = true → (s.tb n).asymAlarm = false → 2 ≤ (s.tb n).during.length →
    alive s 15 = true → (s.tb n).holdAt + s.regFld (R.TIM_TB_HOLD n) 15 0 * 1000000 ≤ s.now → (s.tb n).pre = [] →
    s.regFld (R.TIM_TB_CFG n) 2 1 = 0 →
    Ends (exec (.holdRelease n) s) fun t =>
      t.tb n = { s.tb n with hold := false, asymAlarm := false, asymUnres := true } ∧
      t.regBit R.TIM_EVT_STATUS 4 = true ∧ SameBut (.tim :: eventParts) s t ∧ RegsBut [] s t) ∧
  (∀ (s : State) (n p den : Nat) (num : Int), n < 3 → (s.tb n).hold = true → (s.tb n).asymAlarm = false →
    2 ≤ (s.tb n).during.length → alive s 15 = true →
    (s.tb n).holdAt + s.regFld (R.TIM_TB_HOLD n) 15 0 * 1000000 ≤ s.now → (s.tb n).pre ≠ [] →
    s.regFld (R.TIM_TB_CFG n) 2 1 = 0 → (s.tb n).tb2Locked = true → s.tim.tb2.locked = true →
    s.regBit (R.TIM_TB_CFG n) 24 = true → LogRoom s → s.regFld (R.TIM_TB_CFG n) 10 4 = p →
    num = (s.tb n).during.sum * (s.tb n).pre.length - (s.tb n).pre.sum * (s.tb n).during.length →
    den = (s.tb n).during.length * (s.tb n).pre.length →
    num.natAbs ≤ s.regFld (R.TIM_TB_ASYM_LIM n) 15 0 * frac32 * den →
    Ends (exec (.holdRelease n) s) fun t =>
      t.reg (R.TIM_PORT_ASYM p) = word (unsigned 32 (clampI (-2147483648) 2147483647
        (signed 32 (s.reg (R.TIM_PORT_ASYM p)).toNat + roundDiv num (den * 65536)))) ∧
      t.tb n = { s.tb n with hold := false, asymUnres := false } ∧ t.regBit R.TIM_EVT_STATUS 3 = true ∧
      SameBut (.tim :: logParts) s t ∧ RegsBut [R.TIM_PORT_ASYM p] s t)

/-- PPS_EDGE, ZDA_SENTENCE, PPS_LOST, PPS_OUT_PULSE, TB3_SAVE, REF_FAIL, REF_RETURN: an edge is captured on TB2, and one within half a
second of the last is ignored and counted (R307); a good sentence names its second and a bad one is counted (R307); 1.5 s
without an edge is PPS_LOST (R308); a pulse goes out at a whole second of the selected base (R309); TB3 is saved to the
older of its two records, or the failure latched (R312); the loss of the reference is latched, and its return seen (R311).
The model's choices in it: assumptions 72, 73. -/
def Obligations.GnssAndReference : Prop :=
  (∀ (s : State) (up : Bool) (ago : Nat), s.ppsOn = true → up ≠ s.regBit R.TIM_PPS_CFG 1 → s.tim.pps = none →
    s.regBit R.TIM_PPS_CFG 2 = false →
    Ends (exec (.ppsEdge up ago) s) fun t =>
      t.tim = { s.tim with
        pps := some (s.now - ago, s.tim.tb2.val - (ago + s.regFld R.TIM_PPS_CFG 31 16) * frac32)
        ppsDone := false, ppsLost := false } ∧
      t.ctr 20 0x200 4 = min (s.ctr 20 0x200 4 + 1) 0xFFFFFFFF ∧ SameBut [.tim, .sys] s t) ∧
  (∀ (s : State) (up : Bool) (ago t0 e : Nat), s.ppsOn = true → up ≠ s.regBit R.TIM_PPS_CFG 1 → s.tim.pps = some (t0, e) →
    s.now - ago < t0 + 500000000 →
    Ends (exec (.ppsEdge up ago) s) fun t =>
      t.ctr 20 0x200 5 = min (s.ctr 20 0x200 5 + 1) 0xFFFFFFFF ∧ SameBut [.sys] s t) ∧
  (∀ (s : State) (bs : Bytes) (utc : Nat), s.ppsOn = true → s.regBit R.TIM_UART_CFG 3 = true → zdaUtc bs = some utc →
    s.regBit R.TIM_PPS_CFG 2 = true →
    Ends (exec (.zdaSentence bs) s) fun t =>
      t.tim = { s.tim with zdaAt := some s.now, zda := some (s.now, utc) } ∧
      t.ctr 20 0x200 6 = min (s.ctr 20 0x200 6 + 1) 0xFFFFFFFF ∧ SameBut [.tim, .sys] s t) ∧
  (∀ (s : State) (bs : Bytes), s.ppsOn = true → s.regBit R.TIM_UART_CFG 3 = true → zdaUtc bs = none →
    Ends (exec (.zdaSentence bs) s) fun t =>
      t.ctr 20 0x200 7 = min (s.ctr 20 0x200 7 + 1) 0xFFFFFFFF ∧ t.regBit R.TIM_EVT_STATUS 6 = true ∧
      SameBut eventParts s t ∧ RegsBut [] s t) ∧
  (∀ (s : State) (t0 e : Nat), s.tim.pps = some (t0, e) → s.ppsOn = true → s.tim.ppsLost = false →
    t0 + 1500000000 ≤ s.now → s.tim.ppsDone = true →
    Ends (exec .ppsLost s) fun t =>
      t.tim = { s.tim with ppsLost := true } ∧ t.regBit R.TIM_EVT_STATUS 5 = true ∧
      SameBut (.tim :: eventParts) s t ∧ RegsBut [] s t) ∧
  (∀ s : State, s.regBit R.TIM_PPSOUT_CFG 0 = true → alive s 15 = true →
    s.tim.ppsOutSec < s.tbNs (s.regFld R.TIM_PPSOUT_CFG 2 1) / giga →
    (∀ t0, s.tim.ppsOutAt = some t0 → t0 + 500000000 ≤ s.now) →
    Ends (exec .ppsOutPulse s) fun t =>
      t.out = s.out ++ [.pps (s.regFld R.TIM_PPSOUT_CFG 2 1)] ∧
      t.tim = { s.tim with
        ppsOutAt := some s.now, ppsOutSec := s.tbNs (s.regFld R.TIM_PPSOUT_CFG 2 1) / giga } ∧
      SameBut [.tim, .out] s t) ∧
  (∀ s : State, (∀ v ∈ s.tim.saves.head?, v / frac32 + 250000000 ≤ s.now) → powered s 2 = true →
    Ends (exec (.tb3Save true) s) fun t =>
      t = s.setTim { s.tim with saves := (s.tim.tb3.val :: s.tim.saves).take 2 }) ∧
  (∀ s : State, (∀ v ∈ s.tim.saves.head?, v / frac32 + 250000000 ≤ s.now) → powered s 2 = true → Mild s 20 3 →
    Ends (exec (.tb3Save false) s) fun t =>
      t.regBit (fltReg 20 0) 3 = true ∧ t.tim.saves = s.tim.saves.take 1 ∧
      SameBut (.tim :: eventParts) s t ∧ RegsBut (faultRegs 20) s t) ∧
  (∀ (s : State) (ratio : Int), s.tim.refOk = true → Mild s 20 2 →
    Ends (exec (.refFail ratio) s) fun t =>
      t.regBit (fltReg 20 0) 2 = true ∧ t.tim = { s.tim with refOk := false, ratio := ratio } ∧
      SameBut (.tim :: eventParts) s t ∧ RegsBut (faultRegs 20) s t) ∧
  (∀ s : State, Ends (exec .refReturn s) fun t => t = s.setTim { s.tim with refOk := true })

/-! ### The placement engine (R323-R359) -/

/-- PLE_ORDER_POINT, PLE_ORDER_SPAN, PLE_ORDER_LINE, PLE_ORDER_LINE_SPAN, PLE_CANCEL: an order that no rule refuses is pending, and
counted (R338, R340); a refused one, or one whose name is pending, leaves the intake alone (R340); a cancelled order that has
committed nothing ends (R341).

PLE_COMMIT, PLE_ORDER_EXPIRE, PLE_CLOSE_RETRY, CLOSE_FAIL: the edge that is due starts its frame at its launch, and an order all
of whose edges are committed ends (R345); an order that waits at its EXPIRE ends EXPIRED (R342); a closing edge not admitted
is offered again after 100 µs, and after 100 ms latches its failure (R348).
The model's choices in it: assumptions 75, 76, 77. -/
def Obligations.PlacementOrders : Prop :=
  (∀ (s : State) (it : QItem) (rest : List QItem) (o : PleOrder), Intake s it rest o → 1 ≤ o.op → o.op ≤ 4 →
    s.orderRefused o = false → s.pleOrder o.key = none → s.ple.orders.length < 16384 → s.ple.mode = 0 →
    Leaves (exec (orderInstr o.op) s) fun t =>
      t.ple = { s.ple with orders := s.ple.orders ++ [o] } ∧ (t.queue 2).items = rest ∧
      t.ctr 21 1 0 = (s.ctr 21 1 0 + 1) % 2 ^ 64 ∧ SameBut [.qs, .sys, .ple] s t) ∧
  (∀ (s : State) (it : QItem) (rest : List QItem) (o : PleOrder), Intake s it rest o → 1 ≤ o.op → o.op ≤ 4 →
    (s.orderRefused o = true ∨ (s.pleOrder o.key).isSome = true) →
    Leaves (exec (orderInstr o.op) s) fun t =>
      t.ple = s.ple ∧ (t.queue 2).items = rest ∧ SameBut [.qs, .sys] s t) ∧
  (∀ (s : State) (it : QItem) (rest : List QItem) (o x : PleOrder), Intake s it rest o → o.op = 5 → s.ple.orders = [x] →
    x.key = o.key → x.first.launch = none → x.silent = false → x.prod < 0x2000000 →
    Leaves (exec .pleCancel s) fun t =>
      t.ple = { s.ple with orders := [] } ∧ (t.queue 2).items = rest ∧
      t.ctr 21 1 12 = min (s.ctr 21 1 12 + 1) 0xFFFFFFFF ∧ SameBut [.qs, .sys, .ple] s t) ∧
  (∀ (s s' : State) (o : PleOrder) (l : Int) (a : Admitted), alive s 15 = true → s.ple.mode = 1 →
    s.dueEdge = some (o.key, false) → s.pleOrder o.key = some o → o.second = none → o.silent = true → o.first.l = some l →
    s.missDrop o false = false → leAt ((s.pleBank o.bank).template o.template) 8 2 = 0 → kvGet? s.ple.last o.queue = none →
    o.flag 3 = false →
    State.originate (s.addCtr 21 1 4 1) 57 (leAt ((s.pleBank o.bank).template o.template) 0 2) (.order o.id)
      (some (compactOf s.pleBase l.toNat)) none (s.batchFrame o [(o, false)]) = (a, s') → 0 < a.n →
    s'.pleOrder o.key = some o →
    Leaves (exec .pleCommit s) fun t =>
      t.ple.orders = s'.ple.orders.filter (fun x => x.key != o.key) ∧ kvGet? t.ple.last o.queue = some l ∧
      t.ctr 21 1 2 = (s'.ctr 21 1 2 + 1) % 2 ^ 64 ∧ SameBut [.sys, .ple] s' t) ∧
  (∀ (s : State) (o : PleOrder), alive s 15 = true → s.ple.orders = [o] → s.expired o = true → o.first.launch = none →
    o.prod < 0x2000000 →
    Leaves (exec .pleOrderExpire s) fun t =>
      t.ple = { s.ple with orders := [] } ∧ t.ctr 21 1 10 = min (s.ctr 21 1 10 + 1) 0xFFFFFFFF ∧
      SameBut [.sys, .ple] s t) ∧
  (∀ (s : State) (o : PleOrder) (b : Bool) (t0 : Nat), alive s 15 = true → s.ple.orders = [o] → o.open_ = [b] →
    (o.edge b).tryAt = some t0 → t0 + 100000 ≤ s.now →
    Leaves (exec .pleCloseRetry s) fun t =>
      t = ((s.satCtr 21 1 14).raise 21 5).sendBatch o [(o, b)] s.leadInstant) ∧
  (∀ (s : State) (o : PleOrder) (b : Bool) (t0 t1 : Nat), alive s 15 = true → s.ple.orders = [o] → o.open_ = [b] →
    (o.edge b).failed = false → (o.edge b).tryAt = some t1 → (o.edge b).since = some t0 → t0 + 100000000 ≤ s.now →
    Mild s 21 3 →
    Ends (exec .closeFail s) fun t =>
      t.ple = { s.ple with orders := [o.setEdge b { o.edge b with failed := true }] } ∧
      t.regBit (fltReg 21 0) 3 = true ∧ SameBut (.ple :: eventParts) s t ∧ RegsBut (faultRegs 21) s t)

/-- PLE_ENABLE, PLE_DISABLE, PLE_MW_GO, PLE_UPDATE, MODEL_POS_TIMEOUT, PLE_LOAD, PLE_LOAD_CLEAR, PLE_LOAD_DONE: enabling starts the
model in INIT (R332) and disabling ends an uncommitted order (R352); an update brings the model to the present with the
inputs it takes, and one with a position makes it run, with its event (R330-R332); without a position for its time it is
LOST (R332); a load runs and completes as in the signal plane (R357).
The model's choices in it: assumption 76. -/
def Obligations.PlacementModel : Prop :=
  (∀ (s : State) (m : Master) (v : Nat) (l : Loc), Writable s m R.PLE_CTRL (withBit v 0) l → s.regBit R.PLE_CTRL 0 = false →
    Leaves (exec (.pleEnable m v) s) fun t =>
      Stored s t R.PLE_CTRL (withBit v 0) l ∧
      t.ple = { s.ple with
        mode := 0, tm := s.pleNow, mot := Motion.rest, tSpd := none, tPos := none, taken := [], trig := false, lastUpd := none } ∧
      SameBut (.ple :: logParts) s t ∧ RegsBut [R.PLE_CTRL] s t) ∧
  (∀ (s : State) (m : Master) (v : Nat) (l : Loc) (o : PleOrder), Writable s m R.PLE_CTRL (sansBit v 0) l →
    s.regBit R.PLE_CTRL 0 = true → s.ple.orders = [o] → o.first.launch = none → o.silent = false → o.prod < 0x2000000 →
    Leaves (exec (.pleDisable m v) s) fun t =>
      Stored s t R.PLE_CTRL (sansBit v 0) l ∧ t.ple = { s.ple with orders := [] } ∧
      t.ctr 21 1 12 = min (s.ctr 21 1 12 + 1) 0xFFFFFFFF ∧ SameBut (.ple :: logParts) s t ∧ RegsBut [R.PLE_CTRL] s t) ∧
  (∀ (s : State) (m : Master) (v : Nat) (l : Loc) (i : MotionIn) (mo : Motion), Writable s m R.PLE_MW_GO (withBit v 0) l →
    s.regBit R.PLE_CTRL 0 = true → s.regBit R.PLE_CTRL 1 = false → s.ple.orders = [] → s.ple.mode ≠ 1 →
    i = s.directInputs (if s.directTime = 0 then 0 else s.pleNow - Machine.expand s.pleNow s.directTime) →
    i.pos.isSome = true →
    mo = { s.motion.advance (s.pleNow - s.ple.tm) with th := s.anglesAt s.motion (s.pleNow - s.ple.tm) } →
    Leaves (exec (.pleMwGo m v) s) fun t =>
      t.ple = { s.ple with
        mot := s.takeInputs mo i s.pleNow, tm := s.pleNow, mode := 1, lastUpd := some s.now, tPos := some s.pleNow
        tSpd := if i.speed.isSome then some s.pleNow else s.ple.tSpd } ∧
      t.regBit R.PLE_EVT_STATUS 3 = true ∧ SameBut (.ple :: logParts) s t ∧ RegsBut [] s t) ∧
  (∀ (s s' : State) (i : MotionIn) (mo : Motion), s.ple.trig = true →
    (∀ t0, s.ple.lastUpd = some t0 → t0 + 500000 ≤ s.now) → s.regBit R.PLE_CTRL 0 = true → alive s 15 = true →
    s.regBit R.PLE_CTRL 1 = false → s.ple.orders = [] → (s.setPle { s.ple with trig := false }).snapshot = (i, s') →
    mo = { s'.motion.advance (s'.pleNow - s'.ple.tm) with th := s'.anglesAt s'.motion (s'.pleNow - s'.ple.tm) } →
    Leaves (exec .pleUpdate s) fun t =>
      t.ple = { s.ple with
        trig := false, taken := s'.ple.taken, mot := s'.takeInputs mo i s.pleNow, tm := s.pleNow, lastUpd := some s.now
        mode := if i.pos.isSome then 1 else s.ple.mode
        tPos := if i.pos.isSome then some s.pleNow else s.ple.tPos
        tSpd := if i.speed.isSome then some s.pleNow else s.ple.tSpd } ∧
      SameBut (.ple :: eventParts) s t ∧ RegsBut [] s t) ∧
  (∀ (s : State) (t0 : Nat), s.ple.mode = 1 → s.ple.tPos = some t0 →
    t0 + s.regFld R.PLE_MOT_CFG 31 16 * 1000000 ≤ s.pleNow → s.regBit R.PLE_CTRL 0 = true → alive s 15 = true →
    s.openSpans = [] →
    Leaves (exec .modelPosTimeout s) fun t =>
      t.ple = { s.ple with mode := 2 } ∧ t.regBit R.PLE_EVT_STATUS 2 = true ∧
      SameBut (.ple :: eventParts) s t ∧ RegsBut [] s t) ∧
  (∀ (s : State) (m : Master) (v : Nat) (l : Loc), Writable s m R.PLE_LD_CTRL (withBit (sansBit v 8) 31) l →
    (s.reg R.PLE_LD_LEN).toNat ≠ 0 → s.sig.switch = none →
    Leaves (exec (.pleLoad m v) s) fun t =>
      t.ple = { s.ple with load := some ⟨false, fld (word v) 1 0,
        (s.reg (R.PLE_LD_SRC 0)).toNat + s.regFld (R.PLE_LD_SRC 1) 15 0 * 2 ^ 32, (s.reg R.PLE_LD_DST).toNat,
        (s.reg R.PLE_LD_LEN).toNat⟩ } ∧
      t.regBit R.SIG_RI_ARM 0 = false ∧ SameBut (.ple :: logParts) s t ∧ RegsBut [R.SIG_RI_ARM] s t) ∧
  (∀ (s : State) (m : Master) (v : Nat) (l : Loc), Writable s m R.PLE_LD_CTRL (withBit v 8) l → s.sig.switch = none →
    Leaves (exec (.pleLoadClear m v) s) fun t =>
      t.ple = { s.ple with
        shd := s.ple.shd.setPart (fld (word v) 1 0) [], load := some ⟨true, fld (word v) 1 0, 0, 0, 0⟩ } ∧
      t.regBit R.SIG_RI_ARM 0 = false ∧ SameBut (.ple :: logParts) s t ∧ RegsBut [R.SIG_RI_ARM] s t) ∧
  (∀ (s : State) (j : LoadJob), alive s 15 = true → s.ple.load = some j → j.clear = false →
    Ends (exec .pleLoadDone s) fun t =>
      t.ple = { s.ple with
        load := none
        shd := s.ple.shd.setPart j.struct_ (memWrite (s.ple.shd.part j.struct_) j.dst (s.read j.src j.len)) } ∧
      t.reg R.PLE_LD_STAT = 0 ∧ t.regBit R.PLE_EVT_STATUS 7 = true ∧
      SameBut (.ple :: eventParts) s t ∧ RegsBut [R.PLE_LD_STAT] s t)

/-! ### Host rings (R360-R396) -/

/-- TX_DOORBELL, RX_DOORBELL, TC_DOORBELL, CQ_DOORBELL: an index from the ring's owner within what the ring holds is its PROD, or CONS
of a completion ring, which bit 31 arms (R363-R365, R380); from another writer it is denied and the first such is kept
(R365).

PCIE_FUNCTION_STOP, HMB_IN_POST, HMB_OUT_POST, HMB_IN_TAKEN, HMB_OUT_TAKEN: a virtual function that stops is not ready, and a
reset of it clears its grant and raises its event (R385); the mailbox halves fill and empty with their bits, posting to the
gateway as an event and to a ready function as its message (R386).
The model's choices in it: assumption 83. -/
def Obligations.DoorbellsAndFunctions : Prop :=
  (∀ (s : State) (m : Master) (n v : Nat), n < 256 → alive s 3 = true → s.ringSize 0 n ≠ 0 →
    s.mayRing m (s.ringOwner 0 n) = true → v < 2 * s.ringSize 0 n →
    ringDist (s.ringSize 0 n) (s.ringIdx 0 n 0x18) v ≤ s.ringSize 0 n →
    Ends (exec (.txDoorbell m n v) s) fun t =>
      t.reg (R.TXRING_BASE_LO n + 0x10) = word v ∧ SameBut [.regs] s t ∧ RegsBut [R.TXRING_BASE_LO n + 0x10] s t) ∧
  (∀ (s : State) (m : Master) (n v : Nat), n < 256 → alive s 3 = true → s.ringSize 1 n ≠ 0 →
    s.mayRing m (s.ringOwner 1 n) = true → v < 2 * s.ringSize 1 n →
    ringDist (s.ringSize 1 n) (s.ringIdx 1 n 0x18) v ≤ s.ringSize 1 n →
    Ends (exec (.rxDoorbell m n v) s) fun t =>
      t.reg (R.RXRING_BASE_LO n + 0x10) = word v ∧ SameBut [.regs] s t ∧ RegsBut [R.RXRING_BASE_LO n + 0x10] s t) ∧
  (∀ (s : State) (m : Master) (n v : Nat), n < 16 → alive s 3 = true → s.ringSize 3 n ≠ 0 →
    s.mayRing m (s.ringOwner 3 n) = true → v < 2 * s.ringSize 3 n →
    ringDist (s.ringSize 3 n) (s.ringIdx 3 n 0x18) v ≤ s.ringSize 3 n →
    Ends (exec (.tcDoorbell m n v) s) fun t =>
      t.reg (R.TCRING_BASE_LO n + 0x10) = word v ∧ SameBut [.regs] s t ∧ RegsBut [R.TCRING_BASE_LO n + 0x10] s t) ∧
  (∀ (s : State) (m : Master) (c v : Nat), c < 128 → alive s 3 = true → s.regFld (R.CQ_CFG c) 16 0 ≠ 0 →
    s.mayRing m (s.regFld (R.CQ_CFG c) 31 24) = true → v < 2 * s.regFld (R.CQ_CFG c) 16 0 →
    ringDist (s.regFld (R.CQ_CFG c) 16 0) (s.regFld (R.CQ_CONS c) 16 0) v ≤ s.cqFill c →
    s.regBit (R.CQ_IRQ c) 15 = false →
    Ends (exec (.cqDoorbell m c (2 ^ 31 + v)) s) fun t =>
      t.reg (R.CQ_CONS c) = word v ∧ (t.cq c).armed = true ∧ (t.cq c).pend = t.cqFill c ∧ (t.cq c).wait = (s.cq c).wait ∧
      SameBut [.regs, .rng] s t ∧ RegsBut [R.CQ_CONS c] s t) ∧
  (∀ (s : State) (m : Master) (n v : Nat), n < 256 → alive s 3 = true → s.ringSize 0 n ≠ 0 →
    s.mayRing m (s.ringOwner 0 n) = false → s.sys.dbCap = false → Mild s 9 10 →
    Ends (exec (.txDoorbell m n v) s) fun t =>
      t.reg R.QMG_DB_DENY_INFO = word (n * 65536 + m.origin * 256) ∧ t.sys.dbCap = true ∧
      t.regBit (fltReg 9 0) 10 = true ∧ SameBut eventParts s t ∧ RegsBut (R.QMG_DB_DENY_INFO :: faultRegs 9) s t) ∧
  (∀ (s : State) (f : Nat), 1 ≤ f → f < 8 → s.ple.orders = [] → NoRings s →
    Leaves (exec (.pcieFunctionStop f true) s) fun t =>
      t.fnReady f = false ∧ t.reg (R.QMG_OWN_AQ f) = 0 ∧ t.reg (R.QMG_OWN_FEAT_LO f) = 0 ∧
      t.reg (R.QMG_OWN_FEAT_HI f) = 0 ∧ t.regBit R.HBR_EVT_STATUS 3 = true ∧
      (∀ g, g ≠ f → t.fnReady g = s.fnReady g) ∧ SameBut (.hbr :: eventParts) s t ∧
      RegsBut [R.QMG_OWN_AQ f, R.QMG_OWN_FEAT_LO f, R.QMG_OWN_FEAT_HI f] s t) ∧
  (∀ (s : State) (m : Master) (f v : Nat) (l : Loc), f < 8 → Writable s m (R.HMB_DB f) (withBit v 0) l →
    bitOf (word v) 1 = false →
    Leaves (exec (.hmbInPost m f v) s) fun t =>
      t.regBit (R.HMB_STAT f) 0 = true ∧ t.regBit (R.HMB_STAT f) 1 = s.regBit (R.HMB_STAT f) 1 ∧
      SameBut logParts s t ∧ RegsBut [R.HMB_STAT f] s t) ∧
  (∀ (s : State) (m : Master) (f v : Nat) (l : Loc), f < 8 → Writable s m (R.HMB_DB f) (withBit v 1) l →
    bitOf (word v) 0 = false →
    Leaves (exec (.hmbOutTaken m f v) s) fun t =>
      t.regBit (R.HMB_STAT f) 1 = false ∧ t.regBit (R.HMB_STAT f) 0 = s.regBit (R.HMB_STAT f) 0 ∧
      SameBut logParts s t ∧ RegsBut [R.HMB_STAT f] s t) ∧
  (∀ (s : State) (m : Master) (f v : Nat) (l : Loc), f < 8 → Writable s m (R.HMB_FWDB f) (withBit v 0) l →
    bitOf (word v) 1 = false →
    Leaves (exec (.hmbInTaken m f v) s) fun t =>
      t.regBit (R.HMB_STAT f) 0 = false ∧ t.regBit (R.HMB_STAT f) 1 = s.regBit (R.HMB_STAT f) 1 ∧
      SameBut logParts s t ∧ RegsBut [R.HMB_STAT f] s t) ∧
  (∀ (s : State) (m : Master) (f v : Nat) (l : Loc), f < 8 → Writable s m (R.HMB_FWDB f) (withBit v 1) l →
    bitOf (word v) 0 = false → s.fnReady f = true → s.regFld (R.HMB_VEC f) 9 0 < msixEntries f →
    Leaves (exec (.hmbOutPost m f v) s) fun t =>
      t.regBit (R.HMB_STAT f) 1 = true ∧ t.regBit (R.HMB_STAT f) 0 = s.regBit (R.HMB_STAT f) 0 ∧
      .msix f (s.regFld (R.HMB_VEC f) 9 0) ∈ t.out ∧ SameBut logParts s t ∧ RegsBut [R.HMB_STAT f] s t)

/-- TX_DESC_FETCH, ORDER_FETCH, TC_RING_FETCH, RX_DELIVER: a whole chain of one descriptor makes a frame that starts on its owner's
port (R367); an order or a table command joins its intake (R372, R373); the head of a mapped queue is written into the
posted buffer that holds it, and its completion waits (R370, R375). -/
def Obligations.RingFetches : Prop :=
  (∀ (s : State) (n at_ o : Nat) (d : Bytes) (f : TxFrame), n < 256 → s.fetches 0 n = true → s.dmaDown (s.ringOwner 0 n) = false →
    s.regBit (R.TXRING_CFG n) 18 = false → at_ = s.ringIdx 0 n 0x14 → o = s.ringOwner 0 n →
    ringDist (s.ringSize 0 n) at_ (s.ringIdx 0 n 0x10) ≠ 0 → kvGet? s.rng.chain n = none → d = s.slot 0 n at_ →
    byteAt d 18 % 2 = 0 → s.chainRefused n [d] = false → leAt d 8 2 ≠ 0 →
    (hostOwner o = true → leAt d 0 8 + leAt d 8 2 ≤ 2 ^ 47) →
    f = txFrameOf [d] (s.ringV2 0 n) at_ (s.ringSize 0 n) → at_ < 2 * s.ringSize 0 n →
    Leaves (exec (.txDescFetch n false) s) fun t =>
      t = (State.originate (((((s.setRingIdx 0 n 0x14 (at_ + 1)).setRng { s.rng with chain := kvDel s.rng.chain n }).setTx n
          ((s.txFrames n).filter (·.idx != at_) ++ [f])).addCtr 9 (0x1000 + n) 0 1).addCtr 9 (0x1000 + n) 2 (leAt d 8 2))
        (s.ownerPort n) (leAt d 10 2) (.ring n at_) (if f.timed then some f.launch else none) f.tsTag
        (s.ownRead o (leAt d 0 8) (leAt d 8 2))).2) ∧
  (∀ (s : State) (n at_ : Nat), n < 256 → s.fetches 0 n = true → s.dmaDown (s.ringOwner 0 n) = false → s.regBit (R.TXRING_CFG n) 18 = true →
    at_ = s.ringIdx 0 n 0x14 → ringDist (s.ringSize 0 n) at_ (s.ringIdx 0 n 0x10) ≠ 0 → s.queueFull 2 = false →
    Ends (exec (.orderFetch n false) s) fun t =>
      (t.queue 2).items = (s.queue 2).items ++ [⟨toWords (s.slot 0 n at_), true, false, orderProducer n at_, s.now⟩] ∧
      t.ringIdx 0 n 0x14 = (at_ + 1) % (2 * s.ringSize 0 n) ∧ SameBut eventParts s t ∧
      RegsBut [R.TXRING_BASE_LO n + 0x14, R.QP_STATUS 2, R.QP_PEAK 2] s t) ∧
  (∀ (s : State) (n at_ : Nat), n < 16 → s.fetches 3 n = true → s.dmaDown (s.ringOwner 3 n) = false → at_ = s.ringIdx 3 n 0x14 →
    ringDist (s.ringSize 3 n) at_ (s.ringIdx 3 n 0x10) ≠ 0 → s.queueFull 3 = false →
    Ends (exec (.tcRingFetch n false) s) fun t =>
      (t.queue 3).items = (s.queue 3).items ++ [⟨toWords (s.slot 3 n at_), true, false, tcProducer n at_, s.now⟩] ∧
      t.ringIdx 3 n 0x14 = (at_ + 1) % (2 * s.ringSize 3 n) ∧ SameBut eventParts s t ∧
      RegsBut [R.TCRING_BASE_LO n + 0x14, R.QP_STATUS 3, R.QP_PEAK 3] s t) ∧
  (∀ (s : State) (q n at_ a len : Nat) (c : Copy) (rest : List Copy), 256 ≤ q → q < 448 → portUsed (q / 8) = true →
    alive s 3 = true → s.regBit (R.SWC_PCTL (q / 8)) 0 = true → s.dropStale true q (s.copies q).length = s →
    s.copies q = c :: rest → c.timed = false → PlainCopy c → c.queue = q → s.rxMap q = some n →
    hostOwner (s.ringOwner 1 n) = false → s.rxBlocked n = false → at_ = s.ringIdx 1 n 0x14 →
    at_ < 2 * s.ringSize 1 n → ringDist (s.ringSize 1 n) at_ (s.ringIdx 1 n 0x10) ≠ 0 →
    a = leAt (s.slot 1 n at_) 0 8 → len = leAt (s.slot 1 n at_) 8 2 → 0 < (s.copyBytes c).length →
    (s.copyBytes c).length ≤ len → s.regFld (R.CQ_CFG (s.ringCq 1 n)) 16 0 ≠ 0 →
    Leaves (exec (.rxDeliver q false) s) fun t =>
      t.copies q = rest ∧
      (∀ k, memGet t.mem k = if a ≤ k ∧ k < a + (s.copyBytes c).length then (s.copyBytes c).getD (k - a) 0
        else memGet s.mem k) ∧
      (t.cq (s.ringCq 1 n)).wait = (s.cq (s.ringCq 1 n)).wait ++ [⟨1, n, some at_, 1,
        cqHeader (leAt (s.slot 1 n at_) 12 4) n 1 (at_ % s.ringSize 1 n) 0 0 1 0 ++ s.rxBody n c, s.now, false⟩] ∧
      t.ringIdx 1 n 0x14 = (at_ + 1) % (2 * s.ringSize 1 n) ∧
      SameBut [.regs, .mem, .sys, .rng, .swc] s t ∧ RegsBut ((R.RXRING_BASE_LO n + 0x14) :: releaseRegs s c) s t)

/-- COMPLETION_WRITE, CMPL_STALL, CQ_MOD_TIMER, RING_ENABLE, RING_DISABLE: the oldest completion that waits is written with its
phase at PROD, and its source slots are free (R377, R378); one that waited 100 ms stalls its ring (R379); an armed ring
signals its owner when its time has passed (R380); a ring starts with its pointers at 0 and stops with SIZE 0 (R362,
R390).
The model's choices in it: assumption 82. -/
def Obligations.Completions : Prop :=
  (∀ (s : State) (c size i len a : Nat) (e : CqEntry) (rest : List CqEntry), c < 128 → alive s 3 = true →
    size = s.regFld (R.CQ_CFG c) 16 0 → i = s.regFld (R.CQ_PROD c) 16 0 → (s.cq c).wait = e :: rest → 0 < size →
    s.cqFill c < size → len = (if s.regBit (R.CQ_CFG c) 17 then 64 else 32) → e.bytes.length = 64 →
    byteAt e.bytes 12 < 255 → hostOwner (s.regFld (R.CQ_CFG c) 31 24) = false → (s.cq c).armed = false →
    a = (s.reg (R.CQ_BASE_LO c)).toNat + s.regFld (R.CQ_BASE_HI c) 15 0 * 2 ^ 32 + i % size * len → e.idx = none →
    Ends (exec (.completionWrite c false) s) fun t =>
      (∀ k, memGet t.mem k = if a ≤ k ∧ k < a + len then
        (putBytes e.bytes 12 [byte (byteAt e.bytes 12 + (if i / size % 2 = 0 then 1 else 0))]).getD (k - a) 0
        else memGet s.mem k) ∧
      t.reg (R.CQ_PROD c) = word ((i + 1) % (2 * size)) ∧ (t.cq c).wait = rest ∧ (t.cq c).pend = (s.cq c).pend + 1 ∧
      SameBut [.regs, .mem, .sys, .rng] s t ∧ RegsBut [R.CQ_PROD c] s t) ∧
  (∀ (s : State) (c : Nat) (e : CqEntry) (rest : List CqEntry), c < 128 → alive s 3 = true → (s.cq c).wait = e :: rest →
    e.stalled = false → 100000000 ≤ s.now - e.since → Mild s 9 9 →
    Ends (exec (.cmplStall c) s) fun t =>
      (t.cq c).wait = { e with stalled := true } :: rest ∧ t.regBit (fltReg 9 0) 9 = true ∧
      t.ctr 9 (0x1400 + c) 5 = min (s.ctr 9 (0x1400 + c) 5 + 1) 0xFFFFFFFF ∧
      SameBut (.rng :: eventParts) s t ∧ RegsBut (faultRegs 9) s t) ∧
  (∀ (s : State) (c : Nat) (q : CqSt), alive s 3 = true → s.rng.cq = [(c, q)] → q.armed = true →
    s.regBit (R.CQ_IRQ c) 15 = true → 0 < q.pend → 0 < s.regFld (R.CQ_MOD c) 15 0 →
    s.regFld (R.CQ_MOD c) 15 0 * 1000 ≤ s.now - q.first → hostOwner (s.regFld (R.CQ_CFG c) 31 24) = true →
    Ends (exec .cqModTimer s) fun t =>
      t.out = s.out ++ [.msix (s.regFld (R.CQ_CFG c) 31 24) (s.regFld (R.CQ_IRQ c) 9 0)] ∧
      t.cq c = { q with armed := false, pend := 0 } ∧ SameBut [.sys, .rng, .out] s t) ∧
  (∀ (s : State) (m : Master) (k n v : Nat) (l : Loc), k = 0 ∨ k = 1 ∨ k = 3 → ringNumOk k n = true →
    fld (word v) 16 0 ≠ 0 → Writable s m (ringAt k n + 8) v l → s.ringSize k n = 0 →
    Leaves (exec (.ringEnable m k n v) s) fun t =>
      Stored s t (ringAt k n + 8) v l ∧ t.reg (ringAt k n + 0x10) = 0 ∧ t.reg (ringAt k n + 0x14) = 0 ∧
      t.reg (ringAt k n + 0x18) = 0 ∧ SameBut (.rng :: logParts) s t ∧
      RegsBut [ringAt k n + 8, ringAt k n + 0x10, ringAt k n + 0x14, ringAt k n + 0x18] s t) ∧
  (∀ (s : State) (m : Master) (n v : Nat) (l : Loc), n < 128 → fld (word v) 16 0 ≠ 0 → Writable s m (R.CQ_CFG n) v l →
    s.regFld (R.CQ_CFG n) 16 0 = 0 →
    Leaves (exec (.ringEnable m 4 n v) s) fun t =>
      Stored s t (R.CQ_CFG n) v l ∧ t.reg (R.CQ_PROD n) = 0 ∧ t.reg (R.CQ_CONS n) = 0 ∧ t.cq n = ⟨true, 0, 0, []⟩ ∧
      SameBut (.rng :: logParts) s t ∧ RegsBut [R.CQ_CFG n, R.CQ_PROD n, R.CQ_CONS n] s t) ∧
  (∀ (s : State) (m : Master) (k n v : Nat) (l : Loc), k = 0 ∨ k = 1 ∨ k = 3 → ringNumOk k n = true →
    Writable s m (ringAt k n + 8) (putFld (word v) 16 0 0).toNat l → s.ringSize k n ≠ 0 →
    (k = 0 → kvGet? s.rng.chain n = none) →
    Leaves (exec (.ringDisable m k n v) s) fun t =>
      t.ringSize k n = 0 ∧ SameBut logParts s t ∧ RegsBut [ringAt k n + 8] s t) ∧
  (∀ (s : State) (m : Master) (n v : Nat) (l : Loc), n < 128 → Writable s m (R.CQ_CFG n) (putFld (word v) 16 0 0).toNat l →
    s.regFld (R.CQ_CFG n) 16 0 ≠ 0 → (s.cq n).wait = [] →
    Leaves (exec (.ringDisable m 4 n v) s) fun t =>
      t.regFld (R.CQ_CFG n) 16 0 = 0 ∧ t.cq n = CqSt.none ∧ SameBut (.rng :: logParts) s t ∧ RegsBut [R.CQ_CFG n] s t)

/-! ### The host bridge (R397-R420) -/

/-- BAR4_ACCESS, VF_DOORBELL_WRITE, HBR_ERR_ACK, PCIE_LINK_UP, PCIE_LINK_RESET: BAR4 reads and writes the DRAM it shows, and nothing
outside it (R400); a virtual function's doorbell rings the page its enabled slot names (R402), and another is captured as an
error; an acknowledgement frees the error mailbox (R410); the link rises with its functions, and falls with them, raising
its event (R413). -/
def Obligations.BridgeInbound : Prop :=
  (∀ (s : State) (x n a : Nat) (bs : Bytes), alive s 9 = true → s.bar4Addr x n = some a →
    Ends (exec (.bar4Access true x n bs) s) fun t =>
      t.sys.bus = .done ∧ t.mem = memWrite s.mem a (slice bs 0 n) ∧ SameBut [.mem, .sys] s t) ∧
  (∀ (s : State) (x n a : Nat) (bs : Bytes), alive s 9 = true → s.bar4Addr x n = some a →
    Ends (exec (.bar4Access false x n bs) s) fun t => t.sys.bus = .bytes (s.read a n) ∧ SameBut [.sys] s t) ∧
  (∀ (s : State) (x n : Nat) (bs : Bytes), alive s 9 = true → s.bar4Addr x n = none →
    Ends (exec (.bar4Access true x n bs) s) fun t =>
      t.sys.bus = .discarded ∧ t.regBit R.HBR_ERR_STATUS 0 = true ∧ t.regBit R.HBR_EVT_STATUS 0 = true ∧
      SameBut eventParts s t ∧ RegsBut [] s t) ∧
  (∀ (s : State) (f j v p : Nat), alive s 9 = true → alive s 3 = true → 1 ≤ f → f ≤ 7 → j < 32 →
    s.regBit (R.HBR_VF_DBMAP f j) 31 = true → s.regFld (R.HBR_VF_DBMAP f j) 9 0 = p → p < 256 → s.ringSize 0 p ≠ 0 →
    s.ringOwner 0 p = f → v < 2 * s.ringSize 0 p →
    ringDist (s.ringSize 0 p) (s.ringIdx 0 p 0x18) v ≤ s.ringSize 0 p →
    Ends (exec (.vfDoorbellWrite f j v) s) fun t =>
      t.reg (R.TXRING_BASE_LO p + 0x10) = word v ∧ t.sys.bus = .done ∧
      SameBut [.regs, .sys] s t ∧ RegsBut [R.TXRING_BASE_LO p + 0x10] s t) ∧
  (∀ (s : State) (f j v : Nat), alive s 9 = true → 1 ≤ f → f ≤ 7 → j < 32 → s.regBit (R.HBR_VF_DBMAP f j) 31 = false →
    Ends (exec (.vfDoorbellWrite f j v) s) fun t =>
      t.sys.bus = .discarded ∧ t.regBit R.HBR_ERR_STATUS 0 = true ∧ t.regBit R.HBR_EVT_STATUS 0 = true ∧
      SameBut eventParts s t ∧ RegsBut [] s t) ∧
  (∀ (s : State) (m : Master) (v : Nat) (l : Loc), Writable s m R.HBR_ERR_ACK (withBit v 0) l →
    Leaves (exec (.hbrErrAck m v) s) fun t => t.reg R.HBR_ERR_STATUS = 0 ∧ SameBut logParts s t ∧ RegsBut [] s t) ∧
  (∀ (s : State) (speed width : Nat) (fns : List Nat), alive s 9 = true →
    Ends (exec (.pcieLinkUp speed width fns) s) fun t =>
      t.linkUp = true ∧ (∀ f, t.fnReady f = (decide (f < 8) && fns.contains f)) ∧ t.regBit R.HBR_EVT_STATUS 1 = true ∧
      SameBut (.hbr :: eventParts) s t ∧ RegsBut [R.HBR_LINK] s t) ∧
  (∀ s : State, s.linkUp = true → s.hbr.ready = [] → s.hbr.reads = [] → s.hbr.lines = [] → s.ple.orders = [] →
    NoRings s →
    Leaves (exec .pcieLinkReset s) fun t =>
      t.linkUp = false ∧ (∀ f, t.fnReady f = false) ∧ t.regBit R.HBR_EVT_STATUS 2 = true ∧
      SameBut (.hbr :: eventParts) s t ∧
      RegsBut (R.HBR_LINK :: (List.range 8).flatMap fun f => [R.QMG_OWN_AQ f, R.QMG_OWN_FEAT_LO f, R.QMG_OWN_FEAT_HI f]) s t)

/-- OUTBOUND_READ, OUTBOUND_WRITE, OUTBOUND_COMPLETION, OUTBOUND_READ_TIMEOUT, PREFETCH_LINE_EXPIRE: a read is issued, with the lines
its window adds, and its completion gives its bytes and holds the lines (R406-R408); a write reaches host memory, and no
other byte of it (R404, R406); without a ready function either ends at once, the error captured (R406); a read not completed
in 50 ms fails (R407); a line held for its time is discarded into its log (R409).
The model's choices in it: assumptions 12, 88. -/
def Obligations.BridgeOutbound : Prop :=
  (∀ (s : State) (m : Master) (a n : Nat), internalMaster s m = true → 0 < n → s.outboundOn = true → s.hbr.lines = [] →
    s.hbr.reads = [] →
    Ends (exec (.outboundRead m a n) s) fun t =>
      t.hbr = { s.hbr with
        tag := s.hbr.tag + 1
        reads := [⟨s.hbr.tag, m, a, n, (s.outWindow a n).getD 0,
          (match s.outWindow a n with
            | some k => if s.regBit (R.HBR_OWIN_CTRL k) 1 && extends_ m then s.prefetchLines k a n else []
            | none => []), [], some s.now⟩] } ∧
      t.sys.bus = .held ∧ SameBut [.hbr, .sys] s t) ∧
  (∀ (s : State) (m : Master) (a : Nat) (bs : Bytes), internalMaster s m = true → s.outboundOn = true →
    s.hbr.lines = [] →
    Ends (exec (.outboundWrite m a bs) s) fun t =>
      (∀ k, memGet t.hostMem k = if a ≤ k ∧ k < a + bs.length then bs.getD (k - a) 0 else memGet s.hostMem k) ∧
      t.sys.bus = .done ∧ SameBut [.hostMem, .hbr, .sys] s t ∧ t.hbr = s.hbr) ∧
  (∀ (s : State) (m : Master) (a n : Nat), internalMaster s m = true → 0 < n → s.outboundOn = false →
    s.regBit R.HBR_ERR_STATUS 0 = false →
    Ends (exec (.outboundRead m a n) s) fun t =>
      t.sys.bus = .error ∧ t.regBit R.HBR_ERR_STATUS 0 = true ∧ t.reg R.HBR_ERR_ADDR_LO = word a ∧
      t.reg R.HBR_ERR_INFO = hbrInfo m.origin true true 5 n ∧ SameBut eventParts s t ∧ RegsBut [] s t) ∧
  (∀ (s : State) (r : HbrRead) (bs : Bytes), alive s 9 = true → s.hbr.reads = [r] → r.at_.isSome = true →
    r.lines = [] → r.have_ = [] → bs.length = r.len → s.hbr.lines.length ≤ 32 →
    Ends (exec (.outboundCompletion r.tag 0 bs) s) fun t =>
      t.sys.bus = .bytes bs ∧ t.hbr = { s.hbr with reads := [] } ∧ SameBut [.hbr, .sys] s t) ∧
  (∀ (s : State) (r : HbrRead) (t0 : Nat), alive s 9 = true → s.hbr.reads = [r] → r.at_ = some t0 →
    t0 + 50000000 ≤ s.now →
    Ends (exec .outboundReadTimeout s) fun t =>
      t.hbr = { s.hbr with reads := [] } ∧ t.sys.bus = .error ∧ t.regBit R.HBR_ERR_STATUS 0 = true ∧
      t.ctr 24 1 1 = min (s.ctr 24 1 1 + 1) 0xFFFFFFFF ∧ SameBut (.hbr :: eventParts) s t ∧ RegsBut [] s t) ∧
  (∀ (s : State) (x : HbrLine), alive s 9 = true → s.hbr.lines = [x] →
    x.at_ + s.regFld R.HBR_PF_CFG 7 0 * 1000 ≤ s.now → s.queueFull 4 = false →
    Ends (exec .prefetchLineExpire s) fun t =>
      t.hbr = { s.hbr with lines := [] } ∧ t.ctr 24 1 0 = min (s.ctr 24 1 0 + 1) 0xFFFFFFFF ∧
      (t.queue 4).items = (s.queue 4).items ++ [⟨discardItem x 0, true, false, 0, s.now⟩] ∧
      SameBut (.hbr :: eventParts) s t ∧ RegsBut [R.QP_STATUS 4, R.QP_PEAK 4] s t)

/-! ### Aqene and recovery (R595, R596, R603-R607) -/

/-- AQENE_OFFER, AQENE_CONFIRM, AQENE_ANSWER, AQENE_PEER_APPEAR, AQENE_RETRY: an OFFER is answered ACCEPT with the lower major and the
features common to both, REFUSE 2 for an unknown interface, and word for word as before where it is repeated (R604); a
CONFIRM of what was answered makes the agreement, for a function with its grant (R388), and another is refused with reason 4;
a peer is offered AQ-PEER as it appears (R606), its ACCEPT makes the agreement, its REFUSE ends the attempt, and no answer
repeats the OFFER up to three times (R604, R605).
The model's choices in it: assumptions 126, 127. -/
def Obligations.AqeneNegotiation : Prop :=
  (∀ (s : State) (party i : Nat) (msg : Bytes), s.aqRuns = true → aqWhole msg = true → aqType msg = 1 →
    s.aqRepeat party msg = none → 8 ≤ party → i = aqIface msg → 2 ≤ i → i ≤ 4 → s.aqPermitted party i = true →
    1 ≤ aqMajor msg →
    Leaves (exec (.aqeneOffer party msg) s) fun t =>
      let major := min (aqMajor msg) (aqHighest (s.regFld R.UPD_BLEVEL 1 0) i)
      let map := aqReduce (s.regFld R.UPD_BLEVEL 1 0) i major party (aqFeatures msg)
      kvGet? t.aqn.answered (aqKey party i) = some (major, map) ∧ kvGet? t.aqn.agree (aqKey party i) = none ∧
      t.out = s.out ++ [.message party (aqMessage 2 (aqTxn msg) i major map)] ∧ SameBut [.aqn, .out] s t) ∧
  (∀ (s : State) (f : Nat) (msg : Bytes), s.aqRuns = true → aqWhole msg = true → aqType msg = 1 →
    s.aqRepeat f msg = none → f < 8 → aqIface msg = 1 → s.upd.mode = .firmware → 1 ≤ aqMajor msg →
    NoRings s → s.ple.orders = [] → s.regBit (R.HMB_STAT f) 1 = false →
    Leaves (exec (.aqeneOffer f msg) s) fun t =>
      let major := min (aqMajor msg) (aqHighest (s.regFld R.UPD_BLEVEL 1 0) 1)
      let ans := aqMessage 2 (aqTxn msg) 1 major (aqReduce (s.regFld R.UPD_BLEVEL 1 0) 1 major f (aqFeatures msg))
      .message f ans ∈ t.out ∧ (∀ k < 4, t.reg (R.HMB_OUT f k) = wordAt ans k) ∧ t.regBit (R.HMB_STAT f) 1 = true ∧
      t.regBit (R.HMB_STAT f) 0 = false ∧ t.reg (R.QMG_OWN_AQ f) = 0 ∧ kvGet? t.aqn.agree (aqKey f 1) = none ∧
      SameBut (.aqn :: eventParts) s t ∧
      RegsBut (R.HMB_STAT f :: R.QMG_OWN_AQ f :: R.QMG_OWN_FEAT_LO f :: R.QMG_OWN_FEAT_HI f ::
        (List.range 16).map (R.HMB_OUT f)) s t) ∧
  (∀ (s : State) (party : Nat) (msg : Bytes), s.aqRuns = true → aqWhole msg = true → aqType msg = 1 →
    s.aqRepeat party msg = none → 8 ≤ party → (aqIface msg = 0 ∨ 4 < aqIface msg) →
    Leaves (exec (.aqeneOffer party msg) s) fun t =>
      t.out = s.out ++ [.message party (aqMessage 3 (aqTxn msg) (aqIface msg) 0 2)] ∧ SameBut [.aqn, .out] s t) ∧
  (∀ (s : State) (party : Nat) (msg ans : Bytes), s.aqRuns = true → aqWhole msg = true → aqType msg = 1 →
    s.aqRepeat party msg = some ans → 8 ≤ party →
    Ends (exec (.aqeneOffer party msg) s) fun t => t.out = s.out ++ [.message party ans] ∧ SameBut [.out] s t) ∧
  (∀ (s : State) (party : Nat) (msg : Bytes), s.aqRuns = true → aqWhole msg = true → aqType msg = 4 →
    s.aqRepeat party msg = none → 8 ≤ party →
    Ends (exec (.aqeneConfirm party msg) s) fun t =>
      if kvGet? s.aqn.answered (aqKey party (aqIface msg)) = some (aqMajor msg, aqFeatures msg) then
        t.aqn = { s.aqn with agree := kvSet s.aqn.agree (aqKey party (aqIface msg)) (aqMajor msg, aqFeatures msg) } ∧
          SameBut [.aqn] s t
      else
        t.out = s.out ++ [.message party (aqMessage 3 (aqTxn msg) (aqIface msg) 0 4)] ∧ t.aqn.agree = s.aqn.agree ∧
          SameBut [.aqn, .out] s t) ∧
  (∀ (s : State) (f : Nat) (msg : Bytes), s.aqRuns = true → aqWhole msg = true → aqType msg = 4 →
    s.aqRepeat f msg = none → f < 8 → aqIface msg = 1 →
    kvGet? s.aqn.answered (aqKey f 1) = some (aqMajor msg, aqFeatures msg) → RoomFor s 3 →
    Ends (exec (.aqeneConfirm f msg) s) fun t =>
      kvGet? t.aqn.agree (aqKey f 1) = some (aqMajor msg, aqFeatures msg) ∧
      t.reg (R.QMG_OWN_AQ f) = word (2 ^ 31 + aqMajor msg) ∧ t.reg (R.QMG_OWN_FEAT_LO f) = word (aqFeatures msg) ∧
      t.reg (R.QMG_OWN_FEAT_HI f) = word (aqFeatures msg / 2 ^ 32) ∧ t.regBit (R.HMB_STAT f) 0 = false ∧
      SameBut (.aqn :: logParts) s t ∧
      RegsBut [R.QMG_OWN_AQ f, R.QMG_OWN_FEAT_LO f, R.QMG_OWN_FEAT_HI f, R.HMB_STAT f] s t) ∧
  (∀ (s : State) (party : Nat) (msg : Bytes) (o : Offer), s.aqRuns = true → aqWhole msg = true → 8 ≤ party →
    kvGet? s.aqn.offers party = some o → aqTxn msg = o.txn → aqIface msg = o.iface →
    (aqType msg = 2 → Ends (exec (.aqeneAnswer party msg) s) fun t =>
      kvGet? t.aqn.agree (aqKey party o.iface) = some (aqMajor msg, aqFeatures msg) ∧
      kvGet? t.aqn.offers party = none ∧
      t.out = s.out ++ [.message party (aqMessage 4 o.txn o.iface (aqMajor msg) (aqFeatures msg))] ∧
      SameBut [.aqn, .out] s t) ∧
    (aqType msg = 3 → Ends (exec (.aqeneAnswer party msg) s) fun t =>
      t.aqn = { s.aqn with offers := kvDel s.aqn.offers party } ∧ SameBut [.aqn] s t)) ∧
  (∀ (s : State) (party : Nat), s.aqRuns = true → s.aqPermitted party 2 = true →
    Ends (exec (.aqenePeerAppear party) s) fun t =>
      kvGet? t.aqn.offers party = some ⟨(s.aqn.txn + 1) % 256, 2, 1, s.now⟩ ∧ kvGet? t.aqn.agree (aqKey party 2) = none ∧
      t.out = s.out ++ [.message party (s.peerOffer party ((s.aqn.txn + 1) % 256))] ∧ SameBut [.aqn, .out] s t) ∧
  (∀ (s : State) (party : Nat) (o : Offer), s.aqRuns = true → 8 ≤ party → kvGet? s.aqn.offers party = some o →
    o.at_ + (if 0x200 ≤ party then 250000000 else 100000000) ≤ s.now →
    Ends (exec (.aqeneRetry party) s) fun t =>
      if o.tries < 4 then
        t.aqn = { s.aqn with offers := kvSet s.aqn.offers party { o with tries := o.tries + 1, at_ := s.now } } ∧
          t.out = s.out ++ [.message party (s.peerOffer party o.txn)] ∧ SameBut [.aqn, .out] s t
      else t.aqn = { s.aqn with offers := kvDel s.aqn.offers party } ∧ SameBut [.aqn] s t)

/-- REC_INFO_REQ, REC_WRITE, REC_COMMIT, REC_STAGE_DRAM, REC_REBOOT: in recovery, under an agreement of AQ-REC, the gateway
tells its part, life cycle, security version, slots and serial; a chunk is held and acknowledged, and one already held
changes nothing; a commit or a staged image is answered 0 where the image is valid and 4 where it is not, and one that is
not valid changes neither the memory nor the selection record; a reboot is acknowledged and decides the chip reset
(R596).
The model's choices in it: assumption 124. -/
def Obligations.Recovery : Prop :=
  (∀ (s : State) (party : Nat) (msg : Bytes), s.recTakes party msg 16 = true → 8 ≤ party →
    Ends (exec (.recInfoReq party msg) s) fun t =>
      ∃ ans, t.out = s.out ++ [.message party ans] ∧ byteAt ans 2 = 17 ∧ byteAt ans 3 = aqTxn msg ∧
        leAt ans 16 2 = 0x0960 ∧ byteAt ans 18 = lifeCycle s ∧ byteAt ans 19 = s.fusedSvn ∧
        byteAt ans 20 = selState s.sel 0 ∧ byteAt ans 21 = selState s.sel 1 ∧ slice ans 28 8 = s.serial ∧
        SameBut [.out] s t) ∧
  (∀ (s : State) (party k : Nat) (msg : Bytes), s.recTakes party msg 18 = true → 8 ≤ party → k < 98304 →
    leAt msg 8 4 = k * 1024 → 0 < leAt msg 12 2 → leAt msg 12 2 ≤ 1024 →
    (kvGet s.upd.held (k / 64) 0).testBit (k % 64) = false →
    kvGet s.upd.held (k / 64) 0 + 2 ^ (k % 64) ≠ allChunks →
    Ends (exec (.recWrite party msg) s) fun t =>
      (kvGet t.upd.held (k / 64) 0).testBit (k % 64) = true ∧
      kvGet? t.upd.chunks k = some (slice (slice msg 16 (leAt msg 12 2)) 0 1024) ∧
      t.out = s.out ++ [.message party (recHead msg 19 (slice msg 6 10))] ∧ SameBut [.upd, .out] s t) ∧
  (∀ (s : State) (party k : Nat) (msg : Bytes), s.recTakes party msg 18 = true → 8 ≤ party → k < 98304 →
    leAt msg 8 4 = k * 1024 → leAt msg 12 2 ≤ 1024 →
    (leAt msg 12 2 = 0 ∨ (kvGet s.upd.held (k / 64) 0).testBit (k % 64) = true) →
    Ends (exec (.recWrite party msg) s) fun t =>
      t.out = s.out ++ [.message party (recHead msg 19 (slice msg 6 10))] ∧ SameBut [.out] s t) ∧
  (∀ (s : State) (party total : Nat) (msg bs : Bytes), s.recTakes party msg 20 = true → 8 ≤ party → RoomFor s 1 →
    total = leAt msg 8 4 →
    bs = ((if kvGet s.upd.held 0 0 = allChunks then s.chunkBytes 0 else []) ++
      s.read (targetBase s.recSlot + blockBytes) (min total (1536 * blockBytes) - blockBytes)).take total →
    Ends (exec (.recCommit party msg) s) fun t =>
      if fwValid bs (ascii "PGFW") (1536 * blockBytes) s.fusedSvn true then
        .message party (recHead msg 21 ([0, 0] ++ slice msg 8 8)) ∈ t.out ∧ s.recSlot < 2 ∧
          t.upd.maps = ((s.norWrite s.recSlot 0 (bs.take blockBytes)).setBlock s.recSlot 0 true).upd.maps ∧
          SameBut (.mem :: .upd :: logParts) s t
      else
        t.out = s.out ++
          [.message party (recHead msg 21 ([4, if fwSvn bs < s.fusedSvn then 3 else 1] ++ slice msg 8 8))] ∧
          SameBut [.out] s t) ∧
  (∀ (s : State) (msg bs : Bytes), s.recTakes 0 msg 22 = true → alive s 8 = true →
    bs = s.read 0x800000000 (min (leAt msg 8 4) (1536 * blockBytes)) →
    Ends (exec (.recStageDram 0 msg) s) fun t =>
      if fwValid bs (ascii "PGFW") (1536 * blockBytes) s.fusedSvn true then
        .message 0 (recHead msg 21 ([0, 0] ++ slice msg 8 8)) ∈ t.out
      else
        .message 0 (recHead msg 21 ([4, if fwSvn bs < s.fusedSvn then 3 else 1] ++ slice msg 8 8)) ∈ t.out ∧
          SameBut eventParts s t ∧ RegsBut (R.HMB_STAT 0 :: (List.range 16).map (R.HMB_OUT 0)) s t) ∧
  (∀ (s : State) (party : Nat) (msg : Bytes), s.recTakes party msg 24 = true → 8 ≤ party → s.pwr.chip = none →
    Ends (exec (.recReboot party msg) s) fun t =>
      .message party (recHead msg 25 []) ∈ t.out ∧ t.pwr = { s.pwr with chip := some ⟨6, 0, 0⟩ } ∧
      t.regBit R.ALV_STATUS 0 = false ∧ SameBut [.out, .pwr, .alv, .regs] s t ∧ RegsBut [R.ALV_STATUS] s t)

/-! ### Updates, the boot ROM, the configuration (R581-R614) -/

/-- UPD_WRITE_BLOCK, UPD_ERASE, UPD_ACTIVATE, UPD_CONFIRM, UPD_FAIL_TRIAL, UPD_ROUTE_TRY, UPD_ROUTE_COMMIT, UPD_GUARD_COMMIT,
UPD_RECOVER, UPD_INPLACE, UPD_SET_BLEVEL: a command with no cause for refusal runs, and reads as busy; WRITE_BLOCK clears the
bit of its block and ERASE that of block 0 (R584, R591); one that is refused ends at once with its RESULT and its event
(R584, R613).

UPD_CMD_DONE: a block of a target other than a firmware header is programmed from the source, and its bit set; a target's
erase leaves every block blank and no bit, with its step in the log; ACTIVATE writes the trial record with three tries;
RECOVER sets its flag; a block that cannot be programmed ends with a fault and a RESULT the spec does not state, and the
memory stays (R584, R589, R595, R614).
The model's choices in it: assumptions 99, 2. -/
def Obligations.UpdateCommands : Prop :=
  (∀ (s : State) (m : Master) (op v : Nat) (c : Word) (l : Loc) (x : Instr), IsUpd op m v x →
    c = putFld (word (withBit v 31)) 7 0 op → Writable s m R.UPD_CMD c.toNat l →
    s.updRefusal m (c &&& inMask l) = none →
    Leaves (exec x s) fun t =>
      t.upd.job = some ⟨m, c &&& inMask l, s.updSrc⟩ ∧ t.reg R.UPD_CMD_STAT = 1 ∧
      (2 < op → t.upd = { s.upd with job := t.upd.job } ∧ SameBut (.upd :: logParts) s t) ∧
      (op = 1 → t.hasBlock (fld c 11 8) (fld c 26 16) = false ∧
        ∀ k < blockBytes, memGet t.mem (targetBase (fld c 11 8) + fld c 26 16 * blockBytes + k) = 0) ∧
      (op = 2 → t.hasBlock (fld c 11 8) 0 = false) ∧
      SameBut (.mem :: .upd :: logParts) s t ∧ RegsBut [R.UPD_CMD_STAT] s t) ∧
  (∀ (s : State) (m : Master) (op v r : Nat) (c : Word) (l : Loc) (x : Instr), IsUpd op m v x →
    c = putFld (word (withBit v 31)) 7 0 op → Writable s m R.UPD_CMD c.toNat l →
    s.updRefusal m (c &&& inMask l) = some r →
    Leaves (exec x s) fun t =>
      t.upd = s.upd ∧ t.reg R.UPD_CMD_STAT = word (r * 256) ∧ t.regBit R.UPD_EVT_STATUS 0 = true ∧
      SameBut logParts s t ∧ RegsBut [R.UPD_CMD_STAT] s t) ∧
  (∀ (s : State) (j : UpdJob) (tg b : Nat), s.upd.job = some j → alive s 2 = true → updOp j.cmd = 1 →
    tg = fld j.cmd 11 8 → b = fld j.cmd 26 16 → (2 ≤ tg ∨ b ≠ 0) →
    Ends (exec (.updCmdDone 0) s) fun t =>
      (∀ k < blockBytes, memGet t.mem (targetBase tg + b * blockBytes + k) = (s.read j.src blockBytes).getD k 0) ∧
      (∀ a, a < targetBase tg + b * blockBytes ∨ targetBase tg + (b + 1) * blockBytes ≤ a →
        memGet t.mem a = memGet s.mem a) ∧
      t.hasBlock tg b = true ∧ t.upd.job = none ∧ t.reg R.UPD_CMD_STAT = 0 ∧ t.regBit R.UPD_EVT_STATUS 0 = true ∧
      SameBut (.mem :: .upd :: eventParts) s t ∧ RegsBut [R.UPD_CMD_STAT] s t) ∧
  (∀ (s : State) (j : UpdJob) (tg : Nat), s.upd.job = some j → alive s 2 = true → updOp j.cmd = 2 →
    tg = fld j.cmd 11 8 → 2 ≤ tg → tg < 6 → LogRoom s →
    Ends (exec (.updCmdDone 0) s) fun t =>
      (∀ a, memGet t.mem a = if targetBase tg ≤ a ∧ a < targetBase tg + targetBlocks tg * blockBytes then 0
        else memGet s.mem a) ∧
      t.bitmap tg = 0 ∧ t.upd.job = none ∧ t.reg R.UPD_CMD_STAT = 0 ∧ t.regBit R.UPD_EVT_STATUS 0 = true ∧
      Entered s t j.m.origin (privByte s j.m false (j.m.origin ≤ 2)) 0xD0000001 (word tg) 0 ∧
      SameBut (.mem :: .upd :: logParts) s t ∧ RegsBut [R.UPD_CMD_STAT] s t) ∧
  (∀ (s : State) (j : UpdJob) (tg : Nat) (r : Bytes), s.upd.job = some j → alive s 2 = true → updOp j.cmd = 3 →
    tg = fld j.cmd 11 8 → tg < 2 → LogRoom s →
    r = selPut (selPut (selPut (selPut (selPut s.sel 4 tg) 5 s.runSlot) (6 + tg) 2) 8 3) (10 + tg) (1 - s.runBank) →
    Ends (exec (.updCmdDone 0) s) fun t =>
      t.mem = (s.writeSel r).mem ∧ t.upd = { s.upd with job := none, imported := false } ∧
      t.reg R.UPD_CMD_STAT = 0 ∧ t.regBit R.UPD_EVT_STATUS 0 = true ∧
      Entered s t j.m.origin (privByte s j.m false (j.m.origin ≤ 2)) 0xD0000003 (word s.runSlot) (word tg) ∧
      SameBut (.mem :: .upd :: logParts) s t ∧ RegsBut [R.UPD_CMD_STAT] s t) ∧
  (∀ (s : State) (j : UpdJob), s.upd.job = some j → alive s 2 = true → updOp j.cmd = 9 →
    Ends (exec (.updCmdDone 0) s) fun t =>
      t.mem = (s.writeSel (selSetFlag s.sel 1 true)).mem ∧ t.upd = { s.upd with job := none } ∧
      t.reg R.UPD_CMD_STAT = 0 ∧ t.regBit R.UPD_EVT_STATUS 0 = true ∧
      SameBut (.mem :: .upd :: eventParts) s t ∧ RegsBut [R.UPD_CMD_STAT] s t) ∧
  (∀ (s : State) (j : UpdJob) (n : Nat), s.upd.job = some j → alive s 2 = true → 1 ≤ updOp j.cmd → updOp j.cmd ≤ 2 →
    3 ≤ n → Mild s 26 1 →
    Ends (exec (.updCmdDone n) s) fun t =>
      t.upd = { s.upd with job := none } ∧
      t.reg R.UPD_CMD_STAT = word ((Config.freeWord s.freeCtr).toNat % 16 * 256) ∧ t.regBit (fltReg 26 0) 1 = true ∧
      t.regBit R.UPD_EVT_STATUS 3 = true ∧ SameBut (.upd :: eventParts) s t ∧
      RegsBut (R.UPD_CMD_STAT :: faultRegs 26) s t)

/-- BOOT, RESIDENT_LOADER: with no record and no valid slot, or both pins at a cold start, the boot ROM enters recovery; a record
whose journal is open starts the loader; the ACTIVE slot that is GOOD and valid runs; once it has run it does nothing more
until the next start (R588, R593, R595). The loader copies one block at each command while blocks remain, then writes block
0 and the trial record, or closes the journal of an image that is not valid, and resets the module (R594).

CONFIG_EXPORT, CONFIG_IMPORT: an export leaves as one file that begins with its magic and carries the module's serial, and is
recorded; an import that passes its checks is written to the bank that does not run, its header after its body, and waits
for its ACTIVATE; one that does not changes no memory (R601, R602).
The model's choices in it: assumptions 119, 122, 124, 128, 130. -/
def Obligations.BootLoaderConfiguration : Prop :=
  (∀ (s : State) (pins : Bool), s.upd.booted = true → Ends (exec (.boot pins) s) fun t => t = s) ∧
  (∀ s : State, s.upd.booted = false → s.runs = true → alive s 1 = true → alive s 2 = true → s.key.staged = none →
    s.regFld R.PWR_RST_CAUSE 7 4 = 6 → s.selWinner = none → RoomFor s 1 →
    Ends (exec (.boot true) s) fun t =>
      t.upd.mode = .recovery ∧ t.upd.cause = 3 ∧ t.upd.booted = true ∧ t.upd.held = [] ∧
      t.reg R.HBR_BAR4_BASE = 0 ∧ t.reg R.HBR_BAR4_LIM = 0x8F7F0000 ∧
      SameBut (.upd :: .key :: .freeCtr :: logParts) s t ∧
      RegsBut [R.HBR_BAR4_BASE, R.HBR_BAR4_LIM, R.KEY_LC_NONCE_LO, R.KEY_LC_NONCE_HI] s t) ∧
  (∀ (s : State) (p : Nat) (r : Bytes) (pins : Bool), s.upd.booted = false → s.runs = true → alive s 1 = true →
    alive s 2 = true → s.key.staged = none → s.selWinner = some (p, r) → selFlag r 0 = false → selFlag r 2 = true →
    selState r 0 = 0 → selState r 1 = 0 →
    Ends (exec (.boot pins) s) fun t =>
      t.upd.mode = .loader ∧ t.upd.booted = true ∧ SameBut [.upd, .key, .freeCtr, .regs] s t ∧
      RegsBut [R.KEY_LC_NONCE_LO, R.KEY_LC_NONCE_HI] s t) ∧
  (∀ (s : State) (p a : Nat) (r : Bytes), s.upd.booted = false → s.runs = true → alive s 1 = true →
    alive s 2 = true → s.key.staged = none → s.selWinner = some (p, r) → selFlag r 0 = false → selFlag r 1 = false →
    selFlag r 2 = false → a ≤ 1 → byteAt r 4 = a → selState r a = 3 → selState r (1 - a) = 0 →
    s.fusedSvn ≤ fwSvn (s.headOf a) → byteAt r 13 = 0xFF → RoomFor s 3 →
    Ends (exec (.boot false) s) fun t =>
      t.upd.booted = true ∧
      (if s.slotValid a false then
        t.upd.mode = .firmware ∧ t.reg R.UPD_RUN = word a ∧ t.reg R.UPD_RUN_VER = word (fwVersion (s.headOf a)) ∧
          t.mem = s.mem
      else t.upd.mode = .recovery ∧ t.upd.cause = 1)) ∧
  (∀ (s : State) (slot next : Nat) (bs : Bytes), s.upd.mode = .loader → selFlag s.sel 2 = true →
    (s.regFld R.PWR_RST_CAUSE 7 4 = 3 ∨ s.regFld R.PWR_RST_CAUSE 7 4 = 4) → s.pwr.chip = none → alive s 8 = true →
    slot = byteAt s.sel 15 % 2 → next = leAt s.sel 28 4 → RoomFor s 1 →
    bs = s.readImage (leAt s.sel 32 8) (1536 * blockBytes) →
    Ends (exec .residentLoader s) fun t =>
      let good := fwValid bs (ascii "PGFW") (1536 * blockBytes) s.fusedSvn true
      let u := ((s.slotEmpty slot).norErase slot 0).norWrite slot next (slice bs (next * blockBytes) blockBytes)
      let w := (s.slotEmpty slot).norWrite slot 0 (bs.take blockBytes)
      if good = true ∧ next < ceilDiv (imgTotal bs) blockBytes then
        t = u.writeSel (putBytes u.sel 28 (leBytes 4 (next + 1)))
      else
        t.pwr.chip = some ⟨6, 0, 0⟩ ∧
          t.mem = (if good then (w.trialOf (selClosed w.sel) slot 0xFF).mem else (s.writeSel (selClosed s.sel)).mem)) ∧
  (∀ (s : State) (m : Master) (mA mB : Nat), alive s 1 = true → alive s 2 = true → secureMaster s m = true →
    (m.origin ≤ 2 ∨ s.holding = false) → LogRoom s →
    Ends (exec (.configExport m mA mB) s) fun t =>
      (∃ bs, .file bs ∈ t.out ∧ bs.take 4 = ascii "PGCX" ∧ slice bs 24 8 = s.serial) ∧
      Entered s t m.origin (privByte s m false (m.origin ≤ 2)) 0xD000000E 2 (wordAt s.serial 0) ∧
      SameBut (.freeCtr :: logParts) s t ∧ RegsBut [] s t) ∧
  (∀ (s : State) (m : Master) (src len mA mB : Nat) (bs : Bytes), alive s 1 = true → alive s 2 = true →
    secureMaster s m = true → (m.origin ≤ 2 ∨ s.holding = false) → len ≤ 0x4000000 → RoomFor s 2 → bs = s.read src len →
    Ends (exec (.configImport m src len mA mB) s) fun t =>
      if s.importOk bs then t.upd.imported = true ∧ t.upd.job = s.upd.job ∧ SameBut (.mem :: .upd :: logParts) s t
      else SameBut logParts s t ∧ RegsBut [R.AUD_REJ_SUPPR] s t)

/-! ### Ciphers and keys (R466-R509) -/

/-- SLOT_LOAD, SLOT_REVOKE, SLOT_ZEROISE_DONE: a key that no rule refuses stands in its slot, LOADED, and the key registers read
zero either way (R470); REVOKE makes the slot and every descendant that is LOADED REVOKED in one step (R472, R473); a
revoked slot that no operation uses is zeroised and EMPTY (R473).
The model's choices in it: assumption 96. -/
def Obligations.KeySlots : Prop :=
  (∀ (s : State) (m : Master) (n : Nat) (l l' : Loc), n < 512 → Calm s → Writable s m R.CIP_SLOT_SEL n l →
    Writable s m R.CIP_SLOT_CMD 0x80000001 l' → RoomFor s 1 →
    Leaves (exec (.slotLoad m n) s) fun t =>
      (∀ k < 8, t.reg (R.CIP_SLOT_KEY k) = 0) ∧
      (match s.loadRefusal m n s.stagedAttr s.stagedAux with
        | none =>
          t.slotOf n = ⟨((List.range 8).flatMap fun i => leBytes 4 (s.reg (R.CIP_SLOT_KEY i)).toNat).take
              (keyBytes s.stagedAttr), slotAttr s.stagedAttr none 1, s.stagedAux⟩ ∧
            (∀ k, k ≠ n → t.slotOf k = s.slotOf k) ∧ t.reg R.CIP_SLOT_STAT = 0
        | some r => t.cip = s.cip ∧ t.reg R.CIP_SLOT_STAT = word (r * 256)) ∧
      SameBut (.cip :: logParts) s t ∧
      RegsBut (R.CIP_SLOT_SEL :: R.CIP_SLOT_STAT :: R.AUD_REJ_SUPPR :: (List.range 8).map R.CIP_SLOT_KEY) s t) ∧
  (∀ (s : State) (m : Master) (n : Nat) (l l' : Loc), n < 512 → Calm s → Writable s m R.CIP_SLOT_SEL n l →
    Writable s m R.CIP_SLOT_CMD 0x80000002 l' → RoomFor s 1 → s.slotState n = 1 →
    Leaves (exec (.slotRevoke m n) s) fun t =>
      (∀ k, t.slotState k = if k ∈ s.family n ∧ s.slotState k = 1 then 2 else s.slotState k) ∧ t.slotState n = 2 ∧
      (∀ k, (t.slotOf k).key = (s.slotOf k).key) ∧ t.reg R.CIP_SLOT_STAT = 0 ∧
      SameBut (.cip :: logParts) s t ∧ RegsBut [R.CIP_SLOT_SEL, R.CIP_SLOT_STAT] s t) ∧
  (∀ (s : State) (n : Nat), s.slotState n = 2 → s.slotBusy n = false → alive s 5 = true →
    Ends (exec (.slotZeroiseDone n) s) fun t =>
      t.slotOf n = Slot.empty ∧ (∀ k, k ≠ n → t.slotOf k = s.slotOf k) ∧ (∀ x ∈ t.cip.sets, n ∉ x) ∧
      ([n] ∈ s.cip.sets → t.regBit R.CIP_EVT_STATUS 1 = true) ∧ SameBut (.cip :: eventParts) s t ∧ RegsBut [] s t)

/-- JOB_GCM_ENC, JOB_GCM_DEC, JOB_CMAC, JOB_CTR, JOB_KDF_CHILD, JOB_KDF_8021X, JOB_UNWRAP, JOB_DERIVE_ROOT, JOB_DONE: a job that no rule
refuses is held with its operands, and reads as busy (R487, R488); as it completes its output stands in memory, its RESULT
in the register and its event is set (R488); a bus error ends it with TRUNCATED and no output (R488); a core with an
uncorrectable error leaves use (R467).
The model's choices in it: assumptions 9, 107. -/
def Obligations.CipherJobs : Prop :=
  (∀ (s : State) (m : Master) (op slot dst len src out aux : Nat) (x : Instr) (j : CipJob) (l : Loc),
    IsJob op m slot dst len src out aux x → slot < 512 → dst < 512 → len < 2 ^ 32 → src < 2 ^ 48 → out < 2 ^ 48 →
    aux < 2 ^ 48 → Calm s →
    (∀ i < 8, ∃ l', Writable s m (R.CIP_JOB i) ((jobWords op slot dst len src out aux).getD i 0) l') →
    Writable s m R.CIP_JOB_GO 1 l →
    j = ⟨m, (jobWords op slot dst len src out aux).flatMap (leBytes 4), s.stagedAttr, s.stagedAux⟩ →
    s.jobRefusal j = none →
    Leaves (exec x s) fun t =>
      t.cip = { s.cip with job := some j } ∧ t.reg R.CIP_JOB_STAT = 1 ∧ SameBut (.cip :: eventParts) s t ∧
      RegsBut (R.CIP_JOB_STAT :: (List.range 8).map R.CIP_JOB) s t) ∧
  (∀ (s : State) (j : CipJob), s.cip.job = some j → RoomFor s 1 →
    Ends (exec (.jobDone false none) s) fun t =>
      t.mem = (s.jobWork j).1.mem ∧ t.reg R.CIP_JOB_STAT = word ((s.jobWork j).2 * 256) ∧ t.cip.job = none ∧
      (j.op < 5 → t.cip = { s.cip with job := none }) ∧ t.regBit R.CIP_EVT_STATUS 3 = true ∧
      SameBut (.mem :: .cip :: logParts) s t ∧ RegsBut [R.CIP_JOB_STAT, R.AUD_REJ_SUPPR] s t) ∧
  (∀ (s : State) (j : CipJob), s.cip.job = some j → RoomFor s 1 →
    Ends (exec (.jobDone true none) s) fun t =>
      t.reg R.CIP_JOB_STAT = 0x700 ∧ t.cip = { s.cip with job := none } ∧ t.regBit R.CIP_EVT_STATUS 3 = true ∧
      SameBut (.cip :: logParts) s t ∧ RegsBut [R.CIP_JOB_STAT, R.AUD_REJ_SUPPR] s t) ∧
  (∀ (s : State) (j : CipJob) (e : Bool) (c : Nat), s.cip.job = some j → RoomFor s 1 → Mild s 16 2 →
    Ends (exec (.jobDone e (some c)) s) fun t =>
      t.reg R.CIP_JOB_STAT = 0x700 ∧ t.cip = { s.cip with job := none, out := lineIns c s.cip.out } ∧
      t.regBit (fltReg 16 0) 2 = true ∧ SameBut (.cip :: logParts) s t ∧
      RegsBut (R.CIP_JOB_STAT :: R.AUD_REJ_SUPPR :: faultRegs 16) s t)

/-- TAMPER_ASSERT, CIPHER_ALARM, CIP_ALARM_ACK, SLOT_ECC: an alarm empties every slot, makes every SA invalid, ends the job with
LOCKED, latches its cause, and counts (R475, R476); a cause that ceases is dropped, and an acknowledgement clears ALARM
(R477); an uncorrectable error in a slot revokes it (R474).
The model's choices in it: assumption 106. -/
def Obligations.CipherAlarms : Prop :=
  (∀ (s : State) (c : Nat), 2 ≤ c → c ≤ 5 → RoomFor s 2 → Mild s 16 1 →
    Ends (exec (.cipherAlarm c true) s) fun t =>
      t.cip.slots = [] ∧ (∀ k, (kvGet t.cip.sas k SaRec.none).valid = false) ∧ t.cip.job = none ∧
      t.regBit R.CIP_STATUS 0 = true ∧ t.regFld R.CIP_STATUS 7 4 = c ∧ c ∈ t.cip.causes ∧
      t.reg R.KEY_ALARM_CNT = satInc (s.reg R.KEY_ALARM_CNT) ∧ t.regBit (fltReg 16 0) 1 = true ∧
      t.regBit R.CIP_EVT_STATUS 2 = true ∧ SameBut (.cip :: logParts) s t ∧
      RegsBut (R.CIP_STATUS :: R.KEY_ALARM_CNT :: R.CIP_JOB_STAT :: R.AUD_REJ_SUPPR :: faultRegs 16) s t) ∧
  (∀ (s : State) (c : Nat), 2 ≤ c → c ≤ 5 →
    Ends (exec (.cipherAlarm c false) s) fun t =>
      t.cip = { s.cip with causes := s.cip.causes.filter (· != c) } ∧ SameBut [.cip] s t) ∧
  (∀ (s : State) (mains : Bool) (mv : Nat), s.runs = true → s.cip.causes = [] → RoomFor s 2 → Mild s 16 1 → Mild s 17 3 →
    Ends (exec (.tamperAssert true mains mv) s) fun t =>
      t.cip.slots = [] ∧ t.regBit R.CIP_STATUS 0 = true ∧ t.regFld R.CIP_STATUS 7 4 = 1 ∧ t.cip.causes = [1] ∧
      t.regBit (fltReg 16 0) 1 = true ∧ t.regBit (fltReg 17 0) 3 = true ∧ SameBut (.cip :: logParts) s t ∧
      RegsBut (R.CIP_STATUS :: R.KEY_ALARM_CNT :: R.CIP_JOB_STAT :: R.AUD_REJ_SUPPR :: (faultRegs 16 ++ faultRegs 17))
        s t) ∧
  (∀ (s : State) (m : Master) (v : Nat) (l : Loc), Writable s m R.CIP_ALARM_ACK (withBit v 0) l →
    Leaves (exec (.cipAlarmAck m v) s) fun t =>
      t.regBit R.CIP_STATUS 0 = false ∧ SameBut logParts s t ∧ RegsBut [R.CIP_STATUS] s t) ∧
  (∀ (s : State) (n : Nat), n < 512 → s.slotState n = 1 → alive s 5 = true → RoomFor s 1 → Mild s 16 3 →
    Ends (exec (.slotEcc n) s) fun t =>
      t.slotState n = 2 ∧ t.regBit (fltReg 16 0) 3 = true ∧ SameBut (.cip :: logParts) s t ∧
      RegsBut (faultRegs 16) s t)

/-- SA_INSTALL, SA_RETIRE, SA_READ, FV_SET, RNG_READ: the staged record stands as the association selected, or the command is
refused (R481); a retired one is not valid (R481); a read shows its words (R481, R505); a counter takes the staged value
(R486); a read of KEY_RNG gives bits that the spec does not state (R508).
The model's choices in it: assumption 8. -/
def Obligations.Associations : Prop :=
  (∀ (s : State) (m : Master) (n p : Nat) (l l' : Loc), n = p + 256 → p < 29 → Calm s → Writable s m R.CIP_SA_SEL n l →
    Writable s m R.CIP_SA_CMD 0x80000001 l' → RoomFor s 1 →
    s.slotUse s.saStaged.slot 1 = true → (kvGet? s.cip.scs (p * 8)).isSome = true →
    fld (s.slotOf s.saStaged.slot).attr 9 8 = (if s.regFld (R.CIP_SECY_CFG p) 9 8 % 2 = 0 then 0 else 2) →
    (kvGet s.cip.sas (saKey p true 0 0) SaRec.none).valid = false →
    Leaves (exec (.saInstall m n) s) fun t =>
      t.cip = { s.cip with sas := kvSet s.cip.sas (saKey p true 0 0) s.saStaged } ∧ t.reg R.CIP_SA_STAT = 0 ∧
      SameBut (.cip :: logParts) s t ∧ RegsBut [R.CIP_SA_SEL, R.CIP_SA_STAT] s t) ∧
  (∀ (s : State) (m : Master) (n : Nat) (l l' : Loc), 29 ≤ n → n < 128 → Calm s → Writable s m R.CIP_SA_SEL n l →
    Writable s m R.CIP_SA_CMD 0x80000001 l' → RoomFor s 1 →
    Leaves (exec (.saInstall m n) s) fun t =>
      t.cip = s.cip ∧ t.reg R.CIP_SA_STAT = 0x400 ∧ SameBut logParts s t ∧
      RegsBut [R.CIP_SA_SEL, R.CIP_SA_STAT, R.AUD_REJ_SUPPR] s t) ∧
  (∀ (s : State) (m : Master) (n p : Nat) (l l' : Loc), n = p + 256 → p < 29 → Calm s → Writable s m R.CIP_SA_SEL n l →
    Writable s m R.CIP_SA_CMD 0x80000002 l' → RoomFor s 1 →
    Leaves (exec (.saRetire m n) s) fun t =>
      (kvGet t.cip.sas (saKey p true 0 0) SaRec.none).valid = false ∧ t.cip.slots = s.cip.slots ∧
      t.reg R.CIP_SA_STAT = 0 ∧ SameBut (.cip :: logParts) s t ∧ RegsBut [R.CIP_SA_SEL, R.CIP_SA_STAT] s t) ∧
  (∀ (s : State) (m : Master) (n p : Nat) (l l' : Loc), n = p + 256 → p < 29 → Calm s → Writable s m R.CIP_SA_SEL n l →
    Writable s m R.CIP_SA_CMD 0x80000003 l' →
    Leaves (exec (.saRead m n) s) fun t =>
      let r := kvGet s.cip.sas (saKey p true 0 0) SaRec.none
      t.reg (R.CIP_SA_W 0) = word (r.slot + (if r.valid then 2 ^ 31 else 0)) ∧ t.reg (R.CIP_SA_W 1) = word r.pn ∧
      t.reg (R.CIP_SA_W 2) = word (r.pn / 2 ^ 32) ∧ t.reg (R.CIP_SA_W 3) = word r.ssci ∧ t.reg R.CIP_SA_STAT = 0 ∧
      SameBut eventParts s t ∧ RegsBut (R.CIP_SA_SEL :: R.CIP_SA_STAT :: (List.range 8).map R.CIP_SA_W) s t) ∧
  (∀ (s : State) (m : Master) (n : Nat) (l l' : Loc), n < 4096 → Calm s → Writable s m R.CIP_FV_SEL n l →
    Writable s m R.CIP_FV_CMD 1 l' → RoomFor s 1 →
    Leaves (exec (.fvSet m n) s) fun t =>
      kvGet t.cip.fv n 0 = (s.reg R.CIP_FV_SET_LO).toNat + (s.reg R.CIP_FV_SET_HI).toNat * 2 ^ 32 ∧
      (∀ k, k ≠ n → kvGet t.cip.fv k 0 = kvGet s.cip.fv k 0) ∧ SameBut (.cip :: logParts) s t ∧
      RegsBut [R.CIP_FV_SEL] s t) ∧
  (∀ (s : State) (m : Master), Reaches s m → alive s 1 = true → windowGranted s m 17 = true →
    Ends (exec (.rngRead m) s) fun t =>
      t.sys.bus = .data (Config.freeWord s.freeCtr).toNat ∧ t.freeCtr = s.freeCtr + 1 ∧ SameBut [.sys, .freeCtr] s t)

/-- LC_REQUEST, VAULT_STORE, VAULT_LOAD, VAULT_DELETE, ATTEST_REQUEST, ATTEST_DONE: a request with a valid object stages its target and
one without changes nothing but its status (R492); the vault keeps a wrapped key, gives it back, and forgets it (R496,
R497); a token is taken with its claims, written to its destination, and its length reported (R499).
The model's choices in it: assumptions 9, 98, 100, 101. -/
def Obligations.LifeCycleVaultAttestation : Prop :=
  (∀ (s : State) (m : Master) (v : Nat) (l : Loc) (obj : Bytes), Writable s m R.KEY_LC_REQ (withBit v 31) l →
    obj = s.readAny ((s.reg (R.KEY_LC_AUTH 0)).toNat + s.regFld (R.KEY_LC_AUTH 1) 15 0 * 2 ^ 32) 256 → RoomFor s 1 →
    Leaves (exec (.lcRequest m v) s) fun t =>
      t.reg R.KEY_LC_STAT = word (s.lcResult (fld (word v) 2 0) obj * 256) ∧
      t.key = (if s.lcResult (fld (word v) 2 0) obj = 0 then { s.key with staged := some (fld (word v) 2 0) } else s.key) ∧
      t.regBit R.KEY_EVT_STATUS 0 = true ∧ SameBut (.key :: logParts) s t ∧
      RegsBut [R.KEY_LC_STAT, R.KEY_LC_NONCE_LO, R.KEY_LC_NONCE_HI, R.AUD_REJ_SUPPR] s t) ∧
  (∀ (s : State) (m : Master) (slot id : Nat) (l : Loc), slot < 512 → id < 2048 →
    Writable s m R.KEY_VLT_CMD (2 ^ 31 + 2 ^ 24 + slot * 4096 + id) l →
    s.vaultKeys.vaultRefusal m 1 slot = none → RoomFor s 1 →
    Leaves (exec (.vaultStore m slot id false) s) fun t =>
      t.mem = (s.vaultKeys.vaultPut (s.vaultKeys.slotOf 511).key id ((s.vaultKeys.slotOf slot).attr &&& 0x7FF#32)
        (keyWrap (s.vaultKeys.slotOf 510).key (s.vaultKeys.slotOf slot).key)).1.mem ∧
      t.cip = s.vaultKeys.cip ∧ t.reg R.KEY_VLT_STAT = 0 ∧ t.regBit R.KEY_EVT_STATUS 1 = true ∧
      SameBut (.mem :: .cip :: logParts) s t ∧ RegsBut [R.KEY_VLT_STAT] s t) ∧
  (∀ (s : State) (m : Master) (slot id p : Nat) (r : Bytes) (attr : Word) (l : Loc), slot < 512 → id < 2048 →
    Writable s m R.KEY_VLT_CMD (2 ^ 31 + 2 * 2 ^ 24 + slot * 4096 + id) l →
    s.vaultKeys.vaultRefusal m 2 slot = none → s.vaultKeys.vaultWinner (s.vaultKeys.slotOf 511).key id = some (p, r) →
    attr = wordAt r 1 → bitOf attr 29 = false → bitOf attr 2 = false →
    s.vaultKeys.loadRefusal m slot (attr &&& 0x7FF#32) 0 = none → RoomFor s 1 →
    Leaves (exec (.vaultLoad m slot id) s) fun t =>
      (match keyUnwrap (s.vaultKeys.slotOf 510).key (slice r 8 (keyBytes attr + 8)) with
        | some k => t.slotOf slot = ⟨k, slotAttr attr none 1, 0⟩ ∧ t.reg R.KEY_VLT_STAT = 0
        | none => t.cip = s.vaultKeys.cip ∧ t.reg R.KEY_VLT_STAT = 0x900) ∧
      t.regBit R.KEY_EVT_STATUS 1 = true ∧ SameBut (.cip :: logParts) s t ∧
      RegsBut [R.KEY_VLT_STAT, R.AUD_REJ_SUPPR] s t) ∧
  (∀ (s : State) (m : Master) (id : Nat) (l : Loc), id < 2048 →
    Writable s m R.KEY_VLT_CMD (2 ^ 31 + 3 * 2 ^ 24 + id) l → s.vaultKeys.vaultRefusal m 3 0 = none → RoomFor s 1 →
    Leaves (exec (.vaultDelete m id false) s) fun t =>
      t.mem = (s.vaultKeys.vaultPut (s.vaultKeys.slotOf 511).key id (bitWord 29) []).1.mem ∧
      t.cip = s.vaultKeys.cip ∧ t.reg R.KEY_VLT_STAT = 0 ∧ SameBut (.mem :: .cip :: logParts) s t ∧
      RegsBut [R.KEY_VLT_STAT] s t) ∧
  (∀ (s : State) (m : Master) (v : Nat) (l : Loc), Writable s m R.KEY_ATT_CTRL (withBit v 31) l →
    s.attRefused (word v) = false → RoomFor s 1 →
    Leaves (exec (.attestRequest m v) s) fun t =>
      t.key.att = some ⟨claimsMap (s.claims ((ofWords ((List.range 16).map fun i => s.reg (R.KEY_ATT_NONCE i))).take
        (fld (word v) 6 0))), (s.reg (R.KEY_ATT_DST 0)).toNat + s.regFld (R.KEY_ATT_DST 1) 15 0 * 2 ^ 32⟩ ∧
      t.reg R.KEY_ATT_STAT = 1 ∧ SameBut (.key :: logParts) s t ∧ RegsBut [R.KEY_ATT_STAT] s t) ∧
  (∀ (s : State) (j : AttJob), s.key.att = some j → alive s 1 = true →
    Ends (exec .attestDone s) fun t =>
      (∃ token, t.mem = (s.writeAny j.dst token).mem ∧ t.hostMem = (s.writeAny j.dst token).hostMem ∧
        t.reg R.KEY_ATT_STAT = word (token.length * 65536)) ∧
      t.key = { s.key with att := none } ∧ t.regBit R.KEY_EVT_STATUS 2 = true ∧
      SameBut (.mem :: .hostMem :: .key :: eventParts) s t ∧ RegsBut [R.KEY_ATT_STAT] s t)

/-! ### Guards, faults, the alive signal (R421-R465, R573, R574) -/

/-- GRD_LOAD, GRD_LOAD_CLEAR, GRD_LOAD_DONE, GUARD_MANIFEST_APPLY, GRD_APPLY, GRD_APPLY_FAIL, ACT_WINDOW_RESET, SAFE_SET_REPEAT: a load is
held until its records stand in their structure (R457); APPLY with valid checks applies the manifest, locks the guards and
ALV_CFG, and clears the failures (R431); a failure counts, and the third drives the cipher alarm (R433); a manifest that is
not in order counts as a failure, and one that is in order is loaded, with its version and digest, before the same checks (R430); each 10 ms clears ACT_USED (R425); a port's safe
frame is sent again after its period (R435).
The model's choices in it: assumptions 9, 128. -/
def Obligations.Guards : Prop :=
  (∀ (s : State) (m : Master) (v : Nat) (l : Loc), Writable s m R.GRD_LD_CTRL (withBit (sansBit v 8) 31) l →
    s.reg R.GRD_LD_LEN ≠ 0 →
    Leaves (exec (.grdLoad m v) s) fun t =>
      t.grd.load = some ⟨false, fld (word v) 1 0, s.grdLdSrc, (s.reg R.GRD_LD_DST).toNat, (s.reg R.GRD_LD_LEN).toNat⟩ ∧
      t.grd = { s.grd with load := t.grd.load } ∧
      SameBut (.grd :: logParts) s t ∧ RegsBut [] s t) ∧
  (∀ (s : State) (m : Master) (v : Nat) (l : Loc), Writable s m R.GRD_LD_CTRL (withBit v 8) l →
    Leaves (exec (.grdLoadClear m v) s) fun t =>
      t.grd = { s.grd.setPart (fld (word v) 1 0) [] with load := some ⟨true, fld (word v) 1 0, 0, 0, 0⟩ } ∧
      SameBut (.grd :: logParts) s t ∧ RegsBut [] s t) ∧
  (∀ (s : State) (j : LoadJob), alive s 1 = true → s.grd.load = some j →
    Ends (exec .grdLoadDone s) fun t =>
      t.grd.part j.struct_ = (if j.clear then s.grd.part j.struct_
        else putRecs (s.grd.part j.struct_) (j.dst / (grdRec j.struct_).1) (grdRec j.struct_).1 (s.read j.src j.len)) ∧
      t.grd.load = none ∧ t.reg R.GRD_LD_STAT = 0 ∧ SameBut [.grd, .regs] s t ∧ RegsBut [R.GRD_LD_STAT] s t) ∧
  (∀ (s : State) (m : Master) (v : Nat) (l : Loc), Writable s m R.GRD_APPLY (withBit v 0) l → bitOf (word v) 1 = false →
    Leaves (exec (.grdApply m v) s) fun t =>
      t.regBit R.GRD_STATUS 0 = true ∧ t.regBit (winBase 6 + 0x20) 0 = true ∧ t.regBit (winBase 5 + 0x20) 0 = true ∧
      t.reg R.GRD_MAN_FAILS = 0 ∧ t.grd.bucket = [] ∧ t.alv = { s.alv with applyAt := some s.now } ∧
      t.regBit R.GRD_EVT_STATUS 4 = true ∧ SameBut (.grd :: .alv :: .cip :: logParts) s t ∧
      RegsBut [R.GRD_STATUS, winBase 6 + 0x20, winBase 5 + 0x20, R.GRD_MAN_FAILS] s t) ∧
  (∀ (s : State) (m : Master) (v : Nat) (l : Loc), Writable s m R.GRD_APPLY (withBit (sansBit v 0) 1) l →
    s.regFld R.GRD_MAN_FAILS 7 0 ≠ 2 → Mild s 6 3 →
    Leaves (exec (.grdApplyFail m v) s) fun t =>
      t.reg R.GRD_MAN_FAILS = word (min (s.regFld R.GRD_MAN_FAILS 7 0 + 1) 255) ∧ t.regBit (fltReg 6 0) 3 = true ∧
      SameBut logParts s t ∧ RegsBut (R.GRD_MAN_FAILS :: faultRegs 6) s t) ∧
  (∀ (s : State) (m : Master) (v : Nat) (l : Loc), Writable s m R.GRD_APPLY (withBit (sansBit v 0) 1) l →
    s.regFld R.GRD_MAN_FAILS 7 0 = 2 → Mild s 6 3 → Mild s 6 4 → Mild s 16 1 → RoomFor s 3 →
    Leaves (exec (.grdApplyFail m v) s) fun t =>
      t.reg R.GRD_MAN_FAILS = 3 ∧ t.regBit (fltReg 6 0) 4 = true ∧ t.regBit R.CIP_STATUS 0 = true ∧
      t.regFld R.CIP_STATUS 7 4 = 5 ∧ t.cip.slots = []) ∧
  (∀ (s : State) (src : Nat) (bs : Bytes), alive s 1 = true → s.grd.load = none →
    s.regBit (winBase 6 + 0x20) 0 = false → bs = s.readImage src 0x100000 →
    s.regFld R.GRD_MAN_FAILS 7 0 ≠ 2 → Mild s 6 3 → RoomFor s 1 →
    Ends (exec (.guardManifestApply src) s) fun t =>
      let u := ((s.manifestLoad bs).keeperPut R.GRD_MAN_VER (word (leAt bs 12 4))).keeperPut R.GRD_MAN_DIG
        (wordAt (imgDigest bs) 0)
      let u := u.setGrd { u.grd with digest := imgDigest bs }
      let bad := badPortRecord (portRecords bs) []
      if s.manifestOk bs then
        t = (State.apply (match u.applyError bad with
          | some _ => u
          | none => u.logWrite keeper R.GRD_APPLY 0 1) keeper bad).settle
      else
        t.reg R.GRD_MAN_FAILS = word (min (s.regFld R.GRD_MAN_FAILS 7 0 + 1) 255) ∧ t.grd = s.grd ∧
          t.regBit (fltReg 6 0) 3 = true ∧ SameBut logParts s t) ∧
  (∀ s : State, alive s 1 = true →
    Ends (exec .actWindowReset s) fun t =>
      (∀ p ∈ guardedPorts, t.regFld (R.GRD_PSTAT p) 15 0 = 0 ∧ t.regBit (R.GRD_PSTAT p) 16 = s.regBit (R.GRD_PSTAT p) 16) ∧
      SameBut [.regs] s t ∧ RegsBut (guardedPorts.map R.GRD_PSTAT) s t) ∧
  (∀ (s : State) (p : Nat) (r : SafeRun) (b : Bytes), s.toggling = false → s.regBit R.GRD_STATUS 0 = true →
    alive s 1 = true → p ∈ guardedPorts → s.grd.run = [(p, r)] → r.waiting = false →
    0 < s.regFld (R.GRD_PCFG p) 15 8 → r.first + s.regFld (R.GRD_PCFG p) 15 8 * 1000000 ≤ s.now →
    s.regFld (R.GRD_PCFG p) 2 0 = 1 → s.portCanSend p = true → s.lineBusy p = false → s.safeSlot p 0 = some b →
    s.slotFits p b = true →
    Ends (exec .safeSetRepeat s) fun t =>
      t.out = s.out ++ [.safeFrame p b] ∧ t.grd = { s.grd with run := [(p, ⟨s.now, false⟩)] } ∧
      SameBut [.grd, .sys, .out] s t)

/-- FAULT_FORCE, FAULT_ACK, FAULT_STATUS_CLEAR: a forced source sets its bit, opens the window's event, and takes the next number
(R440, R444); with an event open it is merged (R442); an acknowledgement with no bit set closes the event (R443); a written
1 clears a bit whose condition does not hold (R439). -/
def Obligations.FaultPages : Prop :=
  (∀ (s : State) (m : Master) (w src : Nat) (l : Loc), winOk w = true → Writable s m (fltReg w 4) (2 ^ src) l → src < 32 →
    sourceOk w src = true → Mild s w src → s.regBit (fltReg w 0x20) 8 = false →
    Leaves (exec (.faultForce m w (2 ^ src)) s) fun t =>
      t.regBit (fltReg w 0) src = true ∧ t.regFld (fltReg w 0x20) 7 0 = src ∧ t.regBit (fltReg w 0x20) 8 = true ∧
      t.reg R.SYS_FLT_SEQ = s.reg R.SYS_FLT_SEQ + 1 ∧ SameBut logParts s t ∧ RegsBut (faultRegs w) s t) ∧
  (∀ (s : State) (m : Master) (w src : Nat) (l : Loc), winOk w = true → Writable s m (fltReg w 4) (2 ^ src) l → src < 32 →
    sourceOk w src = true → Mild s w src → s.regBit (fltReg w 0x20) 8 = true →
    Leaves (exec (.faultForce m w (2 ^ src)) s) fun t =>
      t.regBit (fltReg w 0) src = true ∧ t.reg (fltReg w 0x3C) = satInc (s.reg (fltReg w 0x3C)) ∧
      t.regFld (fltReg w 0x20) 7 0 = s.regFld (fltReg w 0x20) 7 0 ∧ SameBut logParts s t ∧
      RegsBut [fltReg w 0, fltReg w 0x20, fltReg w 0x3C] s t) ∧
  (∀ (s : State) (m : Master) (w v : Nat) (l : Loc), winOk w = true → Writable s m (fltReg w 0x40) (withBit v 0) l →
    s.reg (fltReg w 0) = 0 →
    Leaves (exec (.faultAck m w v) s) fun t =>
      t.regBit (fltReg w 0x20) 8 = false ∧ t.reg (fltReg w 0x3C) = 0 ∧ SameBut logParts s t ∧
      RegsBut [fltReg w 0x20, fltReg w 0x3C] s t) ∧
  (∀ (s : State) (m : Master) (w v : Nat) (l : Loc), winOk w = true → Writable s m (fltReg w 0) v l →
    (∀ src < 32, bitOf (word v) src = true → s.levelHolds w src = none) →
    Leaves (exec (.faultStatusClear m w v) s) fun t =>
      t.reg (fltReg w 0) = s.reg (fltReg w 0) &&& ~~~ (word v &&& inMask l) ∧ SameBut logParts s t ∧
      RegsBut [fltReg w 0] s t)

/-- ALIVE_KICK, ALIVE_STOP, ALIVE_STOP_CMD, ALIVE_RESTART, KICK_WINDOW_EXPIRE, FIRST_KICK_EXPIRE, KICK_HALF_TIMEOUT: a first half is held
for its second; a kick inside the window restarts it, one before it opens stops ALIVE_OUT with cause 3, and the first
starts it (R448, R449); no kick in time stops it with cause 2, no first kick with 5, no second half with 4, a command with
7 (R450); a restart in its two writes starts it again (R451); the stop falls on the next edge (R450). -/
def Obligations.AliveSignal : Prop :=
  (∀ (s : State) (m : Master) (v : Nat) (l : Loc), Writable s m R.ALV_KICK v l → s.kickArmed = true → s.alv.half = none →
    v % 65536 = 0x5A5A →
    Leaves (exec (.aliveKick m v) s) fun t =>
      t.alv = { s.alv with half := some s.now } ∧ t.regBit R.ALV_STATUS 2 = true ∧ t.toggling = s.toggling ∧
      SameBut (.alv :: eventParts) s t ∧ RegsBut [R.ALV_STATUS] s t) ∧
  (∀ (s : State) (m : Master) (v t0 : Nat) (l : Loc), Writable s m R.ALV_KICK v l → s.toggling = true →
    s.alv.half = some t0 → s.now ≤ t0 + 1000000 → v % 65536 = 0xA5A5 → Mild s 5 1 →
    s.now - s.alv.lastKick ≤ s.kickWindow.2.1 →
    Leaves (exec (.aliveKick m v) s) fun t =>
      (s.kickWindow.1 ≤ s.now - s.alv.lastKick →
        t.alv = { s.alv with half := none, lastKick := s.now } ∧ t.toggling = true ∧
          SameBut (.alv :: eventParts) s t ∧ RegsBut [R.ALV_STATUS] s t) ∧
      (s.now - s.alv.lastKick < s.kickWindow.1 → KickStopped t 3)) ∧
  (∀ (s : State) (m : Master) (v t0 a : Nat) (l : Loc), Writable s m R.ALV_KICK v l → s.toggling = false →
    s.kickArmed = true → s.alv.half = some t0 → s.now ≤ t0 + 1000000 → v % 65536 = 0xA5A5 → s.alv.applyAt = some a →
    s.now ≤ a + s.kickWindow.2.2 →
    Leaves (exec (.aliveKick m v) s) fun t =>
      t.toggling = true ∧ t.stopCause = 0 ∧ t.alv.lastKick = s.now ∧ t.alv.half = none ∧ t.grd = { s.grd with run := [] } ∧
      t.regBit R.ALV_EVT_STATUS 1 = true ∧ SameBut (.alv :: .grd :: eventParts) s t ∧ RegsBut [R.ALV_STATUS] s t) ∧
  (∀ s : State, s.alv.ending = true →
    Ends (exec .aliveStop s) fun t =>
      t.alv = { s.alv with ending := false, edgeAt := s.now } ∧ t.out = s.out ++ [.alive false] ∧
      SameBut [.alv, .out] s t) ∧
  (∀ (s : State) (m : Master) (v : Nat) (l : Loc), Writable s m R.ALV_CMD (withBit v 0) l → s.toggling = true →
    Leaves (exec (.aliveStopCmd m v) s) fun t =>
      t.toggling = false ∧ t.stopCause = 7 ∧ t.alv.ending = true ∧
      t.reg R.ALV_STOP_CNT = satInc (s.reg R.ALV_STOP_CNT) ∧ t.regBit R.ALV_EVT_STATUS 0 = true) ∧
  (∀ (s : State) (m : Master) (v : Nat) (l : Loc), Writable s m R.ALV_RESTART v l →
    Leaves (exec (.aliveRestart m v) s) fun t =>
      (v % 65536 = 0x0F0F → t.alv = { s.alv with restartHalf := some s.now } ∧ SameBut (.alv :: logParts) s t ∧
        RegsBut [] s t) ∧
      (v % 65536 = 0xF0F0 → t.toggling = true ∧ t.stopCause = 0 ∧ t.alv.lastKick = s.now ∧
        SameBut (.alv :: .grd :: logParts) s t ∧ RegsBut [R.ALV_STATUS] s t)) ∧
  (∀ s : State, s.toggling = true → s.alv.lastKick + s.kickWindow.2.1 ≤ s.now → Mild s 5 1 →
    Ends (exec .kickWindowExpire s) fun t => KickStopped t 2) ∧
  (∀ (s : State) (a : Nat), s.alv.applyAt = some a → s.toggling = false → s.kickArmed = true →
    a + s.kickWindow.2.2 ≤ s.now → Mild s 5 1 →
    Ends (exec .firstKickExpire s) fun t => KickStopped t 5) ∧
  (∀ (s : State) (t0 : Nat), s.alv.half = some t0 → t0 + 1000000 ≤ s.now → s.kickArmed = true → Mild s 5 1 →
    Ends (exec .kickHalfTimeout s) fun t => KickStopped t 4)

/-- SAFE_PWR_ON, SAFE_PWR_OFF, SAFE_PWR_LIMIT, SAFE_PWR_TRIP, SAFE_PWR_RETRY, SAFE_PWR_THERMAL, DETECTOR_MISMATCH, KEEPER_HANG, OSC_FAIL,
RAIL_FAULT, OVER_TEMP: SAFE_PWR comes on with the detector and goes off without it (R452); it trips after 5 ms in
limit, tries again after a second, and stays off after the third trip or while it is hot (R574); a mismatch, a failed
oscillator, a hung keeper, a rail out of range and over-temperature are faults of their sources (R438,
R463, R465, R557), a source whose reaction is a chip reset decides it (R441).

DRAM_ECC_ERROR, SRAM_ECC: a corrected DRAM error is counted and recorded, and one that is not corrected makes the access of its
master end in an error (R465); an error in a ledger record frees it (R525).
The model's choices in it: assumptions 95, 107. -/
def Obligations.SafeSupplyAndErrorInputs : Prop :=
  (∀ s : State, s.toggling = true → s.alv.detector = false → s.alv.edgeAt + 7920000 ≤ s.now →
    Ends (exec .safePwrOn s) fun t =>
      t.alv = { s.alv with detector := true } ∧
      t.regBit R.ALV_STATUS 1 = (State.safeWanted { s with alv := { s.alv with detector := true } }) ∧
      SameBut (.alv :: eventParts) s t ∧ RegsBut [R.ALV_STATUS] s t) ∧
  (∀ s : State,
    Ends (exec (.safePwrOff true) s) fun t =>
      t.alv.detector = false ∧ t.alv.limitAt = none ∧ t.alv.tripAt = none ∧ t.alv.tripLatched = false ∧
      t.regBit R.ALV_STATUS 1 = false ∧ SameBut (.alv :: eventParts) s t ∧ RegsBut [R.ALV_STATUS] s t) ∧
  (∀ s : State, s.regBit R.ALV_STATUS 1 = true → s.alv.detector = true → s.alv.limitAt = none → Mild s 5 3 →
    Ends (exec .safePwrLimit s) fun t =>
      t.alv = { s.alv with limitAt := some s.now } ∧ t.regBit (fltReg 5 0) 3 = true ∧
      SameBut (.alv :: eventParts) s t ∧ RegsBut (faultRegs 5) s t) ∧
  (∀ (s : State) (t0 : Nat), s.alv.limitAt = some t0 → t0 + 5000000 ≤ s.now → Mild s 5 3 →
    Ends (exec .safePwrTrip s) fun t =>
      t.alv = { s.alv with
        limitAt := none, trips := s.alv.trips + 1, tripAt := some s.now, tripLatched := decide (3 ≤ s.alv.trips + 1) } ∧
      t.regBit R.ALV_STATUS 1 = false ∧ t.regBit (fltReg 5 0) 3 = true ∧ SameBut (.alv :: eventParts) s t ∧
      RegsBut (R.ALV_STATUS :: faultRegs 5) s t) ∧
  (∀ (s : State) (t0 : Nat), s.alv.tripAt = some t0 → t0 + giga ≤ s.now → s.alv.thermal = false →
    s.alv.tripLatched = false →
    Ends (exec .safePwrRetry s) fun t =>
      t.alv = { s.alv with tripAt := none } ∧
      t.regBit R.ALV_STATUS 1 = (State.safeWanted { s with alv := { s.alv with tripAt := none } }) ∧
      SameBut (.alv :: eventParts) s t ∧ RegsBut [R.ALV_STATUS] s t) ∧
  (∀ s : State,
    Ends (exec (.safePwrThermal true) s) fun t =>
      t.alv = { s.alv with thermal := true, limitAt := none } ∧ t.regBit R.ALV_STATUS 1 = false ∧
      SameBut (.alv :: eventParts) s t ∧ RegsBut [R.ALV_STATUS] s t) ∧
  (∀ (s : State) (x : Bool), x ≠ (s.toggling && s.regBit R.ALV_CTRL 0) → Mild s 5 2 →
    Ends (exec (.detectorMismatch x) s) fun t =>
      t.regBit R.ALV_STATUS 1 = x ∧ t.regBit (fltReg 5 0) 2 = true ∧ SameBut eventParts s t ∧
      RegsBut (R.ALV_STATUS :: faultRegs 5) s t) ∧
  (∀ s : State, Mild s 0 3 →
    Ends (exec .keeperHang s) fun t =>
      t.regBit (fltReg 0 0) 3 = true ∧ SameBut eventParts s t ∧ RegsBut (faultRegs 0) s t) ∧
  (∀ s : State, s.reaction 0 3 = 4 → s.regBit (fltReg 0 0x20) 8 = false → s.pwr.chip = none →
    Ends (exec .keeperHang s) fun t => t.pwr.chip = some ⟨5, 0, 3⟩ ∧ t.toggling = false) ∧
  (∀ s : State, Mild s 5 4 →
    Ends (exec .oscFail s) fun t =>
      t.regBit (fltReg 5 0) 4 = true ∧ SameBut eventParts s t ∧ RegsBut (faultRegs 5) s t) ∧
  (∀ (s : State) (d : Nat), d < 16 → Mild s 1 1 →
    Ends (exec (.railFault d) s) fun t =>
      t.regBit (fltReg 1 0) 1 = true ∧ SameBut eventParts s t ∧ RegsBut (faultRegs 1) s t) ∧
  (∀ s : State, s.runs = true → 6370 < s.meas 58 → Mild s 1 2 →
    Ends (exec .overTemp s) fun t =>
      t.regBit (fltReg 1 0) 2 = true ∧ SameBut eventParts s t ∧ RegsBut (faultRegs 1) s t) ∧
  (∀ (s : State) (m : Master) (a : Nat), alive s 8 = true → 0x800000000 ≤ a → a < 0xA00000000 → Mild s 25 1 →
    Ends (exec (.dramEccError m a true) s) fun t =>
      t.ctr 25 0 0 = min (s.ctr 25 0 0 + 1) 0xFFFFFFFF ∧ t.regBit (fltReg 25 0) 1 = true ∧ t.sys.bus = s.sys.bus ∧
      SameBut eventParts s t ∧ RegsBut (faultRegs 25) s t) ∧
  (∀ (s : State) (m : Master) (a : Nat), alive s 8 = true → 0x800000000 ≤ a → a < 0xA00000000 → Mild s 25 2 →
    Ends (exec (.dramEccError m a false) s) fun t =>
      t.regBit (fltReg 25 0) 2 = true ∧ t.sys.bus = .error ∧
      (s.regBit (fltReg 25 0x20) 8 = false → t.reg (fltReg 25 0x24) = word a ∧ t.reg (fltReg 25 0x2C) = word m.origin) ∧
      SameBut eventParts s t ∧ RegsBut (faultRegs 25) s t) ∧
  (∀ (s : State) (off : Nat) (r : LedgerRec), alive s 2 = true → s.ledgerRec off = some r → r.freed = false →
    Mild s 4 1 →
    Leaves (exec (.sramEcc off) s) fun t =>
      (∀ r' ∈ t.ldg.recs, r'.off = off → r'.freed = true) ∧ t.regBit (fltReg 4 0) 1 = true ∧
      SameBut (.ldg :: eventParts) s t ∧ RegsBut (faultRegs 4) s t)

/-! ### The ledger (R510-R529) -/

/-- ORPHAN_SWEEP, REPLAY_GO, DISCARD_SET, REPLAY_DEADLINE, LEDGER_REPLAY_PUSH, REPLAY_FEED_TAKE: an orphan past its window is freed
(R516); GO starts a waiting set whose records may all be replayed (R520, R521), and a discard or the deadline frees every
record of it (R520, R529); the first record of a set joins the replay feed with its pending ports, marked replayed (R521);
the frame of the item at the front of the feed enters on port 58 (R521), and the item of a record that is gone is dropped.
The model's choices in it: assumptions 133, 134. -/
def Obligations.LedgerReplay : Prop :=
  (∀ s : State, alive s 2 = true →
    Leaves (exec .orphanSweep s) fun t =>
      (∀ r ∈ s.ldg.recs, s.isOrphan r = true → s.windowUs r.wclass ≤ r.age s.nowUs →
        ∀ r' ∈ t.ldg.recs, r'.off = r.off → r'.freed = true) ∧
      t.ldg.set = s.ldg.set ∧ SameBut [.ldg, .sys] s t) ∧
  (∀ (s : State) (m : Master) (v : Nat) (x : ReplaySet) (l : Loc), Writable s m R.LDG_CMD (withBit v 0) l →
    bitOf (word v) 1 = false → s.ldg.set = some x → x.waiting = true → x.todo ≠ [] → s.replayLate = false →
    (∀ off ∈ x.todo, ∃ r, s.ledgerRec off = some r ∧ r.freed = false ∧ s.replayBar x.kind x.ageUs r = none) →
    Leaves (exec (.replayGo m v) s) fun t =>
      t.ldg = { s.ldg with set := some { x with waiting := false } } ∧ SameBut (.ldg :: logParts) s t ∧ RegsBut [] s t) ∧
  (∀ (s : State) (m : Master) (v : Nat) (x : ReplaySet) (l : Loc), Writable s m R.LDG_CMD (withBit v 1) l →
    bitOf (word v) 0 = false → s.ldg.set = some x → x.waiting = true →
    Leaves (exec (.discardSet m v) s) fun t =>
      t.ldg.set = none ∧ (∀ off ∈ x.todo, ∀ r ∈ t.ldg.recs, r.off = off → r.freed = true) ∧
      SameBut (.ldg :: logParts) s t ∧ RegsBut [] s t) ∧
  (∀ (s : State) (x : ReplaySet), alive s 2 = true → s.replayLate = true → s.ldg.set = some x →
    Leaves (exec .replayDeadline s) fun t =>
      t.ldg.set = none ∧ (∀ off ∈ x.todo, ∀ r ∈ t.ldg.recs, r.off = off → r.freed = true) ∧ SameBut [.ldg, .sys] s t) ∧
  (∀ (s : State) (x : ReplaySet) (off : Nat) (rest : List Nat) (r : LedgerRec), alive s 2 = true → s.queueFull 7 = false →
    s.ldg.set = some x → x.waiting = false → x.todo = off :: rest → s.ledgerRec off = some r → r.freed = false →
    Ends (exec .ledgerReplayPush s) fun t =>
      (t.queue 7).items.map (·.words) = (s.queue 7).items.map (·.words) ++ [feedItem off r.pending] ∧
      t.ledgerRec off = some { r with replayed := true } ∧
      t.ldg.set = (if rest = [] then none else some { x with todo := rest }) ∧
      (rest = [] → t.regBit R.LDG_EVT_STATUS 1 = true) ∧ SameBut (.ldg :: eventParts) s t ∧
      RegsBut [R.QP_STATUS 7, R.QP_PEAK 7] s t) ∧
  (∀ (s u w : State) (ws : List Word) (off : Nat), alive s 2 = true → alive s 3 = true → s.take? 7 = some (ws, u) →
    w = u.evalQueue 7 → off = feedOff ws →
    Leaves (exec .replayFeedTake s) fun t =>
      match w.ledgerRec off with
      | none => t = w
      | some r => if r.freed then t = w else
          ∃ adjust, t = (State.takeFrame (w.replayRing off r) ⟨58, r.bus, r.bytes, r.bytes.length, some r.stream,
            .replay off, r.launch.isSome, r.launch.getD 0, none, []⟩ adjust).2)

/-! ### Power, wake, reset (R531-R557) -/

/-- DOMAIN_GATE, DOMAIN_WAKE, POWER_GOOD_TIMEOUT, PWR_BLK_RST, BLOCK_RESET_DONE, PWR_CORE_RST: a domain newly named is gated and no
other (R532, R533), and one no longer named is powered, in reset until it leaves it (R532); a domain without power-good is
gated with a fault, and at the third in a row the module is in SLEEP (R531, R553); a named domain takes a BLOCK reset and
leaves it when it is done (R542, R543).
The model's choices in it: assumptions 116, 46. -/
def Obligations.PowerDomains : Prop :=
  (∀ (s : State) (m : Master) (d : Nat) (l : Loc),
    Writable s m R.PWR_PD_REQ (s.reg R.PWR_PD_REQ ||| word (2 ^ d)).toNat l → gateable d = true → d ≠ 9 →
    bitOf (s.reg R.PWR_PD_REQ) d = false → powered s d = true → (∀ p ∈ ethPortsOf d, kvGet? s.swc.rx p = none) →
    Leaves (exec (.domainGate m (2 ^ d)) s) fun t =>
      powered t d = false ∧ inReset t d = false ∧ (∀ k, k ≠ d → powered t k = powered s k ∧ inReset t k = inReset s k) ∧
      bitOf (t.reg R.PWR_PD_REQ) d = true) ∧
  (∀ (s : State) (m : Master) (d : Nat) (l : Loc),
    Writable s m R.PWR_PD_REQ (s.reg R.PWR_PD_REQ &&& ~~~ word (2 ^ d)).toNat l → d < 16 → 1 ≤ d →
    bitOf (s.reg R.PWR_PD_REQ) d = true → powered s d = false →
    Leaves (exec (.domainWake m (2 ^ d)) s) fun t =>
      powered t d = true ∧ inReset t d = true ∧ (∀ k, k ≠ d → powered t k = powered s k ∧ inReset t k = inReset s k) ∧
      bitOf (t.reg R.PWR_PD_REQ) d = false ∧ SameBut (.pwr :: logParts) s t ∧
      RegsBut [R.PWR_PD_REQ, R.PWR_PD_STATUS] s t) ∧
  (∀ (s : State) (d : Nat), gateable d = true → d ≠ 9 → powered s d = true → s.runs = true → s.pwr.seqFails < 2 →
    (∀ p ∈ ethPortsOf d, kvGet? s.swc.rx p = none) → Mild s 1 3 →
    Ends (exec (.powerGoodTimeout d) s) fun t =>
      powered t d = false ∧ t.pwr.seqFails = s.pwr.seqFails + 1 ∧ t.regBit (fltReg 1 0) 3 = true ∧
      t.pwr.mode = s.pwr.mode) ∧
  (∀ (s : State) (d : Nat), 1 ≤ d → d ≤ 15 → powered s d = true → s.runs = true → s.pwr.seqFails = 2 →
    Ends (exec (.powerGoodTimeout d) s) fun t =>
      t.pwr.mode = .sleep ∧ t.reg R.PWR_PD_STATUS = 1 ∧ t.pwr.seqFails = 0 ∧ t.pwr.chip = none ∧
      t.regFld R.PWR_RST_CAUSE 3 0 = 8 ∧ t.regFld R.PWR_RST_CAUSE 15 8 = 1 ∧ t.regFld R.PWR_RST_CAUSE 20 16 = 3) ∧
  (∀ (s : State) (m : Master) (l : Loc), Writable s m R.PWR_BLK_RST (2 ^ 5) l → powered s 5 = true →
    Leaves (exec (.pwrBlkRst m (2 ^ 5)) s) fun t =>
      inReset t 5 = true ∧ (∀ k, k ≠ 5 → inReset t k = inReset s k) ∧ t.cip = s.cip.lose ∧
      (∀ a l', regAt a = some l' → l'.row.keeps = .b → l'.lossDomain = 5 → signalReg a = false →
        t.reg a = resetVal a)) ∧
  (∀ (s : State) (d : Nat), 5 ≤ d → d ≤ 8 → powered s d = true → inReset s d = true → s.pwr.resetPin = false →
    Leaves (exec (.blockResetDone d) s) fun t =>
      inReset t d = false ∧ (∀ k, k ≠ d → inReset t k = inReset s k) ∧ SameBut (.pwr :: eventParts) s t ∧
      RegsBut [] s t) ∧
  (∀ (s : State) (m : Master) (v : Nat) (l : Loc), Writable s m R.PWR_CORE_RST v l →
    Leaves (exec (.pwrCoreRst m v) s) fun t => SameBut logParts s t ∧ RegsBut [] s t)

/-- STANDBY_REQUEST, SLEEP_REQUEST, AUTO_SLEEP, STANDBY_TIMEOUT, TC10_SLEEP_ACK, TC10_ACK_TIMEOUT: with no TC10 partner the module is in
the named state at once, with PD0 alone powered, DRAM kept in STANDBY alone (R535-R537, R554); with partners it is entering,
and ALIVE_OUT has stopped with cause 8, until each has answered or their time has passed (R537); STANDBY that lasts too
long becomes SLEEP (R535).

WAKE_SOURCE, KEY_IN_CHANGE, WAKE_FWD_CAN_FRAME: an enabled source that the supply admits is latched and starts the exit, with its
cause and kind (R538, R542); one that it does not is counted and changes nothing else (R540); one during entry is latched
(R553); KEY_IN shows its level and raises its event (R556); the wake frame of a channel leaves when its guard passes it
(R541).
The model's choices in it: assumptions 110, 111, 112, 113, 114. -/
def Obligations.StandbySleepAndWakes : Prop :=
  (∀ (s : State) (m : Master) (l : Loc), Writable s m R.PWR_STATE_REQ 0x80000003 l → s.runs = true → s.pwr.chip = none →
    (∀ i < 20, s.regBit R.PWR_TC10_EN i = false) →
    Leaves (exec (.standbyRequest m) s) fun t =>
      t.pwr.mode = .standby ∧ t.reg R.PWR_PD_STATUS = 1 ∧ t.toggling = false ∧
      (∀ a, 0x800000000 ≤ a → a < 0xA00000000 → memGet t.mem a = memGet s.mem a) ∧
      (∀ a, 0x08000000 ≤ a → a < 0x08200000 → memGet t.mem a = 0)) ∧
  (∀ (s : State) (m : Master) (l : Loc), Writable s m R.PWR_STATE_REQ 0x80000004 l → s.runs = true → s.pwr.chip = none →
    (∀ i < 20, s.regBit R.PWR_TC10_EN i = false) →
    Leaves (exec (.sleepRequest m) s) fun t =>
      t.pwr.mode = .sleep ∧ t.reg R.PWR_PD_STATUS = 1 ∧ t.toggling = false ∧
      (∀ a, 0x800000000 ≤ a → a < 0xA00000000 → memGet t.mem a = 0)) ∧
  (∀ (s : State) (m : Master) (l : Loc) (i : Nat), Writable s m R.PWR_STATE_REQ 0x80000003 l → s.runs = true →
    s.pwr.chip = none → i < 20 → s.regBit R.PWR_TC10_EN i = true → s.toggling = true →
    Leaves (exec (.standbyRequest m) s) fun t =>
      t.pwr.mode = .entering ∧ t.pwr.target = .standby ∧ i ∈ t.pwr.tc10 ∧ t.regFld R.PWR_STATUS 2 0 = 5 ∧
      t.toggling = false ∧ t.stopCause = 8) ∧
  (∀ (s : State) (t0 : Nat), s.pwr.keyLowAt = some t0 → s.runs = true → s.regFld R.PWR_CFG 15 8 ≠ 0 →
    t0 + s.regFld R.PWR_CFG 15 8 * 60 * giga ≤ s.now → s.pwr.chip = none → s.regBit R.PWR_STATUS 5 = false →
    (∀ i < 20, s.regBit R.PWR_TC10_EN i = false) →
    Ends (exec .autoSleep s) fun t => t.pwr.mode = .sleep ∧ t.reg R.PWR_PD_STATUS = 1 ∧ t.toggling = false) ∧
  (∀ s : State, s.pwr.mode = .standby → s.regFld R.PWR_CFG 31 16 ≠ 0 →
    s.pwr.entryAt + s.regFld R.PWR_CFG 31 16 * 60 * giga ≤ s.now → s.pwr.chip = none → s.regBit R.PWR_STATUS 5 = false →
    Ends (exec .standbyTimeout s) fun t =>
      t.pwr = { s.pwr with mode := .sleep, entryAt := s.now } ∧
      (∀ a, 0x800000000 ≤ a → a < 0xA00000000 → memGet t.mem a = 0)) ∧
  (∀ (s : State) (n k : Nat), s.pwr.mode = .entering → 4 ≤ n → n - 4 ∈ s.pwr.tc10 → k ≠ n - 4 → k ∈ s.pwr.tc10 →
    Ends (exec (.tc10SleepAck n) s) fun t =>
      t.pwr = { s.pwr with tc10 := s.pwr.tc10.filter (· != n - 4) } ∧ SameBut [.pwr] s t) ∧
  (∀ (s : State) (n : Nat), s.pwr.mode = .entering → 4 ≤ n → s.pwr.tc10 = [n - 4] → s.pwr.chip = none →
    s.pwr.entryWake = false →
    Ends (exec (.tc10SleepAck n) s) fun t => t.pwr.mode = s.pwr.target ∧ t.reg R.PWR_PD_STATUS = 1) ∧
  (∀ s : State, s.pwr.mode = .entering → s.pwr.tc10 ≠ [] → s.pwr.chip = none → s.pwr.entryWake = false →
    s.pwr.entryAt + s.regFld R.PWR_CFG 7 0 * 1000000 ≤ s.now →
    Ends (exec .tc10AckTimeout s) fun t => t.pwr.mode = s.pwr.target ∧ t.reg R.PWR_PD_STATUS = 1 ∧ t.pwr.tc10 = []) ∧
  (∀ (s : State) (k mv : Nat), k < 16 → s.wakeEnabled k = true → s.pwr.mode = .standby ∨ s.pwr.mode = .sleep →
    s.regBit R.PWR_STATUS 5 = false → s.pwr.chip = none → s.cip.causes = [] → RoomFor s 1 →
    Leaves (exec (.wakeSource k true mv) s) fun t =>
      t.pwr.mode = .run ∧ t.regBit R.PWR_WAKE_SRC k = true ∧ t.reg R.PWR_PD_STATUS = 0xFFFF ∧
      t.regFld R.PWR_RST_CAUSE 3 0 = (if s.pwr.mode = .sleep then 2 else 3) ∧
      t.regFld R.PWR_RST_CAUSE 7 4 = (if s.pwr.mode = .sleep then 5 else 4) ∧ t.regBit R.PWR_STATUS 3 = true) ∧
  (∀ (s : State) (k mv : Nat), k < 16 → k ≠ 4 → s.wakeEnabled k = true → s.pwr.mode = .standby ∨ s.pwr.mode = .sleep →
    s.regBit R.PWR_STATUS 5 = false → s.pwr.chip = none → mv < s.regFld R.PWR_BATT_THR 31 16 →
    Ends (exec (.wakeSource k false mv) s) fun t =>
      t.ctr 1 1 6 = min (s.ctr 1 1 6 + 1) 0xFFFFFFFF ∧ SameBut [.sys] s t) ∧
  (∀ (s : State) (k mv : Nat), k < 16 → s.wakeEnabled k = true → s.pwr.mode = .entering →
    Ends (exec (.wakeSource k true mv) s) fun t =>
      t.regBit R.PWR_WAKE_SRC k = true ∧ t.pwr = { s.pwr with entryWake := true } ∧ SameBut [.regs, .pwr] s t ∧
      RegsBut [R.PWR_WAKE_SRC] s t) ∧
  (∀ (s : State) (high : Bool), s.pwr.mode ≠ .off → s.regBit R.PWR_STATUS 6 ≠ high →
    Ends (exec (.keyInChange high) s) fun t =>
      t.regBit R.PWR_STATUS 6 = high ∧ t.pwr = { s.pwr with keyLowAt := if high then none else some s.now } ∧
      t.regBit R.PWR_EVT_STATUS (if high then 0 else 1) = true ∧ SameBut (.pwr :: eventParts) s t ∧
      RegsBut [R.PWR_STATUS] s t) ∧
  (∀ (s : State) (n : Nat) (line : Bytes), n < 24 → s.regBit R.GRD_STATUS 0 = true → s.toggling = true → s.pwr.fwd = [n] →
    s.canOn n = true → s.lineBusy (64 + n) = false →
    line = mkBus (idWord (s.regFld R.PWR_WAKE_ID 28 0) (s.regBit R.PWR_WAKE_ID 29) false) 0 0 0 0 0 0xFF 0 0 [] →
    s.guardCause (64 + n) ⟨59, 0, line, 0⟩ = none →
    Ends (exec .wakeFwdCanFrame s) fun t =>
      t.pwr = { s.pwr with fwd := [] } ∧ .frame (64 + n) line true ∈ t.out ∧ t.regBit R.PWR_EVT_STATUS 5 = true)

/-- PWR_CHIP_RST, RESET_N, CHIP_RESET, COLD_POWER_ON: a request or RESET_N decides the chip reset with its cause, and ALIVE_OUT is low
from that instant (R545, R546); it takes effect with every domain powered, the cause recorded, nothing decided any more, DRAM
kept and scratch memory lost (R11, R26, R542, R554); power that comes up in OFF starts the module with cause 1 (R535, R548).

POWER_FAIL_WARNING, POWER_FAIL_RECOVERED, OUTPUT_LOST: the warning stops ALIVE_OUT and gates every domain but PD0 and PD2 (R549,
R550); recovered power decides a chip reset with cause 7 (R552); output lost after the warning leaves the module OFF, with
nothing powered and DRAM and scratch memory lost (R535, R551, R554).
The model's choices in it: assumptions 112, 114, 115, 117. -/
def Obligations.ResetsAndPowerFail : Prop :=
  (∀ (s : State) (m : Master) (v : Nat) (l : Loc), Writable s m R.PWR_CHIP_RST v l → s.pwr.chip = none →
    Leaves (exec (.pwrChipRst m v) s) fun t =>
      t.pwr = { s.pwr with chip := some ⟨6, 0, 0⟩ } ∧ t.toggling = false ∧ SameBut (.pwr :: .alv :: logParts) s t ∧
      RegsBut [R.ALV_STATUS] s t) ∧
  (∀ (s : State) (mains : Bool) (mv : Nat), s.runs = true → s.pwr.resetPin = false → s.pwr.chip = none →
    Ends (exec (.resetN true mains mv) s) fun t =>
      t.pwr = { s.pwr with resetPin := true, chip := some ⟨4, 0, 0⟩ } ∧ t.toggling = false ∧
      SameBut [.pwr, .alv, .regs, .out] s t ∧ RegsBut [R.ALV_STATUS] s t) ∧
  (∀ (s : State) (mains : Bool) (mv : Nat), s.pwr.mode ≠ .off → s.pwr.resetPin = true → s.pwr.chip = none →
    Ends (exec (.resetN false mains mv) s) fun t =>
      t.pwr = { s.pwr with resetPin := false, inReset := [] } ∧ SameBut [.pwr] s t) ∧
  (∀ (s : State) (c : ChipReset), s.pwr.chip = some c → s.regBit R.PWR_STATUS 5 = false → s.pwr.mode ≠ .off →
    s.regBit R.PWR_STATUS 3 = true → s.cip.causes = [] → RoomFor s 1 →
    Leaves (exec .chipReset s) fun t =>
      t.pwr.mode = .run ∧ t.pwr.chip = none ∧ t.reg R.PWR_PD_STATUS = 0xFFFF ∧ t.toggling = false ∧
      t.reg R.PWR_RST_CAUSE = word (c.cause + 48 + 256 * c.window + 65536 * c.source) ∧ t.cip.slots = [] ∧
      t.swc.frames = [] ∧ t.upd.booted = false ∧
      (∀ a, 0x800000000 ≤ a → a < 0xA00000000 → memGet t.mem a = memGet s.mem a) ∧
      (∀ a, 0x08000000 ≤ a → a < 0x08200000 → memGet t.mem a = 0)) ∧
  (∀ (s : State) (v : Nat), s.pwr.mode = .off → v < 2 → s.cip.causes = [] →
    Leaves (exec (.coldPowerOn v) s) fun t =>
      t.pwr.mode = .run ∧ t.reg R.PWR_PD_STATUS = 0xFFFF ∧ t.reg R.PWR_RST_CAUSE = 97 ∧ t.regBit R.TIM_TB3_STATUS 0 = true ∧
      t.regBit R.PWR_STATUS 3 = true) ∧
  (∀ (s : State) (b : Bool), s.runs = true → s.regBit R.PWR_STATUS 5 = false →
    Ends (exec (.powerFailWarning b) s) fun t =>
      t.regBit R.PWR_STATUS 5 = true ∧ t.regBit R.PWR_STATUS 3 = false ∧ t.regBit R.PWR_STATUS 4 = b ∧
      t.toggling = false ∧ (∀ d, d < 16 → d ≠ 0 → d ≠ 2 → powered t d = false) ∧ powered t 2 = powered s 2 ∧
      t.pwr.pfwAt = some s.now) ∧
  (∀ s : State, s.pwr.mode ≠ .off → s.regBit R.PWR_STATUS 5 = true →
    Ends (exec .powerFailRecovered s) fun t =>
      t.regBit R.PWR_STATUS 5 = false ∧ t.regBit R.PWR_STATUS 3 = true ∧ t.regBit R.PWR_STATUS 4 = true ∧
      t.pwr = { s.pwr with chip := some ⟨7, 0, 0⟩ } ∧ t.regBit R.PWR_EVT_STATUS 3 = true ∧
      SameBut (.pwr :: .alv :: eventParts) s t ∧ RegsBut [R.PWR_STATUS, R.ALV_STATUS] s t) ∧
  (∀ s : State, s.regBit R.PWR_STATUS 5 = true →
    Ends (exec .outputLost s) fun t =>
      t.pwr.mode = .off ∧ t.reg R.PWR_PD_STATUS = 0 ∧ t.pwr.chip = none ∧ t.alv = State.reset.alv ∧
      t.ldg = State.reset.ldg ∧ (∀ a, memKept 2 a = false → memGet t.mem a = 0))

/-! ### Rules of one sentence or two, as the spec states them -/

/-- R57: a write of FOX_VSET_PDn is accepted only while the domain's FOX_LOOP_EN bit is 0, and only with a multiple of 10 from 680 to
900; any other is refused, and the register keeps its value. -/
def Obligations.SupplySettingRule : Prop :=
  ∀ (s : State) (m : Master) (n v : Nat) (l : Loc), 1 ≤ n → n ≤ 15 → v < 1024 → Addressed s m (R.FOX_VSET_PD n) l →
    Mild s 2 0 →
    Leaves (exec (.foxVsetWrite m n v) s) fun t =>
      if s.regBit R.FOX_LOOP_EN n = false ∧ v % 10 = 0 ∧ 680 ≤ v ∧ v ≤ 900 then
        t.regFld (R.FOX_VSET_PD n) 9 0 = v ∧ t.reg R.SYS_REJ_CNT = s.reg R.SYS_REJ_CNT
      else
        t.reg (R.FOX_VSET_PD n) = s.reg (R.FOX_VSET_PD n) ∧ t.regBit (fltReg 2 0) 0 = true ∧
          t.reg R.SYS_REJ_CNT = satInc (s.reg R.SYS_REJ_CNT)

/-- R79: a read by a non-secure master of a SEC register, or by a partition without access to the window, returns zero; it sets no
fault source and makes no audit entry. -/
def Obligations.DeniedReadsGiveZero : Prop :=
  ∀ (s : State) (m : Master) (a : Nat) (l : Loc), Reaches s m → a % 4 = 0 → regAt a = some l →
    alive s (domainOf l.win) = true →
    ((l.row.sec = true ∧ secureMaster s m = false) ∨ windowGranted s m l.win = false) →
    Leaves (exec (.rcRead m a 4) s) fun t => t.sys.bus = .data 0 ∧ SameBut [.sys] s t

/-- R536: a state request that names a target other than STANDBY or SLEEP is refused, and so is one made while a previous one is in
progress, or during the power-fail warning. -/
def Obligations.StateRequestRule : Prop :=
  ∀ (s : State) (m : Master) (v : Nat) (l : Loc), Addressed s m R.PWR_STATE_REQ l → bitOf (word v) 31 = true → Mild s 1 0 →
    ((fld (word v) 2 0 ≠ 3 ∧ fld (word v) 2 0 ≠ 4) ∨ s.pwr.mode = .entering ∨ s.regBit R.PWR_STATUS 5 = true) →
    Leaves (exec (.registerWrite m R.PWR_STATE_REQ 4 v) s) fun t =>
      t.pwr = s.pwr ∧ t.regBit (fltReg 1 0) 0 = true ∧ t.reg R.SYS_REJ_CNT = satInc (s.reg R.SYS_REJ_CNT) ∧
      SameBut logParts s t ∧ RegsBut (R.SYS_REJ_CNT :: R.AUD_REJ_SUPPR :: faultRegs 1) s t

end
end

