-- ==== Sys2Proof/Laws/Maps.lean ====
section
/-! SUPPORT. Laws of the finite maps, the register file and the memories: a read after a write, and the one form each
operation keeps. -/

namespace Sys2Proof.Machine

variable {α : Type}

/-! ### Maps -/

theorem kvGet?_kvSet (l : Kv α) (a b : Nat) (v : α) :
    kvGet? (kvSet l a v) b = if b = a then some v else kvGet? l b := by
  induction l with
  | nil => simp [kvSet, kvGet?]
  | cons e l ih =>
    obtain ⟨k, w⟩ := e
    unfold kvSet
    split
    · next h => subst h; by_cases hb : b = a <;> simp [kvGet?, hb]
    · split
      · simp [kvGet?]
      · next h _ =>
        simp only [kvGet?, ih]
        by_cases hb : b = k
        · subst hb; simp [Ne.symm h]
        · simp [hb]

theorem kvGet?_kvDel (l : Kv α) (a b : Nat) : kvGet? (kvDel l a) b = if b = a then none else kvGet? l b := by
  induction l with
  | nil => simp [kvDel, kvGet?]
  | cons e l ih =>
    obtain ⟨k, w⟩ := e
    unfold kvDel
    split
    · next h => subst h; rw [ih]; by_cases hb : b = a <;> simp [kvGet?, hb]
    · next h =>
      simp only [kvGet?, ih]
      by_cases hb : b = k
      · subst hb; simp [Ne.symm h]
      · simp [hb]

@[simp] theorem kvGet_kvSet_self (l : Kv α) (a : Nat) (v d : α) : kvGet (kvSet l a v) a d = v := by
  simp [kvGet, kvGet?_kvSet]

theorem kvGet_kvSet_ne (l : Kv α) {a b : Nat} (v d : α) (h : b ≠ a) : kvGet (kvSet l a v) b d = kvGet l b d := by
  simp [kvGet, kvGet?_kvSet, h]

theorem kvGet_kvSet (l : Kv α) (a b : Nat) (v d : α) :
    kvGet (kvSet l a v) b d = if b = a then v else kvGet l b d := by
  by_cases h : b = a
  · subst h; simp
  · simp [h, kvGet_kvSet_ne l v d h]

theorem kvGet_kvDel (l : Kv α) (a b : Nat) (d : α) : kvGet (kvDel l a) b d = if b = a then d else kvGet l b d := by
  by_cases h : b = a <;> simp [kvGet, kvGet?_kvDel, h]

/-! ### The one form of a map -/

/-- A key below every key of a map. -/
def Below (a : Nat) (l : Kv α) : Prop := ∀ e ∈ l, a < e.1

theorem kvSorted_cons (e : Nat × α) (l : Kv α) : kvSorted (e :: l) = true ↔ Below e.1 l ∧ kvSorted l = true := by
  induction l generalizing e with
  | nil => simp [kvSorted, Below]
  | cons f l ih =>
    obtain ⟨k, x⟩ := e
    obtain ⟨j, y⟩ := f
    simp only [kvSorted, Bool.and_eq_true, decide_eq_true_eq, ih, Below, List.mem_cons, forall_eq_or_imp]
    constructor
    · rintro ⟨h, hb, hs⟩
      exact ⟨⟨h, fun e he => Nat.lt_trans h (hb e he)⟩, hb, hs⟩
    · rintro ⟨⟨h, _⟩, hb, hs⟩
      exact ⟨h, hb, hs⟩

theorem below_kvSet {l : Kv α} {b a : Nat} (v : α) (h : Below b l) (hb : b < a) : Below b (kvSet l a v) := by
  induction l with
  | nil => simpa [kvSet, Below] using hb
  | cons e l ih =>
    obtain ⟨k, w⟩ := e
    simp only [Below, List.mem_cons, forall_eq_or_imp] at h ih
    unfold kvSet
    split
    · next => simp only [Below, List.mem_cons, forall_eq_or_imp]; exact ⟨hb, h.2⟩
    · split
      · simp only [Below, List.mem_cons, forall_eq_or_imp]; exact ⟨hb, h.1, h.2⟩
      · simp only [Below, List.mem_cons, forall_eq_or_imp]; exact ⟨h.1, ih h.2⟩

theorem kvSorted_kvSet {l : Kv α} (a : Nat) (v : α) (h : kvSorted l = true) : kvSorted (kvSet l a v) = true := by
  induction l with
  | nil => simp [kvSet, kvSorted]
  | cons e l ih =>
    obtain ⟨k, w⟩ := e
    have h' := (kvSorted_cons _ _).1 h
    unfold kvSet
    split
    · next hk => subst hk; exact (kvSorted_cons _ _).2 h'
    · split
      · next hk => exact (kvSorted_cons _ _).2 ⟨by
          simp only [Below, List.mem_cons, forall_eq_or_imp]
          exact ⟨hk, fun e he => Nat.lt_trans hk (h'.1 e he)⟩, h⟩
      · next hne hk => exact (kvSorted_cons _ _).2 ⟨below_kvSet v h'.1 (by simp only at *; omega), ih h'.2⟩

theorem mem_kvDel {l : Kv α} {a : Nat} {e : Nat × α} (h : e ∈ kvDel l a) : e ∈ l := by
  induction l with
  | nil => simp [kvDel] at h
  | cons f l ih =>
    obtain ⟨k, w⟩ := f
    unfold kvDel at h
    split at h
    · exact List.mem_cons_of_mem _ (ih h)
    · rcases List.mem_cons.1 h with h | h
      · exact h ▸ List.mem_cons_self
      · exact List.mem_cons_of_mem _ (ih h)

theorem kvSorted_kvDel {l : Kv α} (a : Nat) (h : kvSorted l = true) : kvSorted (kvDel l a) = true := by
  induction l with
  | nil => simp [kvDel, kvSorted]
  | cons e l ih =>
    obtain ⟨k, w⟩ := e
    have h' := (kvSorted_cons _ _).1 h
    unfold kvDel
    split
    · exact ih h'.2
    · exact (kvSorted_cons _ _).2 ⟨fun e he => h'.1 e (mem_kvDel he), ih h'.2⟩

theorem mem_kvSet {l : Kv α} {a : Nat} {v : α} {e : Nat × α} (h : e ∈ kvSet l a v) : e = (a, v) ∨ e ∈ l := by
  induction l with
  | nil => simpa [kvSet] using h
  | cons f l ih =>
    obtain ⟨k, w⟩ := f
    unfold kvSet at h
    split at h
    · rcases List.mem_cons.1 h with h | h
      · exact .inl h
      · exact .inr (List.mem_cons_of_mem _ h)
    · split at h
      · rcases List.mem_cons.1 h with h | h
        · exact .inl h
        · exact .inr h
      · rcases List.mem_cons.1 h with h | h
        · exact .inr (h ▸ List.mem_cons_self)
        · rcases ih h with h | h
          · exact .inl h
          · exact .inr (List.mem_cons_of_mem _ h)

/-! ### Registers -/

theorem reg_setReg (s : State) (a b : Nat) (v : Word) : (s.setReg a v).reg b = if b = a then v else s.reg b := by
  unfold State.setReg State.reg regsPut
  split
  · next h => by_cases hb : b = a <;> simp [kvGet_kvDel, hb, ← h]
  · by_cases hb : b = a
    · subst hb; simp
    · simp [kvGet_kvSet_ne _ _ _ hb, hb]

@[simp] theorem reg_setReg_self (s : State) (a : Nat) (v : Word) : (s.setReg a v).reg a = v := by simp [reg_setReg]

theorem reg_setReg_ne (s : State) {a b : Nat} (v : Word) (h : b ≠ a) : (s.setReg a v).reg b = s.reg b := by
  simp [reg_setReg, h]

/-! ### Memories -/

theorem memGet_memPut (l : List Host.Cell) (a b : Nat) (v : Byte) :
    memGet (memPut l a v) b = if b = a then v else memGet l b := by
  unfold memGet memPut
  split
  · next h => by_cases hb : b = a <;> simp [kvGet_kvDel, hb, h]
  · by_cases hb : b = a
    · subst hb; simp
    · simp [kvGet_kvSet_ne _ _ _ hb, hb]

/-- Storing a byte keeps the one form of a memory. -/
theorem memWf_memPut {l : List Host.Cell} (a : Nat) (v : Byte) (h : memWf l = true) : memWf (memPut l a v) = true := by
  simp only [memWf, Bool.and_eq_true, List.all_eq_true, decide_eq_true_eq] at h ⊢
  unfold memPut
  split
  · exact ⟨kvSorted_kvDel a h.1, fun e he => h.2 e (mem_kvDel he)⟩
  · next hv =>
    refine ⟨kvSorted_kvSet a v h.1, fun e he => ?_⟩
    rcases mem_kvSet he with rfl | he
    · exact hv
    · exact h.2 e he

/-- Storing a byte string keeps the one form of a memory. -/
theorem memWf_memWrite {l : List Host.Cell} (a : Nat) (bs : Bytes) (h : memWf l = true) :
    memWf (memWrite l a bs) = true := by
  induction bs generalizing l a with
  | nil => exact h
  | cons b bs ih => exact ih _ (memWf_memPut a b h)

/-- A byte of a memory after a byte string was stored: the string's byte inside, the old byte outside. -/
theorem memGet_memWrite (l : List Host.Cell) (a : Nat) (bs : Bytes) (b : Nat) :
    memGet (memWrite l a bs) b = if a ≤ b ∧ b < a + bs.length then bs.getD (b - a) 0 else memGet l b := by
  induction bs generalizing l a with
  | nil =>
    have h : ¬ (a ≤ b ∧ b < a + ([] : Bytes).length) := by simp
    rw [if_neg h]; rfl
  | cons x bs ih =>
    simp only [memWrite, ih, memGet_memPut, List.length_cons]
    by_cases hb : b = a
    · subst hb
      have h : ¬ (b + 1 ≤ b ∧ b < b + 1 + bs.length) := by omega
      have h1 : b ≤ b ∧ b < b + (bs.length + 1) := by omega
      rw [if_neg h, if_pos rfl, if_pos h1, Nat.sub_self]
      rfl
    · by_cases hin : a + 1 ≤ b ∧ b < a + 1 + bs.length
      · have h1 : a ≤ b ∧ b < a + (bs.length + 1) := by omega
        have h2 : b - a = (b - (a + 1)) + 1 := by omega
        rw [if_pos hin, if_pos h1, h2]
        rfl
      · have h1 : ¬ (a ≤ b ∧ b < a + (bs.length + 1)) := by omega
        rw [if_neg hin, if_neg h1, if_neg hb]

end Sys2Proof.Machine
end

