-- ==== Sys2Proof/Laws/State.lean ====
section
/-! SUPPORT. What each update of State writes, and that it leaves every other field as it was: one lemma per field per
update. -/

namespace Sys2Proof.Machine

variable (s : State)

/-! ### setReg -/

@[simp] theorem State.setReg_mem (a : Nat) (v : Word) : (s.setReg a v).mem = s.mem := rfl
@[simp] theorem State.setReg_hostMem (a : Nat) (v : Word) : (s.setReg a v).hostMem = s.hostMem := rfl
@[simp] theorem State.setReg_sys (a : Nat) (v : Word) : (s.setReg a v).sys = s.sys := rfl
@[simp] theorem State.setReg_fox (a : Nat) (v : Word) : (s.setReg a v).fox = s.fox := rfl
@[simp] theorem State.setReg_aud (a : Nat) (v : Word) : (s.setReg a v).aud = s.aud := rfl
@[simp] theorem State.setReg_qs (a : Nat) (v : Word) : (s.setReg a v).qs = s.qs := rfl
@[simp] theorem State.setReg_swc (a : Nat) (v : Word) : (s.setReg a v).swc = s.swc := rfl
@[simp] theorem State.setReg_tbl (a : Nat) (v : Word) : (s.setReg a v).tbl = s.tbl := rfl
@[simp] theorem State.setReg_tim (a : Nat) (v : Word) : (s.setReg a v).tim = s.tim := rfl
@[simp] theorem State.setReg_grd (a : Nat) (v : Word) : (s.setReg a v).grd = s.grd := rfl
@[simp] theorem State.setReg_alv (a : Nat) (v : Word) : (s.setReg a v).alv = s.alv := rfl
@[simp] theorem State.setReg_pwr (a : Nat) (v : Word) : (s.setReg a v).pwr = s.pwr := rfl
@[simp] theorem State.setReg_hbr (a : Nat) (v : Word) : (s.setReg a v).hbr = s.hbr := rfl
@[simp] theorem State.setReg_rng (a : Nat) (v : Word) : (s.setReg a v).rng = s.rng := rfl
@[simp] theorem State.setReg_sig (a : Nat) (v : Word) : (s.setReg a v).sig = s.sig := rfl
@[simp] theorem State.setReg_ldg (a : Nat) (v : Word) : (s.setReg a v).ldg = s.ldg := rfl
@[simp] theorem State.setReg_cip (a : Nat) (v : Word) : (s.setReg a v).cip = s.cip := rfl
@[simp] theorem State.setReg_key (a : Nat) (v : Word) : (s.setReg a v).key = s.key := rfl
@[simp] theorem State.setReg_bus (a : Nat) (v : Word) : (s.setReg a v).bus = s.bus := rfl
@[simp] theorem State.setReg_ple (a : Nat) (v : Word) : (s.setReg a v).ple = s.ple := rfl
@[simp] theorem State.setReg_upd (a : Nat) (v : Word) : (s.setReg a v).upd = s.upd := rfl
@[simp] theorem State.setReg_aqn (a : Nat) (v : Word) : (s.setReg a v).aqn = s.aqn := rfl
@[simp] theorem State.setReg_out (a : Nat) (v : Word) : (s.setReg a v).out = s.out := rfl
@[simp] theorem State.setReg_freeCtr (a : Nat) (v : Word) : (s.setReg a v).freeCtr = s.freeCtr := rfl
@[simp] theorem State.setReg_pending (a : Nat) (v : Word) : (s.setReg a v).pending = s.pending := rfl

/-! ### modReg -/

@[simp] theorem State.modReg_mem (a : Nat) (f : Word → Word) : (s.modReg a f).mem = s.mem := rfl
@[simp] theorem State.modReg_hostMem (a : Nat) (f : Word → Word) : (s.modReg a f).hostMem = s.hostMem := rfl
@[simp] theorem State.modReg_sys (a : Nat) (f : Word → Word) : (s.modReg a f).sys = s.sys := rfl
@[simp] theorem State.modReg_fox (a : Nat) (f : Word → Word) : (s.modReg a f).fox = s.fox := rfl
@[simp] theorem State.modReg_aud (a : Nat) (f : Word → Word) : (s.modReg a f).aud = s.aud := rfl
@[simp] theorem State.modReg_qs (a : Nat) (f : Word → Word) : (s.modReg a f).qs = s.qs := rfl
@[simp] theorem State.modReg_swc (a : Nat) (f : Word → Word) : (s.modReg a f).swc = s.swc := rfl
@[simp] theorem State.modReg_tbl (a : Nat) (f : Word → Word) : (s.modReg a f).tbl = s.tbl := rfl
@[simp] theorem State.modReg_tim (a : Nat) (f : Word → Word) : (s.modReg a f).tim = s.tim := rfl
@[simp] theorem State.modReg_grd (a : Nat) (f : Word → Word) : (s.modReg a f).grd = s.grd := rfl
@[simp] theorem State.modReg_alv (a : Nat) (f : Word → Word) : (s.modReg a f).alv = s.alv := rfl
@[simp] theorem State.modReg_pwr (a : Nat) (f : Word → Word) : (s.modReg a f).pwr = s.pwr := rfl
@[simp] theorem State.modReg_hbr (a : Nat) (f : Word → Word) : (s.modReg a f).hbr = s.hbr := rfl
@[simp] theorem State.modReg_rng (a : Nat) (f : Word → Word) : (s.modReg a f).rng = s.rng := rfl
@[simp] theorem State.modReg_sig (a : Nat) (f : Word → Word) : (s.modReg a f).sig = s.sig := rfl
@[simp] theorem State.modReg_ldg (a : Nat) (f : Word → Word) : (s.modReg a f).ldg = s.ldg := rfl
@[simp] theorem State.modReg_cip (a : Nat) (f : Word → Word) : (s.modReg a f).cip = s.cip := rfl
@[simp] theorem State.modReg_key (a : Nat) (f : Word → Word) : (s.modReg a f).key = s.key := rfl
@[simp] theorem State.modReg_bus (a : Nat) (f : Word → Word) : (s.modReg a f).bus = s.bus := rfl
@[simp] theorem State.modReg_ple (a : Nat) (f : Word → Word) : (s.modReg a f).ple = s.ple := rfl
@[simp] theorem State.modReg_upd (a : Nat) (f : Word → Word) : (s.modReg a f).upd = s.upd := rfl
@[simp] theorem State.modReg_aqn (a : Nat) (f : Word → Word) : (s.modReg a f).aqn = s.aqn := rfl
@[simp] theorem State.modReg_out (a : Nat) (f : Word → Word) : (s.modReg a f).out = s.out := rfl
@[simp] theorem State.modReg_freeCtr (a : Nat) (f : Word → Word) : (s.modReg a f).freeCtr = s.freeCtr := rfl
@[simp] theorem State.modReg_pending (a : Nat) (f : Word → Word) : (s.modReg a f).pending = s.pending := rfl

/-! ### setFld -/

@[simp] theorem State.setFld_mem (a hi lo v : Nat) : (s.setFld a hi lo v).mem = s.mem := rfl
@[simp] theorem State.setFld_hostMem (a hi lo v : Nat) : (s.setFld a hi lo v).hostMem = s.hostMem := rfl
@[simp] theorem State.setFld_sys (a hi lo v : Nat) : (s.setFld a hi lo v).sys = s.sys := rfl
@[simp] theorem State.setFld_fox (a hi lo v : Nat) : (s.setFld a hi lo v).fox = s.fox := rfl
@[simp] theorem State.setFld_aud (a hi lo v : Nat) : (s.setFld a hi lo v).aud = s.aud := rfl
@[simp] theorem State.setFld_qs (a hi lo v : Nat) : (s.setFld a hi lo v).qs = s.qs := rfl
@[simp] theorem State.setFld_swc (a hi lo v : Nat) : (s.setFld a hi lo v).swc = s.swc := rfl
@[simp] theorem State.setFld_tbl (a hi lo v : Nat) : (s.setFld a hi lo v).tbl = s.tbl := rfl
@[simp] theorem State.setFld_tim (a hi lo v : Nat) : (s.setFld a hi lo v).tim = s.tim := rfl
@[simp] theorem State.setFld_grd (a hi lo v : Nat) : (s.setFld a hi lo v).grd = s.grd := rfl
@[simp] theorem State.setFld_alv (a hi lo v : Nat) : (s.setFld a hi lo v).alv = s.alv := rfl
@[simp] theorem State.setFld_pwr (a hi lo v : Nat) : (s.setFld a hi lo v).pwr = s.pwr := rfl
@[simp] theorem State.setFld_hbr (a hi lo v : Nat) : (s.setFld a hi lo v).hbr = s.hbr := rfl
@[simp] theorem State.setFld_rng (a hi lo v : Nat) : (s.setFld a hi lo v).rng = s.rng := rfl
@[simp] theorem State.setFld_sig (a hi lo v : Nat) : (s.setFld a hi lo v).sig = s.sig := rfl
@[simp] theorem State.setFld_ldg (a hi lo v : Nat) : (s.setFld a hi lo v).ldg = s.ldg := rfl
@[simp] theorem State.setFld_cip (a hi lo v : Nat) : (s.setFld a hi lo v).cip = s.cip := rfl
@[simp] theorem State.setFld_key (a hi lo v : Nat) : (s.setFld a hi lo v).key = s.key := rfl
@[simp] theorem State.setFld_bus (a hi lo v : Nat) : (s.setFld a hi lo v).bus = s.bus := rfl
@[simp] theorem State.setFld_ple (a hi lo v : Nat) : (s.setFld a hi lo v).ple = s.ple := rfl
@[simp] theorem State.setFld_upd (a hi lo v : Nat) : (s.setFld a hi lo v).upd = s.upd := rfl
@[simp] theorem State.setFld_aqn (a hi lo v : Nat) : (s.setFld a hi lo v).aqn = s.aqn := rfl
@[simp] theorem State.setFld_out (a hi lo v : Nat) : (s.setFld a hi lo v).out = s.out := rfl
@[simp] theorem State.setFld_freeCtr (a hi lo v : Nat) : (s.setFld a hi lo v).freeCtr = s.freeCtr := rfl
@[simp] theorem State.setFld_pending (a hi lo v : Nat) : (s.setFld a hi lo v).pending = s.pending := rfl

/-! ### incReg -/

@[simp] theorem State.incReg_mem (a : Nat) : (s.incReg a).mem = s.mem := rfl
@[simp] theorem State.incReg_hostMem (a : Nat) : (s.incReg a).hostMem = s.hostMem := rfl
@[simp] theorem State.incReg_sys (a : Nat) : (s.incReg a).sys = s.sys := rfl
@[simp] theorem State.incReg_fox (a : Nat) : (s.incReg a).fox = s.fox := rfl
@[simp] theorem State.incReg_aud (a : Nat) : (s.incReg a).aud = s.aud := rfl
@[simp] theorem State.incReg_qs (a : Nat) : (s.incReg a).qs = s.qs := rfl
@[simp] theorem State.incReg_swc (a : Nat) : (s.incReg a).swc = s.swc := rfl
@[simp] theorem State.incReg_tbl (a : Nat) : (s.incReg a).tbl = s.tbl := rfl
@[simp] theorem State.incReg_tim (a : Nat) : (s.incReg a).tim = s.tim := rfl
@[simp] theorem State.incReg_grd (a : Nat) : (s.incReg a).grd = s.grd := rfl
@[simp] theorem State.incReg_alv (a : Nat) : (s.incReg a).alv = s.alv := rfl
@[simp] theorem State.incReg_pwr (a : Nat) : (s.incReg a).pwr = s.pwr := rfl
@[simp] theorem State.incReg_hbr (a : Nat) : (s.incReg a).hbr = s.hbr := rfl
@[simp] theorem State.incReg_rng (a : Nat) : (s.incReg a).rng = s.rng := rfl
@[simp] theorem State.incReg_sig (a : Nat) : (s.incReg a).sig = s.sig := rfl
@[simp] theorem State.incReg_ldg (a : Nat) : (s.incReg a).ldg = s.ldg := rfl
@[simp] theorem State.incReg_cip (a : Nat) : (s.incReg a).cip = s.cip := rfl
@[simp] theorem State.incReg_key (a : Nat) : (s.incReg a).key = s.key := rfl
@[simp] theorem State.incReg_bus (a : Nat) : (s.incReg a).bus = s.bus := rfl
@[simp] theorem State.incReg_ple (a : Nat) : (s.incReg a).ple = s.ple := rfl
@[simp] theorem State.incReg_upd (a : Nat) : (s.incReg a).upd = s.upd := rfl
@[simp] theorem State.incReg_aqn (a : Nat) : (s.incReg a).aqn = s.aqn := rfl
@[simp] theorem State.incReg_out (a : Nat) : (s.incReg a).out = s.out := rfl
@[simp] theorem State.incReg_freeCtr (a : Nat) : (s.incReg a).freeCtr = s.freeCtr := rfl
@[simp] theorem State.incReg_pending (a : Nat) : (s.incReg a).pending = s.pending := rfl

/-! ### write -/

@[simp] theorem State.write_regs (a : Nat) (bs : Bytes) : (s.write a bs).regs = s.regs := rfl
@[simp] theorem State.write_hostMem (a : Nat) (bs : Bytes) : (s.write a bs).hostMem = s.hostMem := rfl
@[simp] theorem State.write_sys (a : Nat) (bs : Bytes) : (s.write a bs).sys = s.sys := rfl
@[simp] theorem State.write_fox (a : Nat) (bs : Bytes) : (s.write a bs).fox = s.fox := rfl
@[simp] theorem State.write_aud (a : Nat) (bs : Bytes) : (s.write a bs).aud = s.aud := rfl
@[simp] theorem State.write_qs (a : Nat) (bs : Bytes) : (s.write a bs).qs = s.qs := rfl
@[simp] theorem State.write_swc (a : Nat) (bs : Bytes) : (s.write a bs).swc = s.swc := rfl
@[simp] theorem State.write_tbl (a : Nat) (bs : Bytes) : (s.write a bs).tbl = s.tbl := rfl
@[simp] theorem State.write_tim (a : Nat) (bs : Bytes) : (s.write a bs).tim = s.tim := rfl
@[simp] theorem State.write_grd (a : Nat) (bs : Bytes) : (s.write a bs).grd = s.grd := rfl
@[simp] theorem State.write_alv (a : Nat) (bs : Bytes) : (s.write a bs).alv = s.alv := rfl
@[simp] theorem State.write_pwr (a : Nat) (bs : Bytes) : (s.write a bs).pwr = s.pwr := rfl
@[simp] theorem State.write_hbr (a : Nat) (bs : Bytes) : (s.write a bs).hbr = s.hbr := rfl
@[simp] theorem State.write_rng (a : Nat) (bs : Bytes) : (s.write a bs).rng = s.rng := rfl
@[simp] theorem State.write_sig (a : Nat) (bs : Bytes) : (s.write a bs).sig = s.sig := rfl
@[simp] theorem State.write_ldg (a : Nat) (bs : Bytes) : (s.write a bs).ldg = s.ldg := rfl
@[simp] theorem State.write_cip (a : Nat) (bs : Bytes) : (s.write a bs).cip = s.cip := rfl
@[simp] theorem State.write_key (a : Nat) (bs : Bytes) : (s.write a bs).key = s.key := rfl
@[simp] theorem State.write_bus (a : Nat) (bs : Bytes) : (s.write a bs).bus = s.bus := rfl
@[simp] theorem State.write_ple (a : Nat) (bs : Bytes) : (s.write a bs).ple = s.ple := rfl
@[simp] theorem State.write_upd (a : Nat) (bs : Bytes) : (s.write a bs).upd = s.upd := rfl
@[simp] theorem State.write_aqn (a : Nat) (bs : Bytes) : (s.write a bs).aqn = s.aqn := rfl
@[simp] theorem State.write_out (a : Nat) (bs : Bytes) : (s.write a bs).out = s.out := rfl
@[simp] theorem State.write_freeCtr (a : Nat) (bs : Bytes) : (s.write a bs).freeCtr = s.freeCtr := rfl
@[simp] theorem State.write_pending (a : Nat) (bs : Bytes) : (s.write a bs).pending = s.pending := rfl

/-! ### hostWrite -/

@[simp] theorem State.hostWrite_regs (a : Nat) (bs : Bytes) : (s.hostWrite a bs).regs = s.regs := rfl
@[simp] theorem State.hostWrite_mem (a : Nat) (bs : Bytes) : (s.hostWrite a bs).mem = s.mem := rfl
@[simp] theorem State.hostWrite_sys (a : Nat) (bs : Bytes) : (s.hostWrite a bs).sys = s.sys := rfl
@[simp] theorem State.hostWrite_fox (a : Nat) (bs : Bytes) : (s.hostWrite a bs).fox = s.fox := rfl
@[simp] theorem State.hostWrite_aud (a : Nat) (bs : Bytes) : (s.hostWrite a bs).aud = s.aud := rfl
@[simp] theorem State.hostWrite_qs (a : Nat) (bs : Bytes) : (s.hostWrite a bs).qs = s.qs := rfl
@[simp] theorem State.hostWrite_swc (a : Nat) (bs : Bytes) : (s.hostWrite a bs).swc = s.swc := rfl
@[simp] theorem State.hostWrite_tbl (a : Nat) (bs : Bytes) : (s.hostWrite a bs).tbl = s.tbl := rfl
@[simp] theorem State.hostWrite_tim (a : Nat) (bs : Bytes) : (s.hostWrite a bs).tim = s.tim := rfl
@[simp] theorem State.hostWrite_grd (a : Nat) (bs : Bytes) : (s.hostWrite a bs).grd = s.grd := rfl
@[simp] theorem State.hostWrite_alv (a : Nat) (bs : Bytes) : (s.hostWrite a bs).alv = s.alv := rfl
@[simp] theorem State.hostWrite_pwr (a : Nat) (bs : Bytes) : (s.hostWrite a bs).pwr = s.pwr := rfl
@[simp] theorem State.hostWrite_hbr (a : Nat) (bs : Bytes) : (s.hostWrite a bs).hbr = s.hbr := rfl
@[simp] theorem State.hostWrite_rng (a : Nat) (bs : Bytes) : (s.hostWrite a bs).rng = s.rng := rfl
@[simp] theorem State.hostWrite_sig (a : Nat) (bs : Bytes) : (s.hostWrite a bs).sig = s.sig := rfl
@[simp] theorem State.hostWrite_ldg (a : Nat) (bs : Bytes) : (s.hostWrite a bs).ldg = s.ldg := rfl
@[simp] theorem State.hostWrite_cip (a : Nat) (bs : Bytes) : (s.hostWrite a bs).cip = s.cip := rfl
@[simp] theorem State.hostWrite_key (a : Nat) (bs : Bytes) : (s.hostWrite a bs).key = s.key := rfl
@[simp] theorem State.hostWrite_bus (a : Nat) (bs : Bytes) : (s.hostWrite a bs).bus = s.bus := rfl
@[simp] theorem State.hostWrite_ple (a : Nat) (bs : Bytes) : (s.hostWrite a bs).ple = s.ple := rfl
@[simp] theorem State.hostWrite_upd (a : Nat) (bs : Bytes) : (s.hostWrite a bs).upd = s.upd := rfl
@[simp] theorem State.hostWrite_aqn (a : Nat) (bs : Bytes) : (s.hostWrite a bs).aqn = s.aqn := rfl
@[simp] theorem State.hostWrite_out (a : Nat) (bs : Bytes) : (s.hostWrite a bs).out = s.out := rfl
@[simp] theorem State.hostWrite_freeCtr (a : Nat) (bs : Bytes) : (s.hostWrite a bs).freeCtr = s.freeCtr := rfl
@[simp] theorem State.hostWrite_pending (a : Nat) (bs : Bytes) : (s.hostWrite a bs).pending = s.pending := rfl

/-! ### emit -/

@[simp] theorem State.emit_regs (o : Output) : (s.emit o).regs = s.regs := rfl
@[simp] theorem State.emit_mem (o : Output) : (s.emit o).mem = s.mem := rfl
@[simp] theorem State.emit_hostMem (o : Output) : (s.emit o).hostMem = s.hostMem := rfl
@[simp] theorem State.emit_sys (o : Output) : (s.emit o).sys = s.sys := rfl
@[simp] theorem State.emit_fox (o : Output) : (s.emit o).fox = s.fox := rfl
@[simp] theorem State.emit_aud (o : Output) : (s.emit o).aud = s.aud := rfl
@[simp] theorem State.emit_qs (o : Output) : (s.emit o).qs = s.qs := rfl
@[simp] theorem State.emit_swc (o : Output) : (s.emit o).swc = s.swc := rfl
@[simp] theorem State.emit_tbl (o : Output) : (s.emit o).tbl = s.tbl := rfl
@[simp] theorem State.emit_tim (o : Output) : (s.emit o).tim = s.tim := rfl
@[simp] theorem State.emit_grd (o : Output) : (s.emit o).grd = s.grd := rfl
@[simp] theorem State.emit_alv (o : Output) : (s.emit o).alv = s.alv := rfl
@[simp] theorem State.emit_pwr (o : Output) : (s.emit o).pwr = s.pwr := rfl
@[simp] theorem State.emit_hbr (o : Output) : (s.emit o).hbr = s.hbr := rfl
@[simp] theorem State.emit_rng (o : Output) : (s.emit o).rng = s.rng := rfl
@[simp] theorem State.emit_sig (o : Output) : (s.emit o).sig = s.sig := rfl
@[simp] theorem State.emit_ldg (o : Output) : (s.emit o).ldg = s.ldg := rfl
@[simp] theorem State.emit_cip (o : Output) : (s.emit o).cip = s.cip := rfl
@[simp] theorem State.emit_key (o : Output) : (s.emit o).key = s.key := rfl
@[simp] theorem State.emit_bus (o : Output) : (s.emit o).bus = s.bus := rfl
@[simp] theorem State.emit_ple (o : Output) : (s.emit o).ple = s.ple := rfl
@[simp] theorem State.emit_upd (o : Output) : (s.emit o).upd = s.upd := rfl
@[simp] theorem State.emit_aqn (o : Output) : (s.emit o).aqn = s.aqn := rfl
@[simp] theorem State.emit_freeCtr (o : Output) : (s.emit o).freeCtr = s.freeCtr := rfl
@[simp] theorem State.emit_pending (o : Output) : (s.emit o).pending = s.pending := rfl

/-! ### tickFree -/

@[simp] theorem State.tickFree_regs : (s.tickFree).regs = s.regs := rfl
@[simp] theorem State.tickFree_mem : (s.tickFree).mem = s.mem := rfl
@[simp] theorem State.tickFree_hostMem : (s.tickFree).hostMem = s.hostMem := rfl
@[simp] theorem State.tickFree_sys : (s.tickFree).sys = s.sys := rfl
@[simp] theorem State.tickFree_fox : (s.tickFree).fox = s.fox := rfl
@[simp] theorem State.tickFree_aud : (s.tickFree).aud = s.aud := rfl
@[simp] theorem State.tickFree_qs : (s.tickFree).qs = s.qs := rfl
@[simp] theorem State.tickFree_swc : (s.tickFree).swc = s.swc := rfl
@[simp] theorem State.tickFree_tbl : (s.tickFree).tbl = s.tbl := rfl
@[simp] theorem State.tickFree_tim : (s.tickFree).tim = s.tim := rfl
@[simp] theorem State.tickFree_grd : (s.tickFree).grd = s.grd := rfl
@[simp] theorem State.tickFree_alv : (s.tickFree).alv = s.alv := rfl
@[simp] theorem State.tickFree_pwr : (s.tickFree).pwr = s.pwr := rfl
@[simp] theorem State.tickFree_hbr : (s.tickFree).hbr = s.hbr := rfl
@[simp] theorem State.tickFree_rng : (s.tickFree).rng = s.rng := rfl
@[simp] theorem State.tickFree_sig : (s.tickFree).sig = s.sig := rfl
@[simp] theorem State.tickFree_ldg : (s.tickFree).ldg = s.ldg := rfl
@[simp] theorem State.tickFree_cip : (s.tickFree).cip = s.cip := rfl
@[simp] theorem State.tickFree_key : (s.tickFree).key = s.key := rfl
@[simp] theorem State.tickFree_bus : (s.tickFree).bus = s.bus := rfl
@[simp] theorem State.tickFree_ple : (s.tickFree).ple = s.ple := rfl
@[simp] theorem State.tickFree_upd : (s.tickFree).upd = s.upd := rfl
@[simp] theorem State.tickFree_aqn : (s.tickFree).aqn = s.aqn := rfl
@[simp] theorem State.tickFree_out : (s.tickFree).out = s.out := rfl
@[simp] theorem State.tickFree_pending : (s.tickFree).pending = s.pending := rfl

/-! ### addCtr -/

@[simp] theorem State.addCtr_regs (w k i n : Nat) : (s.addCtr w k i n).regs = s.regs := rfl
@[simp] theorem State.addCtr_mem (w k i n : Nat) : (s.addCtr w k i n).mem = s.mem := rfl
@[simp] theorem State.addCtr_hostMem (w k i n : Nat) : (s.addCtr w k i n).hostMem = s.hostMem := rfl
@[simp] theorem State.addCtr_fox (w k i n : Nat) : (s.addCtr w k i n).fox = s.fox := rfl
@[simp] theorem State.addCtr_aud (w k i n : Nat) : (s.addCtr w k i n).aud = s.aud := rfl
@[simp] theorem State.addCtr_qs (w k i n : Nat) : (s.addCtr w k i n).qs = s.qs := rfl
@[simp] theorem State.addCtr_swc (w k i n : Nat) : (s.addCtr w k i n).swc = s.swc := rfl
@[simp] theorem State.addCtr_tbl (w k i n : Nat) : (s.addCtr w k i n).tbl = s.tbl := rfl
@[simp] theorem State.addCtr_tim (w k i n : Nat) : (s.addCtr w k i n).tim = s.tim := rfl
@[simp] theorem State.addCtr_grd (w k i n : Nat) : (s.addCtr w k i n).grd = s.grd := rfl
@[simp] theorem State.addCtr_alv (w k i n : Nat) : (s.addCtr w k i n).alv = s.alv := rfl
@[simp] theorem State.addCtr_pwr (w k i n : Nat) : (s.addCtr w k i n).pwr = s.pwr := rfl
@[simp] theorem State.addCtr_hbr (w k i n : Nat) : (s.addCtr w k i n).hbr = s.hbr := rfl
@[simp] theorem State.addCtr_rng (w k i n : Nat) : (s.addCtr w k i n).rng = s.rng := rfl
@[simp] theorem State.addCtr_sig (w k i n : Nat) : (s.addCtr w k i n).sig = s.sig := rfl
@[simp] theorem State.addCtr_ldg (w k i n : Nat) : (s.addCtr w k i n).ldg = s.ldg := rfl
@[simp] theorem State.addCtr_cip (w k i n : Nat) : (s.addCtr w k i n).cip = s.cip := rfl
@[simp] theorem State.addCtr_key (w k i n : Nat) : (s.addCtr w k i n).key = s.key := rfl
@[simp] theorem State.addCtr_bus (w k i n : Nat) : (s.addCtr w k i n).bus = s.bus := rfl
@[simp] theorem State.addCtr_ple (w k i n : Nat) : (s.addCtr w k i n).ple = s.ple := rfl
@[simp] theorem State.addCtr_upd (w k i n : Nat) : (s.addCtr w k i n).upd = s.upd := rfl
@[simp] theorem State.addCtr_aqn (w k i n : Nat) : (s.addCtr w k i n).aqn = s.aqn := rfl
@[simp] theorem State.addCtr_out (w k i n : Nat) : (s.addCtr w k i n).out = s.out := rfl
@[simp] theorem State.addCtr_freeCtr (w k i n : Nat) : (s.addCtr w k i n).freeCtr = s.freeCtr := rfl
@[simp] theorem State.addCtr_pending (w k i n : Nat) : (s.addCtr w k i n).pending = s.pending := rfl

/-! ### satCtr -/

@[simp] theorem State.satCtr_regs (w k i : Nat) : (s.satCtr w k i).regs = s.regs := rfl
@[simp] theorem State.satCtr_mem (w k i : Nat) : (s.satCtr w k i).mem = s.mem := rfl
@[simp] theorem State.satCtr_hostMem (w k i : Nat) : (s.satCtr w k i).hostMem = s.hostMem := rfl
@[simp] theorem State.satCtr_fox (w k i : Nat) : (s.satCtr w k i).fox = s.fox := rfl
@[simp] theorem State.satCtr_aud (w k i : Nat) : (s.satCtr w k i).aud = s.aud := rfl
@[simp] theorem State.satCtr_qs (w k i : Nat) : (s.satCtr w k i).qs = s.qs := rfl
@[simp] theorem State.satCtr_swc (w k i : Nat) : (s.satCtr w k i).swc = s.swc := rfl
@[simp] theorem State.satCtr_tbl (w k i : Nat) : (s.satCtr w k i).tbl = s.tbl := rfl
@[simp] theorem State.satCtr_tim (w k i : Nat) : (s.satCtr w k i).tim = s.tim := rfl
@[simp] theorem State.satCtr_grd (w k i : Nat) : (s.satCtr w k i).grd = s.grd := rfl
@[simp] theorem State.satCtr_alv (w k i : Nat) : (s.satCtr w k i).alv = s.alv := rfl
@[simp] theorem State.satCtr_pwr (w k i : Nat) : (s.satCtr w k i).pwr = s.pwr := rfl
@[simp] theorem State.satCtr_hbr (w k i : Nat) : (s.satCtr w k i).hbr = s.hbr := rfl
@[simp] theorem State.satCtr_rng (w k i : Nat) : (s.satCtr w k i).rng = s.rng := rfl
@[simp] theorem State.satCtr_sig (w k i : Nat) : (s.satCtr w k i).sig = s.sig := rfl
@[simp] theorem State.satCtr_ldg (w k i : Nat) : (s.satCtr w k i).ldg = s.ldg := rfl
@[simp] theorem State.satCtr_cip (w k i : Nat) : (s.satCtr w k i).cip = s.cip := rfl
@[simp] theorem State.satCtr_key (w k i : Nat) : (s.satCtr w k i).key = s.key := rfl
@[simp] theorem State.satCtr_bus (w k i : Nat) : (s.satCtr w k i).bus = s.bus := rfl
@[simp] theorem State.satCtr_ple (w k i : Nat) : (s.satCtr w k i).ple = s.ple := rfl
@[simp] theorem State.satCtr_upd (w k i : Nat) : (s.satCtr w k i).upd = s.upd := rfl
@[simp] theorem State.satCtr_aqn (w k i : Nat) : (s.satCtr w k i).aqn = s.aqn := rfl
@[simp] theorem State.satCtr_out (w k i : Nat) : (s.satCtr w k i).out = s.out := rfl
@[simp] theorem State.satCtr_freeCtr (w k i : Nat) : (s.satCtr w k i).freeCtr = s.freeCtr := rfl
@[simp] theorem State.satCtr_pending (w k i : Nat) : (s.satCtr w k i).pending = s.pending := rfl

/-! ### wrapCtr -/

@[simp] theorem State.wrapCtr_regs (w k i n : Nat) : (s.wrapCtr w k i n).regs = s.regs := rfl
@[simp] theorem State.wrapCtr_mem (w k i n : Nat) : (s.wrapCtr w k i n).mem = s.mem := rfl
@[simp] theorem State.wrapCtr_hostMem (w k i n : Nat) : (s.wrapCtr w k i n).hostMem = s.hostMem := rfl
@[simp] theorem State.wrapCtr_fox (w k i n : Nat) : (s.wrapCtr w k i n).fox = s.fox := rfl
@[simp] theorem State.wrapCtr_aud (w k i n : Nat) : (s.wrapCtr w k i n).aud = s.aud := rfl
@[simp] theorem State.wrapCtr_qs (w k i n : Nat) : (s.wrapCtr w k i n).qs = s.qs := rfl
@[simp] theorem State.wrapCtr_swc (w k i n : Nat) : (s.wrapCtr w k i n).swc = s.swc := rfl
@[simp] theorem State.wrapCtr_tbl (w k i n : Nat) : (s.wrapCtr w k i n).tbl = s.tbl := rfl
@[simp] theorem State.wrapCtr_tim (w k i n : Nat) : (s.wrapCtr w k i n).tim = s.tim := rfl
@[simp] theorem State.wrapCtr_grd (w k i n : Nat) : (s.wrapCtr w k i n).grd = s.grd := rfl
@[simp] theorem State.wrapCtr_alv (w k i n : Nat) : (s.wrapCtr w k i n).alv = s.alv := rfl
@[simp] theorem State.wrapCtr_pwr (w k i n : Nat) : (s.wrapCtr w k i n).pwr = s.pwr := rfl
@[simp] theorem State.wrapCtr_hbr (w k i n : Nat) : (s.wrapCtr w k i n).hbr = s.hbr := rfl
@[simp] theorem State.wrapCtr_rng (w k i n : Nat) : (s.wrapCtr w k i n).rng = s.rng := rfl
@[simp] theorem State.wrapCtr_sig (w k i n : Nat) : (s.wrapCtr w k i n).sig = s.sig := rfl
@[simp] theorem State.wrapCtr_ldg (w k i n : Nat) : (s.wrapCtr w k i n).ldg = s.ldg := rfl
@[simp] theorem State.wrapCtr_cip (w k i n : Nat) : (s.wrapCtr w k i n).cip = s.cip := rfl
@[simp] theorem State.wrapCtr_key (w k i n : Nat) : (s.wrapCtr w k i n).key = s.key := rfl
@[simp] theorem State.wrapCtr_bus (w k i n : Nat) : (s.wrapCtr w k i n).bus = s.bus := rfl
@[simp] theorem State.wrapCtr_ple (w k i n : Nat) : (s.wrapCtr w k i n).ple = s.ple := rfl
@[simp] theorem State.wrapCtr_upd (w k i n : Nat) : (s.wrapCtr w k i n).upd = s.upd := rfl
@[simp] theorem State.wrapCtr_aqn (w k i n : Nat) : (s.wrapCtr w k i n).aqn = s.aqn := rfl
@[simp] theorem State.wrapCtr_out (w k i n : Nat) : (s.wrapCtr w k i n).out = s.out := rfl
@[simp] theorem State.wrapCtr_freeCtr (w k i n : Nat) : (s.wrapCtr w k i n).freeCtr = s.freeCtr := rfl
@[simp] theorem State.wrapCtr_pending (w k i n : Nat) : (s.wrapCtr w k i n).pending = s.pending := rfl

/-! ### respond -/

@[simp] theorem State.respond_regs (r : BusResp) : (s.respond r).regs = s.regs := rfl
@[simp] theorem State.respond_mem (r : BusResp) : (s.respond r).mem = s.mem := rfl
@[simp] theorem State.respond_hostMem (r : BusResp) : (s.respond r).hostMem = s.hostMem := rfl
@[simp] theorem State.respond_fox (r : BusResp) : (s.respond r).fox = s.fox := rfl
@[simp] theorem State.respond_aud (r : BusResp) : (s.respond r).aud = s.aud := rfl
@[simp] theorem State.respond_qs (r : BusResp) : (s.respond r).qs = s.qs := rfl
@[simp] theorem State.respond_swc (r : BusResp) : (s.respond r).swc = s.swc := rfl
@[simp] theorem State.respond_tbl (r : BusResp) : (s.respond r).tbl = s.tbl := rfl
@[simp] theorem State.respond_tim (r : BusResp) : (s.respond r).tim = s.tim := rfl
@[simp] theorem State.respond_grd (r : BusResp) : (s.respond r).grd = s.grd := rfl
@[simp] theorem State.respond_alv (r : BusResp) : (s.respond r).alv = s.alv := rfl
@[simp] theorem State.respond_pwr (r : BusResp) : (s.respond r).pwr = s.pwr := rfl
@[simp] theorem State.respond_hbr (r : BusResp) : (s.respond r).hbr = s.hbr := rfl
@[simp] theorem State.respond_rng (r : BusResp) : (s.respond r).rng = s.rng := rfl
@[simp] theorem State.respond_sig (r : BusResp) : (s.respond r).sig = s.sig := rfl
@[simp] theorem State.respond_ldg (r : BusResp) : (s.respond r).ldg = s.ldg := rfl
@[simp] theorem State.respond_cip (r : BusResp) : (s.respond r).cip = s.cip := rfl
@[simp] theorem State.respond_key (r : BusResp) : (s.respond r).key = s.key := rfl
@[simp] theorem State.respond_bus (r : BusResp) : (s.respond r).bus = s.bus := rfl
@[simp] theorem State.respond_ple (r : BusResp) : (s.respond r).ple = s.ple := rfl
@[simp] theorem State.respond_upd (r : BusResp) : (s.respond r).upd = s.upd := rfl
@[simp] theorem State.respond_aqn (r : BusResp) : (s.respond r).aqn = s.aqn := rfl
@[simp] theorem State.respond_out (r : BusResp) : (s.respond r).out = s.out := rfl
@[simp] theorem State.respond_freeCtr (r : BusResp) : (s.respond r).freeCtr = s.freeCtr := rfl
@[simp] theorem State.respond_pending (r : BusResp) : (s.respond r).pending = s.pending := rfl

/-! ### setQueue -/

@[simp] theorem State.setQueue_regs (q : Nat) (v : Queue) : (s.setQueue q v).regs = s.regs := rfl
@[simp] theorem State.setQueue_mem (q : Nat) (v : Queue) : (s.setQueue q v).mem = s.mem := rfl
@[simp] theorem State.setQueue_hostMem (q : Nat) (v : Queue) : (s.setQueue q v).hostMem = s.hostMem := rfl
@[simp] theorem State.setQueue_sys (q : Nat) (v : Queue) : (s.setQueue q v).sys = s.sys := rfl
@[simp] theorem State.setQueue_fox (q : Nat) (v : Queue) : (s.setQueue q v).fox = s.fox := rfl
@[simp] theorem State.setQueue_aud (q : Nat) (v : Queue) : (s.setQueue q v).aud = s.aud := rfl
@[simp] theorem State.setQueue_swc (q : Nat) (v : Queue) : (s.setQueue q v).swc = s.swc := rfl
@[simp] theorem State.setQueue_tbl (q : Nat) (v : Queue) : (s.setQueue q v).tbl = s.tbl := rfl
@[simp] theorem State.setQueue_tim (q : Nat) (v : Queue) : (s.setQueue q v).tim = s.tim := rfl
@[simp] theorem State.setQueue_grd (q : Nat) (v : Queue) : (s.setQueue q v).grd = s.grd := rfl
@[simp] theorem State.setQueue_alv (q : Nat) (v : Queue) : (s.setQueue q v).alv = s.alv := rfl
@[simp] theorem State.setQueue_pwr (q : Nat) (v : Queue) : (s.setQueue q v).pwr = s.pwr := rfl
@[simp] theorem State.setQueue_hbr (q : Nat) (v : Queue) : (s.setQueue q v).hbr = s.hbr := rfl
@[simp] theorem State.setQueue_rng (q : Nat) (v : Queue) : (s.setQueue q v).rng = s.rng := rfl
@[simp] theorem State.setQueue_sig (q : Nat) (v : Queue) : (s.setQueue q v).sig = s.sig := rfl
@[simp] theorem State.setQueue_ldg (q : Nat) (v : Queue) : (s.setQueue q v).ldg = s.ldg := rfl
@[simp] theorem State.setQueue_cip (q : Nat) (v : Queue) : (s.setQueue q v).cip = s.cip := rfl
@[simp] theorem State.setQueue_key (q : Nat) (v : Queue) : (s.setQueue q v).key = s.key := rfl
@[simp] theorem State.setQueue_bus (q : Nat) (v : Queue) : (s.setQueue q v).bus = s.bus := rfl
@[simp] theorem State.setQueue_ple (q : Nat) (v : Queue) : (s.setQueue q v).ple = s.ple := rfl
@[simp] theorem State.setQueue_upd (q : Nat) (v : Queue) : (s.setQueue q v).upd = s.upd := rfl
@[simp] theorem State.setQueue_aqn (q : Nat) (v : Queue) : (s.setQueue q v).aqn = s.aqn := rfl
@[simp] theorem State.setQueue_out (q : Nat) (v : Queue) : (s.setQueue q v).out = s.out := rfl
@[simp] theorem State.setQueue_freeCtr (q : Nat) (v : Queue) : (s.setQueue q v).freeCtr = s.freeCtr := rfl
@[simp] theorem State.setQueue_pending (q : Nat) (v : Queue) : (s.setQueue q v).pending = s.pending := rfl

/-! ### setSwc -/

@[simp] theorem State.setSwc_regs (x : Swc) : (s.setSwc x).regs = s.regs := rfl
@[simp] theorem State.setSwc_mem (x : Swc) : (s.setSwc x).mem = s.mem := rfl
@[simp] theorem State.setSwc_hostMem (x : Swc) : (s.setSwc x).hostMem = s.hostMem := rfl
@[simp] theorem State.setSwc_sys (x : Swc) : (s.setSwc x).sys = s.sys := rfl
@[simp] theorem State.setSwc_fox (x : Swc) : (s.setSwc x).fox = s.fox := rfl
@[simp] theorem State.setSwc_aud (x : Swc) : (s.setSwc x).aud = s.aud := rfl
@[simp] theorem State.setSwc_qs (x : Swc) : (s.setSwc x).qs = s.qs := rfl
@[simp] theorem State.setSwc_swc (x : Swc) : (s.setSwc x).swc = x := rfl
@[simp] theorem State.setSwc_tbl (x : Swc) : (s.setSwc x).tbl = s.tbl := rfl
@[simp] theorem State.setSwc_tim (x : Swc) : (s.setSwc x).tim = s.tim := rfl
@[simp] theorem State.setSwc_grd (x : Swc) : (s.setSwc x).grd = s.grd := rfl
@[simp] theorem State.setSwc_alv (x : Swc) : (s.setSwc x).alv = s.alv := rfl
@[simp] theorem State.setSwc_pwr (x : Swc) : (s.setSwc x).pwr = s.pwr := rfl
@[simp] theorem State.setSwc_hbr (x : Swc) : (s.setSwc x).hbr = s.hbr := rfl
@[simp] theorem State.setSwc_rng (x : Swc) : (s.setSwc x).rng = s.rng := rfl
@[simp] theorem State.setSwc_sig (x : Swc) : (s.setSwc x).sig = s.sig := rfl
@[simp] theorem State.setSwc_ldg (x : Swc) : (s.setSwc x).ldg = s.ldg := rfl
@[simp] theorem State.setSwc_cip (x : Swc) : (s.setSwc x).cip = s.cip := rfl
@[simp] theorem State.setSwc_key (x : Swc) : (s.setSwc x).key = s.key := rfl
@[simp] theorem State.setSwc_bus (x : Swc) : (s.setSwc x).bus = s.bus := rfl
@[simp] theorem State.setSwc_ple (x : Swc) : (s.setSwc x).ple = s.ple := rfl
@[simp] theorem State.setSwc_upd (x : Swc) : (s.setSwc x).upd = s.upd := rfl
@[simp] theorem State.setSwc_aqn (x : Swc) : (s.setSwc x).aqn = s.aqn := rfl
@[simp] theorem State.setSwc_out (x : Swc) : (s.setSwc x).out = s.out := rfl
@[simp] theorem State.setSwc_freeCtr (x : Swc) : (s.setSwc x).freeCtr = s.freeCtr := rfl
@[simp] theorem State.setSwc_pending (x : Swc) : (s.setSwc x).pending = s.pending := rfl

/-! ### setGrd -/

@[simp] theorem State.setGrd_regs (x : Grd) : (s.setGrd x).regs = s.regs := rfl
@[simp] theorem State.setGrd_mem (x : Grd) : (s.setGrd x).mem = s.mem := rfl
@[simp] theorem State.setGrd_hostMem (x : Grd) : (s.setGrd x).hostMem = s.hostMem := rfl
@[simp] theorem State.setGrd_sys (x : Grd) : (s.setGrd x).sys = s.sys := rfl
@[simp] theorem State.setGrd_fox (x : Grd) : (s.setGrd x).fox = s.fox := rfl
@[simp] theorem State.setGrd_aud (x : Grd) : (s.setGrd x).aud = s.aud := rfl
@[simp] theorem State.setGrd_qs (x : Grd) : (s.setGrd x).qs = s.qs := rfl
@[simp] theorem State.setGrd_swc (x : Grd) : (s.setGrd x).swc = s.swc := rfl
@[simp] theorem State.setGrd_tbl (x : Grd) : (s.setGrd x).tbl = s.tbl := rfl
@[simp] theorem State.setGrd_tim (x : Grd) : (s.setGrd x).tim = s.tim := rfl
@[simp] theorem State.setGrd_grd (x : Grd) : (s.setGrd x).grd = x := rfl
@[simp] theorem State.setGrd_alv (x : Grd) : (s.setGrd x).alv = s.alv := rfl
@[simp] theorem State.setGrd_pwr (x : Grd) : (s.setGrd x).pwr = s.pwr := rfl
@[simp] theorem State.setGrd_hbr (x : Grd) : (s.setGrd x).hbr = s.hbr := rfl
@[simp] theorem State.setGrd_rng (x : Grd) : (s.setGrd x).rng = s.rng := rfl
@[simp] theorem State.setGrd_sig (x : Grd) : (s.setGrd x).sig = s.sig := rfl
@[simp] theorem State.setGrd_ldg (x : Grd) : (s.setGrd x).ldg = s.ldg := rfl
@[simp] theorem State.setGrd_cip (x : Grd) : (s.setGrd x).cip = s.cip := rfl
@[simp] theorem State.setGrd_key (x : Grd) : (s.setGrd x).key = s.key := rfl
@[simp] theorem State.setGrd_bus (x : Grd) : (s.setGrd x).bus = s.bus := rfl
@[simp] theorem State.setGrd_ple (x : Grd) : (s.setGrd x).ple = s.ple := rfl
@[simp] theorem State.setGrd_upd (x : Grd) : (s.setGrd x).upd = s.upd := rfl
@[simp] theorem State.setGrd_aqn (x : Grd) : (s.setGrd x).aqn = s.aqn := rfl
@[simp] theorem State.setGrd_out (x : Grd) : (s.setGrd x).out = s.out := rfl
@[simp] theorem State.setGrd_freeCtr (x : Grd) : (s.setGrd x).freeCtr = s.freeCtr := rfl
@[simp] theorem State.setGrd_pending (x : Grd) : (s.setGrd x).pending = s.pending := rfl

/-! ### setAlv -/

@[simp] theorem State.setAlv_regs (x : Alv) : (s.setAlv x).regs = s.regs := rfl
@[simp] theorem State.setAlv_mem (x : Alv) : (s.setAlv x).mem = s.mem := rfl
@[simp] theorem State.setAlv_hostMem (x : Alv) : (s.setAlv x).hostMem = s.hostMem := rfl
@[simp] theorem State.setAlv_sys (x : Alv) : (s.setAlv x).sys = s.sys := rfl
@[simp] theorem State.setAlv_fox (x : Alv) : (s.setAlv x).fox = s.fox := rfl
@[simp] theorem State.setAlv_aud (x : Alv) : (s.setAlv x).aud = s.aud := rfl
@[simp] theorem State.setAlv_qs (x : Alv) : (s.setAlv x).qs = s.qs := rfl
@[simp] theorem State.setAlv_swc (x : Alv) : (s.setAlv x).swc = s.swc := rfl
@[simp] theorem State.setAlv_tbl (x : Alv) : (s.setAlv x).tbl = s.tbl := rfl
@[simp] theorem State.setAlv_tim (x : Alv) : (s.setAlv x).tim = s.tim := rfl
@[simp] theorem State.setAlv_grd (x : Alv) : (s.setAlv x).grd = s.grd := rfl
@[simp] theorem State.setAlv_alv (x : Alv) : (s.setAlv x).alv = x := rfl
@[simp] theorem State.setAlv_pwr (x : Alv) : (s.setAlv x).pwr = s.pwr := rfl
@[simp] theorem State.setAlv_hbr (x : Alv) : (s.setAlv x).hbr = s.hbr := rfl
@[simp] theorem State.setAlv_rng (x : Alv) : (s.setAlv x).rng = s.rng := rfl
@[simp] theorem State.setAlv_sig (x : Alv) : (s.setAlv x).sig = s.sig := rfl
@[simp] theorem State.setAlv_ldg (x : Alv) : (s.setAlv x).ldg = s.ldg := rfl
@[simp] theorem State.setAlv_cip (x : Alv) : (s.setAlv x).cip = s.cip := rfl
@[simp] theorem State.setAlv_key (x : Alv) : (s.setAlv x).key = s.key := rfl
@[simp] theorem State.setAlv_bus (x : Alv) : (s.setAlv x).bus = s.bus := rfl
@[simp] theorem State.setAlv_ple (x : Alv) : (s.setAlv x).ple = s.ple := rfl
@[simp] theorem State.setAlv_upd (x : Alv) : (s.setAlv x).upd = s.upd := rfl
@[simp] theorem State.setAlv_aqn (x : Alv) : (s.setAlv x).aqn = s.aqn := rfl
@[simp] theorem State.setAlv_out (x : Alv) : (s.setAlv x).out = s.out := rfl
@[simp] theorem State.setAlv_freeCtr (x : Alv) : (s.setAlv x).freeCtr = s.freeCtr := rfl
@[simp] theorem State.setAlv_pending (x : Alv) : (s.setAlv x).pending = s.pending := rfl

/-! ### setAqn -/

@[simp] theorem State.setAqn_regs (x : Aqn) : (s.setAqn x).regs = s.regs := rfl
@[simp] theorem State.setAqn_mem (x : Aqn) : (s.setAqn x).mem = s.mem := rfl
@[simp] theorem State.setAqn_hostMem (x : Aqn) : (s.setAqn x).hostMem = s.hostMem := rfl
@[simp] theorem State.setAqn_sys (x : Aqn) : (s.setAqn x).sys = s.sys := rfl
@[simp] theorem State.setAqn_fox (x : Aqn) : (s.setAqn x).fox = s.fox := rfl
@[simp] theorem State.setAqn_aud (x : Aqn) : (s.setAqn x).aud = s.aud := rfl
@[simp] theorem State.setAqn_qs (x : Aqn) : (s.setAqn x).qs = s.qs := rfl
@[simp] theorem State.setAqn_swc (x : Aqn) : (s.setAqn x).swc = s.swc := rfl
@[simp] theorem State.setAqn_tbl (x : Aqn) : (s.setAqn x).tbl = s.tbl := rfl
@[simp] theorem State.setAqn_tim (x : Aqn) : (s.setAqn x).tim = s.tim := rfl
@[simp] theorem State.setAqn_grd (x : Aqn) : (s.setAqn x).grd = s.grd := rfl
@[simp] theorem State.setAqn_alv (x : Aqn) : (s.setAqn x).alv = s.alv := rfl
@[simp] theorem State.setAqn_pwr (x : Aqn) : (s.setAqn x).pwr = s.pwr := rfl
@[simp] theorem State.setAqn_hbr (x : Aqn) : (s.setAqn x).hbr = s.hbr := rfl
@[simp] theorem State.setAqn_rng (x : Aqn) : (s.setAqn x).rng = s.rng := rfl
@[simp] theorem State.setAqn_sig (x : Aqn) : (s.setAqn x).sig = s.sig := rfl
@[simp] theorem State.setAqn_ldg (x : Aqn) : (s.setAqn x).ldg = s.ldg := rfl
@[simp] theorem State.setAqn_cip (x : Aqn) : (s.setAqn x).cip = s.cip := rfl
@[simp] theorem State.setAqn_key (x : Aqn) : (s.setAqn x).key = s.key := rfl
@[simp] theorem State.setAqn_bus (x : Aqn) : (s.setAqn x).bus = s.bus := rfl
@[simp] theorem State.setAqn_ple (x : Aqn) : (s.setAqn x).ple = s.ple := rfl
@[simp] theorem State.setAqn_upd (x : Aqn) : (s.setAqn x).upd = s.upd := rfl
@[simp] theorem State.setAqn_aqn (x : Aqn) : (s.setAqn x).aqn = x := rfl
@[simp] theorem State.setAqn_out (x : Aqn) : (s.setAqn x).out = s.out := rfl
@[simp] theorem State.setAqn_freeCtr (x : Aqn) : (s.setAqn x).freeCtr = s.freeCtr := rfl
@[simp] theorem State.setAqn_pending (x : Aqn) : (s.setAqn x).pending = s.pending := rfl

/-! ### setHbr -/

@[simp] theorem State.setHbr_regs (x : Hbr) : (s.setHbr x).regs = s.regs := rfl
@[simp] theorem State.setHbr_mem (x : Hbr) : (s.setHbr x).mem = s.mem := rfl
@[simp] theorem State.setHbr_hostMem (x : Hbr) : (s.setHbr x).hostMem = s.hostMem := rfl
@[simp] theorem State.setHbr_sys (x : Hbr) : (s.setHbr x).sys = s.sys := rfl
@[simp] theorem State.setHbr_fox (x : Hbr) : (s.setHbr x).fox = s.fox := rfl
@[simp] theorem State.setHbr_aud (x : Hbr) : (s.setHbr x).aud = s.aud := rfl
@[simp] theorem State.setHbr_qs (x : Hbr) : (s.setHbr x).qs = s.qs := rfl
@[simp] theorem State.setHbr_swc (x : Hbr) : (s.setHbr x).swc = s.swc := rfl
@[simp] theorem State.setHbr_tbl (x : Hbr) : (s.setHbr x).tbl = s.tbl := rfl
@[simp] theorem State.setHbr_tim (x : Hbr) : (s.setHbr x).tim = s.tim := rfl
@[simp] theorem State.setHbr_grd (x : Hbr) : (s.setHbr x).grd = s.grd := rfl
@[simp] theorem State.setHbr_alv (x : Hbr) : (s.setHbr x).alv = s.alv := rfl
@[simp] theorem State.setHbr_pwr (x : Hbr) : (s.setHbr x).pwr = s.pwr := rfl
@[simp] theorem State.setHbr_hbr (x : Hbr) : (s.setHbr x).hbr = x := rfl
@[simp] theorem State.setHbr_rng (x : Hbr) : (s.setHbr x).rng = s.rng := rfl
@[simp] theorem State.setHbr_sig (x : Hbr) : (s.setHbr x).sig = s.sig := rfl
@[simp] theorem State.setHbr_ldg (x : Hbr) : (s.setHbr x).ldg = s.ldg := rfl
@[simp] theorem State.setHbr_cip (x : Hbr) : (s.setHbr x).cip = s.cip := rfl
@[simp] theorem State.setHbr_key (x : Hbr) : (s.setHbr x).key = s.key := rfl
@[simp] theorem State.setHbr_bus (x : Hbr) : (s.setHbr x).bus = s.bus := rfl
@[simp] theorem State.setHbr_ple (x : Hbr) : (s.setHbr x).ple = s.ple := rfl
@[simp] theorem State.setHbr_upd (x : Hbr) : (s.setHbr x).upd = s.upd := rfl
@[simp] theorem State.setHbr_aqn (x : Hbr) : (s.setHbr x).aqn = s.aqn := rfl
@[simp] theorem State.setHbr_out (x : Hbr) : (s.setHbr x).out = s.out := rfl
@[simp] theorem State.setHbr_freeCtr (x : Hbr) : (s.setHbr x).freeCtr = s.freeCtr := rfl
@[simp] theorem State.setHbr_pending (x : Hbr) : (s.setHbr x).pending = s.pending := rfl

/-! ### setCip -/

@[simp] theorem State.setCip_regs (x : Cip) : (s.setCip x).regs = s.regs := rfl
@[simp] theorem State.setCip_mem (x : Cip) : (s.setCip x).mem = s.mem := rfl
@[simp] theorem State.setCip_hostMem (x : Cip) : (s.setCip x).hostMem = s.hostMem := rfl
@[simp] theorem State.setCip_sys (x : Cip) : (s.setCip x).sys = s.sys := rfl
@[simp] theorem State.setCip_fox (x : Cip) : (s.setCip x).fox = s.fox := rfl
@[simp] theorem State.setCip_aud (x : Cip) : (s.setCip x).aud = s.aud := rfl
@[simp] theorem State.setCip_qs (x : Cip) : (s.setCip x).qs = s.qs := rfl
@[simp] theorem State.setCip_swc (x : Cip) : (s.setCip x).swc = s.swc := rfl
@[simp] theorem State.setCip_tbl (x : Cip) : (s.setCip x).tbl = s.tbl := rfl
@[simp] theorem State.setCip_tim (x : Cip) : (s.setCip x).tim = s.tim := rfl
@[simp] theorem State.setCip_grd (x : Cip) : (s.setCip x).grd = s.grd := rfl
@[simp] theorem State.setCip_alv (x : Cip) : (s.setCip x).alv = s.alv := rfl
@[simp] theorem State.setCip_pwr (x : Cip) : (s.setCip x).pwr = s.pwr := rfl
@[simp] theorem State.setCip_hbr (x : Cip) : (s.setCip x).hbr = s.hbr := rfl
@[simp] theorem State.setCip_rng (x : Cip) : (s.setCip x).rng = s.rng := rfl
@[simp] theorem State.setCip_sig (x : Cip) : (s.setCip x).sig = s.sig := rfl
@[simp] theorem State.setCip_ldg (x : Cip) : (s.setCip x).ldg = s.ldg := rfl
@[simp] theorem State.setCip_cip (x : Cip) : (s.setCip x).cip = x := rfl
@[simp] theorem State.setCip_key (x : Cip) : (s.setCip x).key = s.key := rfl
@[simp] theorem State.setCip_bus (x : Cip) : (s.setCip x).bus = s.bus := rfl
@[simp] theorem State.setCip_ple (x : Cip) : (s.setCip x).ple = s.ple := rfl
@[simp] theorem State.setCip_upd (x : Cip) : (s.setCip x).upd = s.upd := rfl
@[simp] theorem State.setCip_aqn (x : Cip) : (s.setCip x).aqn = s.aqn := rfl
@[simp] theorem State.setCip_out (x : Cip) : (s.setCip x).out = s.out := rfl
@[simp] theorem State.setCip_freeCtr (x : Cip) : (s.setCip x).freeCtr = s.freeCtr := rfl
@[simp] theorem State.setCip_pending (x : Cip) : (s.setCip x).pending = s.pending := rfl

/-! ### setFox -/

@[simp] theorem State.setFox_regs (x : Fox) : (s.setFox x).regs = s.regs := rfl
@[simp] theorem State.setFox_mem (x : Fox) : (s.setFox x).mem = s.mem := rfl
@[simp] theorem State.setFox_hostMem (x : Fox) : (s.setFox x).hostMem = s.hostMem := rfl
@[simp] theorem State.setFox_sys (x : Fox) : (s.setFox x).sys = s.sys := rfl
@[simp] theorem State.setFox_fox (x : Fox) : (s.setFox x).fox = x := rfl
@[simp] theorem State.setFox_aud (x : Fox) : (s.setFox x).aud = s.aud := rfl
@[simp] theorem State.setFox_qs (x : Fox) : (s.setFox x).qs = s.qs := rfl
@[simp] theorem State.setFox_swc (x : Fox) : (s.setFox x).swc = s.swc := rfl
@[simp] theorem State.setFox_tbl (x : Fox) : (s.setFox x).tbl = s.tbl := rfl
@[simp] theorem State.setFox_tim (x : Fox) : (s.setFox x).tim = s.tim := rfl
@[simp] theorem State.setFox_grd (x : Fox) : (s.setFox x).grd = s.grd := rfl
@[simp] theorem State.setFox_alv (x : Fox) : (s.setFox x).alv = s.alv := rfl
@[simp] theorem State.setFox_pwr (x : Fox) : (s.setFox x).pwr = s.pwr := rfl
@[simp] theorem State.setFox_hbr (x : Fox) : (s.setFox x).hbr = s.hbr := rfl
@[simp] theorem State.setFox_rng (x : Fox) : (s.setFox x).rng = s.rng := rfl
@[simp] theorem State.setFox_sig (x : Fox) : (s.setFox x).sig = s.sig := rfl
@[simp] theorem State.setFox_ldg (x : Fox) : (s.setFox x).ldg = s.ldg := rfl
@[simp] theorem State.setFox_cip (x : Fox) : (s.setFox x).cip = s.cip := rfl
@[simp] theorem State.setFox_key (x : Fox) : (s.setFox x).key = s.key := rfl
@[simp] theorem State.setFox_bus (x : Fox) : (s.setFox x).bus = s.bus := rfl
@[simp] theorem State.setFox_ple (x : Fox) : (s.setFox x).ple = s.ple := rfl
@[simp] theorem State.setFox_upd (x : Fox) : (s.setFox x).upd = s.upd := rfl
@[simp] theorem State.setFox_aqn (x : Fox) : (s.setFox x).aqn = s.aqn := rfl
@[simp] theorem State.setFox_out (x : Fox) : (s.setFox x).out = s.out := rfl
@[simp] theorem State.setFox_freeCtr (x : Fox) : (s.setFox x).freeCtr = s.freeCtr := rfl
@[simp] theorem State.setFox_pending (x : Fox) : (s.setFox x).pending = s.pending := rfl

/-! ### setPwr -/

@[simp] theorem State.setPwr_regs (x : Pwr) : (s.setPwr x).regs = s.regs := rfl
@[simp] theorem State.setPwr_mem (x : Pwr) : (s.setPwr x).mem = s.mem := rfl
@[simp] theorem State.setPwr_hostMem (x : Pwr) : (s.setPwr x).hostMem = s.hostMem := rfl
@[simp] theorem State.setPwr_sys (x : Pwr) : (s.setPwr x).sys = s.sys := rfl
@[simp] theorem State.setPwr_fox (x : Pwr) : (s.setPwr x).fox = s.fox := rfl
@[simp] theorem State.setPwr_aud (x : Pwr) : (s.setPwr x).aud = s.aud := rfl
@[simp] theorem State.setPwr_qs (x : Pwr) : (s.setPwr x).qs = s.qs := rfl
@[simp] theorem State.setPwr_swc (x : Pwr) : (s.setPwr x).swc = s.swc := rfl
@[simp] theorem State.setPwr_tbl (x : Pwr) : (s.setPwr x).tbl = s.tbl := rfl
@[simp] theorem State.setPwr_tim (x : Pwr) : (s.setPwr x).tim = s.tim := rfl
@[simp] theorem State.setPwr_grd (x : Pwr) : (s.setPwr x).grd = s.grd := rfl
@[simp] theorem State.setPwr_alv (x : Pwr) : (s.setPwr x).alv = s.alv := rfl
@[simp] theorem State.setPwr_pwr (x : Pwr) : (s.setPwr x).pwr = x := rfl
@[simp] theorem State.setPwr_hbr (x : Pwr) : (s.setPwr x).hbr = s.hbr := rfl
@[simp] theorem State.setPwr_rng (x : Pwr) : (s.setPwr x).rng = s.rng := rfl
@[simp] theorem State.setPwr_sig (x : Pwr) : (s.setPwr x).sig = s.sig := rfl
@[simp] theorem State.setPwr_ldg (x : Pwr) : (s.setPwr x).ldg = s.ldg := rfl
@[simp] theorem State.setPwr_cip (x : Pwr) : (s.setPwr x).cip = s.cip := rfl
@[simp] theorem State.setPwr_key (x : Pwr) : (s.setPwr x).key = s.key := rfl
@[simp] theorem State.setPwr_bus (x : Pwr) : (s.setPwr x).bus = s.bus := rfl
@[simp] theorem State.setPwr_ple (x : Pwr) : (s.setPwr x).ple = s.ple := rfl
@[simp] theorem State.setPwr_upd (x : Pwr) : (s.setPwr x).upd = s.upd := rfl
@[simp] theorem State.setPwr_aqn (x : Pwr) : (s.setPwr x).aqn = s.aqn := rfl
@[simp] theorem State.setPwr_out (x : Pwr) : (s.setPwr x).out = s.out := rfl
@[simp] theorem State.setPwr_freeCtr (x : Pwr) : (s.setPwr x).freeCtr = s.freeCtr := rfl
@[simp] theorem State.setPwr_pending (x : Pwr) : (s.setPwr x).pending = s.pending := rfl

/-! ### setLdg -/

@[simp] theorem State.setLdg_regs (x : Ldg) : (s.setLdg x).regs = s.regs := rfl
@[simp] theorem State.setLdg_mem (x : Ldg) : (s.setLdg x).mem = s.mem := rfl
@[simp] theorem State.setLdg_hostMem (x : Ldg) : (s.setLdg x).hostMem = s.hostMem := rfl
@[simp] theorem State.setLdg_sys (x : Ldg) : (s.setLdg x).sys = s.sys := rfl
@[simp] theorem State.setLdg_fox (x : Ldg) : (s.setLdg x).fox = s.fox := rfl
@[simp] theorem State.setLdg_aud (x : Ldg) : (s.setLdg x).aud = s.aud := rfl
@[simp] theorem State.setLdg_qs (x : Ldg) : (s.setLdg x).qs = s.qs := rfl
@[simp] theorem State.setLdg_swc (x : Ldg) : (s.setLdg x).swc = s.swc := rfl
@[simp] theorem State.setLdg_tbl (x : Ldg) : (s.setLdg x).tbl = s.tbl := rfl
@[simp] theorem State.setLdg_tim (x : Ldg) : (s.setLdg x).tim = s.tim := rfl
@[simp] theorem State.setLdg_grd (x : Ldg) : (s.setLdg x).grd = s.grd := rfl
@[simp] theorem State.setLdg_alv (x : Ldg) : (s.setLdg x).alv = s.alv := rfl
@[simp] theorem State.setLdg_pwr (x : Ldg) : (s.setLdg x).pwr = s.pwr := rfl
@[simp] theorem State.setLdg_hbr (x : Ldg) : (s.setLdg x).hbr = s.hbr := rfl
@[simp] theorem State.setLdg_rng (x : Ldg) : (s.setLdg x).rng = s.rng := rfl
@[simp] theorem State.setLdg_sig (x : Ldg) : (s.setLdg x).sig = s.sig := rfl
@[simp] theorem State.setLdg_ldg (x : Ldg) : (s.setLdg x).ldg = x := rfl
@[simp] theorem State.setLdg_cip (x : Ldg) : (s.setLdg x).cip = s.cip := rfl
@[simp] theorem State.setLdg_key (x : Ldg) : (s.setLdg x).key = s.key := rfl
@[simp] theorem State.setLdg_bus (x : Ldg) : (s.setLdg x).bus = s.bus := rfl
@[simp] theorem State.setLdg_ple (x : Ldg) : (s.setLdg x).ple = s.ple := rfl
@[simp] theorem State.setLdg_upd (x : Ldg) : (s.setLdg x).upd = s.upd := rfl
@[simp] theorem State.setLdg_aqn (x : Ldg) : (s.setLdg x).aqn = s.aqn := rfl
@[simp] theorem State.setLdg_out (x : Ldg) : (s.setLdg x).out = s.out := rfl
@[simp] theorem State.setLdg_freeCtr (x : Ldg) : (s.setLdg x).freeCtr = s.freeCtr := rfl
@[simp] theorem State.setLdg_pending (x : Ldg) : (s.setLdg x).pending = s.pending := rfl

/-! ### setPle -/

@[simp] theorem State.setPle_regs (x : Ple) : (s.setPle x).regs = s.regs := rfl
@[simp] theorem State.setPle_mem (x : Ple) : (s.setPle x).mem = s.mem := rfl
@[simp] theorem State.setPle_hostMem (x : Ple) : (s.setPle x).hostMem = s.hostMem := rfl
@[simp] theorem State.setPle_sys (x : Ple) : (s.setPle x).sys = s.sys := rfl
@[simp] theorem State.setPle_fox (x : Ple) : (s.setPle x).fox = s.fox := rfl
@[simp] theorem State.setPle_aud (x : Ple) : (s.setPle x).aud = s.aud := rfl
@[simp] theorem State.setPle_qs (x : Ple) : (s.setPle x).qs = s.qs := rfl
@[simp] theorem State.setPle_swc (x : Ple) : (s.setPle x).swc = s.swc := rfl
@[simp] theorem State.setPle_tbl (x : Ple) : (s.setPle x).tbl = s.tbl := rfl
@[simp] theorem State.setPle_tim (x : Ple) : (s.setPle x).tim = s.tim := rfl
@[simp] theorem State.setPle_grd (x : Ple) : (s.setPle x).grd = s.grd := rfl
@[simp] theorem State.setPle_alv (x : Ple) : (s.setPle x).alv = s.alv := rfl
@[simp] theorem State.setPle_pwr (x : Ple) : (s.setPle x).pwr = s.pwr := rfl
@[simp] theorem State.setPle_hbr (x : Ple) : (s.setPle x).hbr = s.hbr := rfl
@[simp] theorem State.setPle_rng (x : Ple) : (s.setPle x).rng = s.rng := rfl
@[simp] theorem State.setPle_sig (x : Ple) : (s.setPle x).sig = s.sig := rfl
@[simp] theorem State.setPle_ldg (x : Ple) : (s.setPle x).ldg = s.ldg := rfl
@[simp] theorem State.setPle_cip (x : Ple) : (s.setPle x).cip = s.cip := rfl
@[simp] theorem State.setPle_key (x : Ple) : (s.setPle x).key = s.key := rfl
@[simp] theorem State.setPle_bus (x : Ple) : (s.setPle x).bus = s.bus := rfl
@[simp] theorem State.setPle_ple (x : Ple) : (s.setPle x).ple = x := rfl
@[simp] theorem State.setPle_upd (x : Ple) : (s.setPle x).upd = s.upd := rfl
@[simp] theorem State.setPle_aqn (x : Ple) : (s.setPle x).aqn = s.aqn := rfl
@[simp] theorem State.setPle_out (x : Ple) : (s.setPle x).out = s.out := rfl
@[simp] theorem State.setPle_freeCtr (x : Ple) : (s.setPle x).freeCtr = s.freeCtr := rfl
@[simp] theorem State.setPle_pending (x : Ple) : (s.setPle x).pending = s.pending := rfl

/-! ### setRng -/

@[simp] theorem State.setRng_regs (x : Rng) : (s.setRng x).regs = s.regs := rfl
@[simp] theorem State.setRng_mem (x : Rng) : (s.setRng x).mem = s.mem := rfl
@[simp] theorem State.setRng_hostMem (x : Rng) : (s.setRng x).hostMem = s.hostMem := rfl
@[simp] theorem State.setRng_sys (x : Rng) : (s.setRng x).sys = s.sys := rfl
@[simp] theorem State.setRng_fox (x : Rng) : (s.setRng x).fox = s.fox := rfl
@[simp] theorem State.setRng_aud (x : Rng) : (s.setRng x).aud = s.aud := rfl
@[simp] theorem State.setRng_qs (x : Rng) : (s.setRng x).qs = s.qs := rfl
@[simp] theorem State.setRng_swc (x : Rng) : (s.setRng x).swc = s.swc := rfl
@[simp] theorem State.setRng_tbl (x : Rng) : (s.setRng x).tbl = s.tbl := rfl
@[simp] theorem State.setRng_tim (x : Rng) : (s.setRng x).tim = s.tim := rfl
@[simp] theorem State.setRng_grd (x : Rng) : (s.setRng x).grd = s.grd := rfl
@[simp] theorem State.setRng_alv (x : Rng) : (s.setRng x).alv = s.alv := rfl
@[simp] theorem State.setRng_pwr (x : Rng) : (s.setRng x).pwr = s.pwr := rfl
@[simp] theorem State.setRng_hbr (x : Rng) : (s.setRng x).hbr = s.hbr := rfl
@[simp] theorem State.setRng_rng (x : Rng) : (s.setRng x).rng = x := rfl
@[simp] theorem State.setRng_sig (x : Rng) : (s.setRng x).sig = s.sig := rfl
@[simp] theorem State.setRng_ldg (x : Rng) : (s.setRng x).ldg = s.ldg := rfl
@[simp] theorem State.setRng_cip (x : Rng) : (s.setRng x).cip = s.cip := rfl
@[simp] theorem State.setRng_key (x : Rng) : (s.setRng x).key = s.key := rfl
@[simp] theorem State.setRng_bus (x : Rng) : (s.setRng x).bus = s.bus := rfl
@[simp] theorem State.setRng_ple (x : Rng) : (s.setRng x).ple = s.ple := rfl
@[simp] theorem State.setRng_upd (x : Rng) : (s.setRng x).upd = s.upd := rfl
@[simp] theorem State.setRng_aqn (x : Rng) : (s.setRng x).aqn = s.aqn := rfl
@[simp] theorem State.setRng_out (x : Rng) : (s.setRng x).out = s.out := rfl
@[simp] theorem State.setRng_freeCtr (x : Rng) : (s.setRng x).freeCtr = s.freeCtr := rfl
@[simp] theorem State.setRng_pending (x : Rng) : (s.setRng x).pending = s.pending := rfl

/-! ### setSig -/

@[simp] theorem State.setSig_regs (x : Sig) : (s.setSig x).regs = s.regs := rfl
@[simp] theorem State.setSig_mem (x : Sig) : (s.setSig x).mem = s.mem := rfl
@[simp] theorem State.setSig_hostMem (x : Sig) : (s.setSig x).hostMem = s.hostMem := rfl
@[simp] theorem State.setSig_sys (x : Sig) : (s.setSig x).sys = s.sys := rfl
@[simp] theorem State.setSig_fox (x : Sig) : (s.setSig x).fox = s.fox := rfl
@[simp] theorem State.setSig_aud (x : Sig) : (s.setSig x).aud = s.aud := rfl
@[simp] theorem State.setSig_qs (x : Sig) : (s.setSig x).qs = s.qs := rfl
@[simp] theorem State.setSig_swc (x : Sig) : (s.setSig x).swc = s.swc := rfl
@[simp] theorem State.setSig_tbl (x : Sig) : (s.setSig x).tbl = s.tbl := rfl
@[simp] theorem State.setSig_tim (x : Sig) : (s.setSig x).tim = s.tim := rfl
@[simp] theorem State.setSig_grd (x : Sig) : (s.setSig x).grd = s.grd := rfl
@[simp] theorem State.setSig_alv (x : Sig) : (s.setSig x).alv = s.alv := rfl
@[simp] theorem State.setSig_pwr (x : Sig) : (s.setSig x).pwr = s.pwr := rfl
@[simp] theorem State.setSig_hbr (x : Sig) : (s.setSig x).hbr = s.hbr := rfl
@[simp] theorem State.setSig_rng (x : Sig) : (s.setSig x).rng = s.rng := rfl
@[simp] theorem State.setSig_sig (x : Sig) : (s.setSig x).sig = x := rfl
@[simp] theorem State.setSig_ldg (x : Sig) : (s.setSig x).ldg = s.ldg := rfl
@[simp] theorem State.setSig_cip (x : Sig) : (s.setSig x).cip = s.cip := rfl
@[simp] theorem State.setSig_key (x : Sig) : (s.setSig x).key = s.key := rfl
@[simp] theorem State.setSig_bus (x : Sig) : (s.setSig x).bus = s.bus := rfl
@[simp] theorem State.setSig_ple (x : Sig) : (s.setSig x).ple = s.ple := rfl
@[simp] theorem State.setSig_upd (x : Sig) : (s.setSig x).upd = s.upd := rfl
@[simp] theorem State.setSig_aqn (x : Sig) : (s.setSig x).aqn = s.aqn := rfl
@[simp] theorem State.setSig_out (x : Sig) : (s.setSig x).out = s.out := rfl
@[simp] theorem State.setSig_freeCtr (x : Sig) : (s.setSig x).freeCtr = s.freeCtr := rfl
@[simp] theorem State.setSig_pending (x : Sig) : (s.setSig x).pending = s.pending := rfl

/-! ### setTbl -/

@[simp] theorem State.setTbl_regs (x : Tbl) : (s.setTbl x).regs = s.regs := rfl
@[simp] theorem State.setTbl_mem (x : Tbl) : (s.setTbl x).mem = s.mem := rfl
@[simp] theorem State.setTbl_hostMem (x : Tbl) : (s.setTbl x).hostMem = s.hostMem := rfl
@[simp] theorem State.setTbl_sys (x : Tbl) : (s.setTbl x).sys = s.sys := rfl
@[simp] theorem State.setTbl_fox (x : Tbl) : (s.setTbl x).fox = s.fox := rfl
@[simp] theorem State.setTbl_aud (x : Tbl) : (s.setTbl x).aud = s.aud := rfl
@[simp] theorem State.setTbl_qs (x : Tbl) : (s.setTbl x).qs = s.qs := rfl
@[simp] theorem State.setTbl_swc (x : Tbl) : (s.setTbl x).swc = s.swc := rfl
@[simp] theorem State.setTbl_tbl (x : Tbl) : (s.setTbl x).tbl = x := rfl
@[simp] theorem State.setTbl_tim (x : Tbl) : (s.setTbl x).tim = s.tim := rfl
@[simp] theorem State.setTbl_grd (x : Tbl) : (s.setTbl x).grd = s.grd := rfl
@[simp] theorem State.setTbl_alv (x : Tbl) : (s.setTbl x).alv = s.alv := rfl
@[simp] theorem State.setTbl_pwr (x : Tbl) : (s.setTbl x).pwr = s.pwr := rfl
@[simp] theorem State.setTbl_hbr (x : Tbl) : (s.setTbl x).hbr = s.hbr := rfl
@[simp] theorem State.setTbl_rng (x : Tbl) : (s.setTbl x).rng = s.rng := rfl
@[simp] theorem State.setTbl_sig (x : Tbl) : (s.setTbl x).sig = s.sig := rfl
@[simp] theorem State.setTbl_ldg (x : Tbl) : (s.setTbl x).ldg = s.ldg := rfl
@[simp] theorem State.setTbl_cip (x : Tbl) : (s.setTbl x).cip = s.cip := rfl
@[simp] theorem State.setTbl_key (x : Tbl) : (s.setTbl x).key = s.key := rfl
@[simp] theorem State.setTbl_bus (x : Tbl) : (s.setTbl x).bus = s.bus := rfl
@[simp] theorem State.setTbl_ple (x : Tbl) : (s.setTbl x).ple = s.ple := rfl
@[simp] theorem State.setTbl_upd (x : Tbl) : (s.setTbl x).upd = s.upd := rfl
@[simp] theorem State.setTbl_aqn (x : Tbl) : (s.setTbl x).aqn = s.aqn := rfl
@[simp] theorem State.setTbl_out (x : Tbl) : (s.setTbl x).out = s.out := rfl
@[simp] theorem State.setTbl_freeCtr (x : Tbl) : (s.setTbl x).freeCtr = s.freeCtr := rfl
@[simp] theorem State.setTbl_pending (x : Tbl) : (s.setTbl x).pending = s.pending := rfl

/-! ### setTim -/

@[simp] theorem State.setTim_regs (x : Tim) : (s.setTim x).regs = s.regs := rfl
@[simp] theorem State.setTim_mem (x : Tim) : (s.setTim x).mem = s.mem := rfl
@[simp] theorem State.setTim_hostMem (x : Tim) : (s.setTim x).hostMem = s.hostMem := rfl
@[simp] theorem State.setTim_sys (x : Tim) : (s.setTim x).sys = s.sys := rfl
@[simp] theorem State.setTim_fox (x : Tim) : (s.setTim x).fox = s.fox := rfl
@[simp] theorem State.setTim_aud (x : Tim) : (s.setTim x).aud = s.aud := rfl
@[simp] theorem State.setTim_qs (x : Tim) : (s.setTim x).qs = s.qs := rfl
@[simp] theorem State.setTim_swc (x : Tim) : (s.setTim x).swc = s.swc := rfl
@[simp] theorem State.setTim_tbl (x : Tim) : (s.setTim x).tbl = s.tbl := rfl
@[simp] theorem State.setTim_tim (x : Tim) : (s.setTim x).tim = x := rfl
@[simp] theorem State.setTim_grd (x : Tim) : (s.setTim x).grd = s.grd := rfl
@[simp] theorem State.setTim_alv (x : Tim) : (s.setTim x).alv = s.alv := rfl
@[simp] theorem State.setTim_pwr (x : Tim) : (s.setTim x).pwr = s.pwr := rfl
@[simp] theorem State.setTim_hbr (x : Tim) : (s.setTim x).hbr = s.hbr := rfl
@[simp] theorem State.setTim_rng (x : Tim) : (s.setTim x).rng = s.rng := rfl
@[simp] theorem State.setTim_sig (x : Tim) : (s.setTim x).sig = s.sig := rfl
@[simp] theorem State.setTim_ldg (x : Tim) : (s.setTim x).ldg = s.ldg := rfl
@[simp] theorem State.setTim_cip (x : Tim) : (s.setTim x).cip = s.cip := rfl
@[simp] theorem State.setTim_key (x : Tim) : (s.setTim x).key = s.key := rfl
@[simp] theorem State.setTim_bus (x : Tim) : (s.setTim x).bus = s.bus := rfl
@[simp] theorem State.setTim_ple (x : Tim) : (s.setTim x).ple = s.ple := rfl
@[simp] theorem State.setTim_upd (x : Tim) : (s.setTim x).upd = s.upd := rfl
@[simp] theorem State.setTim_aqn (x : Tim) : (s.setTim x).aqn = s.aqn := rfl
@[simp] theorem State.setTim_out (x : Tim) : (s.setTim x).out = s.out := rfl
@[simp] theorem State.setTim_freeCtr (x : Tim) : (s.setTim x).freeCtr = s.freeCtr := rfl
@[simp] theorem State.setTim_pending (x : Tim) : (s.setTim x).pending = s.pending := rfl

/-! ### setUpd -/

@[simp] theorem State.setUpd_regs (x : Upd) : (s.setUpd x).regs = s.regs := rfl
@[simp] theorem State.setUpd_mem (x : Upd) : (s.setUpd x).mem = s.mem := rfl
@[simp] theorem State.setUpd_hostMem (x : Upd) : (s.setUpd x).hostMem = s.hostMem := rfl
@[simp] theorem State.setUpd_sys (x : Upd) : (s.setUpd x).sys = s.sys := rfl
@[simp] theorem State.setUpd_fox (x : Upd) : (s.setUpd x).fox = s.fox := rfl
@[simp] theorem State.setUpd_aud (x : Upd) : (s.setUpd x).aud = s.aud := rfl
@[simp] theorem State.setUpd_qs (x : Upd) : (s.setUpd x).qs = s.qs := rfl
@[simp] theorem State.setUpd_swc (x : Upd) : (s.setUpd x).swc = s.swc := rfl
@[simp] theorem State.setUpd_tbl (x : Upd) : (s.setUpd x).tbl = s.tbl := rfl
@[simp] theorem State.setUpd_tim (x : Upd) : (s.setUpd x).tim = s.tim := rfl
@[simp] theorem State.setUpd_grd (x : Upd) : (s.setUpd x).grd = s.grd := rfl
@[simp] theorem State.setUpd_alv (x : Upd) : (s.setUpd x).alv = s.alv := rfl
@[simp] theorem State.setUpd_pwr (x : Upd) : (s.setUpd x).pwr = s.pwr := rfl
@[simp] theorem State.setUpd_hbr (x : Upd) : (s.setUpd x).hbr = s.hbr := rfl
@[simp] theorem State.setUpd_rng (x : Upd) : (s.setUpd x).rng = s.rng := rfl
@[simp] theorem State.setUpd_sig (x : Upd) : (s.setUpd x).sig = s.sig := rfl
@[simp] theorem State.setUpd_ldg (x : Upd) : (s.setUpd x).ldg = s.ldg := rfl
@[simp] theorem State.setUpd_cip (x : Upd) : (s.setUpd x).cip = s.cip := rfl
@[simp] theorem State.setUpd_key (x : Upd) : (s.setUpd x).key = s.key := rfl
@[simp] theorem State.setUpd_bus (x : Upd) : (s.setUpd x).bus = s.bus := rfl
@[simp] theorem State.setUpd_ple (x : Upd) : (s.setUpd x).ple = s.ple := rfl
@[simp] theorem State.setUpd_upd (x : Upd) : (s.setUpd x).upd = x := rfl
@[simp] theorem State.setUpd_aqn (x : Upd) : (s.setUpd x).aqn = s.aqn := rfl
@[simp] theorem State.setUpd_out (x : Upd) : (s.setUpd x).out = s.out := rfl
@[simp] theorem State.setUpd_freeCtr (x : Upd) : (s.setUpd x).freeCtr = s.freeCtr := rfl
@[simp] theorem State.setUpd_pending (x : Upd) : (s.setUpd x).pending = s.pending := rfl

end Sys2Proof.Machine
end

