-- ==== Sys2Proof/Laws/Signals.lean ====
section
/-! SUPPORT. Frames of the shared operations: events, interrupt lines, audit entries. -/

namespace Sys2Proof.Machine

/-! ### Composition -/

theorem SameBut.refl (ps : List Part) (s : State) : SameBut ps s s := by
  intro p _; cases p <;> rfl

theorem SameBut.mono {ps qs : List Part} {s t : State} (h : SameBut ps s t) (hs : ps ⊆ qs) : SameBut qs s t :=
  fun p hp => h p fun hm => hp (hs hm)

theorem Part.Same.trans {p : Part} {s t u : State} (h : p.Same s t) (k : p.Same t u) : p.Same s u := by
  cases p <;> exact Eq.trans k h

theorem SameBut.trans {ps : List Part} {s t u : State} (h : SameBut ps s t) (k : SameBut ps t u) : SameBut ps s u :=
  fun p hp => (h p hp).trans (k p hp)

theorem RegsBut.refl (as : List Nat) (s : State) : RegsBut as s s := fun _ _ _ => rfl

theorem RegsBut.trans {as : List Nat} {s t u : State} (h : RegsBut as s t) (k : RegsBut as t u) : RegsBut as s u :=
  fun a ha hs => (k a ha hs).trans (h a ha hs)

theorem RegsBut.mono {as bs : List Nat} {s t : State} (h : RegsBut as s t) (hs : as ⊆ bs) : RegsBut bs s t :=
  fun a ha => h a fun hm => ha (hs hm)

/-- What leaves the register file alone leaves every register. -/
theorem RegsBut.of_regs {as : List Nat} {s t : State} (h : t.regs = s.regs) : RegsBut as s t :=
  fun a _ _ => by unfold State.reg; rw [h]

theorem SameBut.regs {ps : List Part} {s t : State} (h : SameBut ps s t) (hp : Part.regs ∉ ps) (a : Nat) :
    t.reg a = s.reg a := by
  have := h .regs hp
  unfold State.reg
  rw [show t.regs = s.regs from this]

/-! ### Single updates -/

theorem setReg_same (s : State) (a : Nat) (v : Word) : SameBut [.regs] s (s.setReg a v) := by
  intro p hp; cases p <;> first | rfl | simp at hp

theorem setReg_regs (s : State) (a : Nat) (v : Word) : RegsBut [a] s (s.setReg a v) := by
  intro b hb _; exact reg_setReg_ne s v (by simpa using hb)

/-- A register that events write may be set without a trace in `RegsBut`. -/
theorem setReg_signal (s : State) {a : Nat} (v : Word) (h : signalReg a = true) : RegsBut [] s (s.setReg a v) := by
  intro b _ hb
  exact reg_setReg_ne s v fun e => by rw [e, h] at hb; exact Bool.noConfusion hb

/-- Two states with the same everything but event parts. -/
theorem SameBut.event_of {s t : State} (h : ∀ p : Part, p ∉ eventParts → p.Same s t) : SameBut eventParts s t := h

/-! ### Events -/

theorem evtStatus_signal {w a : Nat} (h : evtStatus w = some a) : signalReg a = true := by
  have hw : winOk w = true := by
    unfold evtStatus at h
    split at h <;> first
      | rfl
      | (split at h
         · next hw =>
           unfold winOk
           rw [if_neg (show ¬ w < 64 by omega), Bool.or_eq_true, Bool.and_eq_true, decide_eq_true_eq, decide_eq_true_eq,
             decide_eq_true_eq]
           omega
         · split at h
           · next hw =>
             unfold winOk
             rw [if_neg (show ¬ w < 64 by omega), Bool.or_eq_true, Bool.and_eq_true, decide_eq_true_eq,
               decide_eq_true_eq, decide_eq_true_eq]
             omega
           · simp at h)
  have hlt : w < 128 := by
    unfold winOk at hw
    split at hw
    · omega
    · simp at hw; omega
  unfold signalReg
  rw [Bool.or_eq_true]
  refine .inl (List.any_eq_true.2 ⟨w, ?_, by simp [h]⟩)
  unfold windows
  exact List.mem_filter.2 ⟨List.mem_range.2 hlt, hw⟩

theorem signal_of_mem {a : Nat} (h : a ∈ [R.QP_STATUS 5, R.QP_PEAK 5, R.QP_OVR_CNT 5, R.HBR_ERR_STATUS,
    R.HBR_ERR_ADDR_LO, R.HBR_ERR_ADDR_HI, R.HBR_ERR_INFO, R.HBR_ERR_MERGED, R.AUD_SEQ]) : signalReg a = true := by
  unfold signalReg
  rw [Bool.or_eq_true]
  exact .inr (by simpa using h)

/-- A step of events: only event parts change, and only the registers that events write. -/
def EventStep (s t : State) : Prop := SameBut eventParts s t ∧ RegsBut [] s t

theorem EventStep.refl (s : State) : EventStep s s := ⟨.refl _ _, .refl _ _⟩

theorem EventStep.trans {s t u : State} (h : EventStep s t) (k : EventStep t u) : EventStep s u :=
  ⟨h.1.trans k.1, h.2.trans k.2⟩

theorem EventStep.setReg (s : State) {a : Nat} (v : Word) (h : signalReg a = true) : EventStep s (s.setReg a v) :=
  ⟨(setReg_same s a v).mono (by simp [eventParts]), setReg_signal s v h⟩

/-- A change of event parts other than the register file. -/
theorem EventStep.of_parts {s t : State} (hr : t.regs = s.regs) (h : SameBut [.qs, .sys, .out, .freeCtr] s t) :
    EventStep s t := ⟨h.mono (by simp [eventParts]), .of_regs hr⟩

theorem EventStep.incReg (s : State) {a : Nat} (h : signalReg a = true) : EventStep s (s.incReg a) := .setReg s _ h

theorem hbrCapture_event (s : State) (lo hi info : Word) : EventStep s (s.hbrCapture lo hi info) := by
  unfold State.hbrCapture
  split
  · exact .incReg s (signal_of_mem (by simp))
  · exact (((EventStep.setReg s _ (signal_of_mem (by simp))).trans (.setReg _ _ (signal_of_mem (by simp)))).trans
      (.setReg _ _ (signal_of_mem (by simp)))).trans (.setReg _ _ (signal_of_mem (by simp)))

theorem tickFree_event (s : State) : EventStep s s.tickFree :=
  .of_parts rfl (by intro p hp; cases p <;> first | rfl | simp at hp)

theorem emit_event (s : State) (o : Output) : EventStep s (s.emit o) :=
  .of_parts rfl (by intro p hp; cases p <;> first | rfl | simp at hp)

theorem setSys_event (s : State) (x : Sys) : EventStep s { s with sys := x } :=
  .of_parts rfl (by intro p hp; cases p <;> first | rfl | simp at hp)

theorem satCtr_event (s : State) (w k i : Nat) : EventStep s (s.satCtr w k i) := setSys_event s _

theorem badVector_event (s : State) : EventStep s s.badVector :=
  ((((tickFree_event s).trans (tickFree_event _)).trans (tickFree_event _)).trans (satCtr_event _ _ _ _)).trans
    (hbrCapture_event _ _ _ _)

theorem postLine_event (s : State) (n : Nat) : EventStep s (s.postLine n).1 := by
  unfold State.postLine
  dsimp only
  split
  · split
    · exact setSys_event s _
    · split
      · exact (setSys_event s _).trans (emit_event _ _)
      · exact (setSys_event s _).trans (badVector_event _)
  · exact .refl s

theorem moveLine_event (s : State) (w k : Nat) : EventStep s (s.moveLine w k).1 := by
  unfold State.moveLine
  dsimp only
  split
  · split
    · exact .refl s
    · exact (setSys_event s _).trans (postLine_event _ _)
  · split
    · exact setSys_event s _
    · exact .refl s

theorem setQueue_event (s : State) (q : Nat) (v : Queue) : EventStep s (s.setQueue q v) :=
  .of_parts rfl (by intro p hp; cases p <;> first | rfl | simp at hp)

theorem noteDepth_event (s : State) : EventStep s (s.noteDepth 5) := by
  have h1 : ∀ t : State, EventStep t (t.setQStat 5 2) := fun t => .setReg t _ (signal_of_mem (by simp))
  unfold State.noteDepth
  dsimp only
  split <;> split
  · exact (EventStep.setReg s _ (signal_of_mem (by simp))).trans (h1 _)
  · exact .setReg s _ (signal_of_mem (by simp))
  · exact h1 s
  · exact .refl s

theorem pushFlag_event (s : State) (ws : List Word) : EventStep s (s.pushFlag 5 ws) := by
  unfold State.pushFlag
  split
  · exact (EventStep.setReg s _ (signal_of_mem (by simp))).trans (.setReg _ _ (signal_of_mem (by simp)))
  · exact (setQueue_event s _ _).trans (noteDepth_event _)

theorem setEvent_event (s : State) (w b : Nat) : EventStep s (s.setEvent w b).1 := by
  unfold State.setEvent
  split
  · exact .refl s
  · next a h =>
    dsimp only
    split
    · exact .setReg s _ (evtStatus_signal h)
    · exact ((EventStep.setReg s _ (evtStatus_signal h)).trans (setSys_event _ _)).trans (pushFlag_event _ _)

theorem evalLine_event (s : State) (w k : Nat) : EventStep s (s.evalLine w k) := by
  unfold State.evalLine
  dsimp only
  split
  · split
    · exact (((moveLine_event s w k).trans (setEvent_event _ _ _)).trans (moveLine_event _ _ _)).trans (moveLine_event _ _ _)
    · exact (moveLine_event s w k).trans (setEvent_event _ _ _)
  · exact moveLine_event s w k

theorem evalWindow_event (s : State) (w : Nat) : EventStep s (s.evalWindow w) :=
  ((evalLine_event s w 0).trans (evalLine_event _ _ _)).trans (evalLine_event _ _ _)

theorem raise_event (s : State) (w b : Nat) : EventStep s (s.raise w b) := by
  unfold State.raise
  dsimp only
  split
  · exact ((setEvent_event s w b).trans (evalLine_event _ _ _)).trans (evalLine_event _ _ _)
  · exact setEvent_event s w b

/-- Raising an event touches event parts only. -/
theorem raise_same (s : State) (w b : Nat) : SameBut eventParts s (s.raise w b) := (raise_event s w b).1

/-- Raising an event writes only registers that events write. -/
theorem raise_regs (s : State) (w b : Nat) : RegsBut [] s (s.raise w b) := (raise_event s w b).2

/-! ### Audit entries -/

/-- A step of an audit entry: log parts change, and only the registers that events and entries write. -/
def LogStep (s t : State) : Prop := SameBut logParts s t ∧ RegsBut [] s t

theorem LogStep.refl (s : State) : LogStep s s := ⟨.refl _ _, .refl _ _⟩

theorem LogStep.trans {s t u : State} (h : LogStep s t) (k : LogStep t u) : LogStep s u :=
  ⟨h.1.trans k.1, h.2.trans k.2⟩

theorem EventStep.log {s t : State} (h : EventStep s t) : LogStep s t :=
  ⟨h.1.mono (by simp [logParts]), h.2⟩

theorem setAud_log (s : State) (x : Aud) : LogStep s { s with aud := x } :=
  ⟨by intro p hp; cases p <;> first | rfl | simp [logParts] at hp, .of_regs rfl⟩

theorem raiseIf_log (s : State) (c : Bool) (w b : Nat) : LogStep s (if c then s.raise w b else s) := by
  split
  · exact (raise_event s w b).log
  · exact .refl s

/-- One entry in the pending buffer touches log parts only. -/
theorem putEntry_log (s : State) (o p a : Nat) (x y : Word) : LogStep s (s.putEntry o p a x y) := by
  unfold State.putEntry
  dsimp only
  exact (((setAud_log s _).trans (EventStep.setReg _ _ (signal_of_mem (by simp))).log).trans
    (raiseIf_log _ _ _ _)).trans (raiseIf_log _ _ _ _)

/-- With room in the log and no GAP record owed, an entry is one entry. -/
theorem addEntry_room {s : State} (h : s.reserveOut = false) (g : s.aud.gap = 0) (o p a : Nat) (x y : Word) :
    s.addEntry o p a x y = s.putEntry o p a x y := by
  unfold State.addEntry
  simp only [h, g, Bool.false_eq_true, if_false, Nat.lt_irrefl]

theorem logWrite_log {s : State} (h : s.reserveOut = false) (g : s.aud.gap = 0) (m : Master) (a : Nat) (x y : Word) :
    LogStep s (s.logWrite m a x y) := by
  unfold State.logWrite
  rw [addEntry_room h g]
  exact putEntry_log _ _ _ _ _ _

end Sys2Proof.Machine
end

