-- ==== Sys2Proof/Laws/Access.lean ====
section
/-! SUPPORT. What an access comes to: the location of a register, and a 4-byte write that is taken. -/

namespace Sys2Proof.Machine

/-- An address inside a window is the window's base and the offset, and lies in the register space. -/
theorem winOf_some {a w off : Nat} (h : winOf a = some (w, off)) : winBase w + off = a ∧ regionOf a = .regs := by
  unfold winOf at h
  have region : ∀ {a : Nat}, 0x10000000 ≤ a → a < 0x10370000 → regionOf a = .regs := by
    intro a h1 h2
    unfold regionOf within
    have e1 : ¬ a < 0x40000 := by omega
    have e2 : (decide (0x08000000 ≤ a) && decide (a ≤ 0x081FFFFF)) = false := by simp; omega
    have e3 : (decide (0x10000000 ≤ a) && decide (a ≤ 0x103FFFFF)) = true := by simp; omega
    simp [e1, e2, e3]
  split at h
  · simp at h
  · split at h
    · dsimp only at h
      split at h
      · next h1 h2 h3 =>
        simp only [Option.some.injEq, Prod.mk.injEq] at h
        obtain ⟨rfl, rfl⟩ := h
        refine ⟨?_, region (by omega) (by omega)⟩
        unfold winBase
        rw [if_pos (by omega)]
        omega
      · simp at h
    · split at h
      · next h1 h2 h3 =>
        simp only [Option.some.injEq, Prod.mk.injEq] at h
        obtain ⟨rfl, rfl⟩ := h
        refine ⟨?_, region (by omega) (by omega)⟩
        unfold winBase
        rw [if_neg (by omega), if_pos (by omega)]
        omega
      · split at h
        · next h1 h2 h3 h4 =>
          simp only [Option.some.injEq, Prod.mk.injEq] at h
          obtain ⟨rfl, rfl⟩ := h
          refine ⟨?_, region (by omega) (by omega)⟩
          unfold winBase
          rw [if_neg (by omega), if_neg (by omega), if_pos (by omega)]
          omega
        · split at h
          · next h1 h2 h3 h4 h5 =>
            simp only [Option.some.injEq, Prod.mk.injEq] at h
            obtain ⟨rfl, rfl⟩ := h
            refine ⟨?_, region (by omega) (by omega)⟩
            unfold winBase
            rw [if_neg (by omega), if_neg (by omega), if_neg (by omega)]
            omega
          · split at h
            · next h1 h2 h3 h4 h5 h6 =>
              simp only [Option.some.injEq, Prod.mk.injEq] at h
              obtain ⟨rfl, rfl⟩ := h
              refine ⟨?_, region (by omega) (by omega)⟩
              unfold winBase
              rw [if_pos (by omega)]
              omega
            · simp at h

theorem findRow_place {w off : Nat} {rs : List Row} {o : Nat} {l : Loc} (h : findRow w off rs o = some l) :
    l.win = w ∧ l.off = off := by
  induction rs with
  | nil => simp [findRow] at h
  | cons r rs ih =>
    unfold findRow at h
    split at h
    · simp only [Option.some.injEq] at h
      exact h ▸ ⟨rfl, rfl⟩
    · exact ih h

/-- The register found at an address carries the address's window and offset. -/
theorem regAt_place {a : Nat} {l : Loc} (h : regAt a = some l) :
    winOf a = some (l.win, l.off) ∧ winBase l.win + l.off = a ∧ regionOf a = .regs := by
  unfold regAt at h
  split at h
  · next w off hw =>
    have hl : l.win = w ∧ l.off = off := by
      unfold locate at h
      split at h
      · exact findRow_place h
      · split at h
        · exact findRow_place h
        · exact findRow_place h
    rw [hl.1, hl.2]
    exact ⟨hw, winOf_some hw⟩
  · simp at h

/-- A write that nothing stands against is judged taken. -/
theorem Writable.judged {s : State} {m : Master} {a v : Nat} {l : Loc} (h : Writable s m a v l) :
    s.judge m l (word v) = .taken := by
  have hp := (regAt_place h.found).2.1
  unfold State.judge
  simp only [hp]
  have h1 : (l.row.sec && !secureMaster s m) = false := by
    cases hs : l.row.sec
    · rfl
    · simp [h.secure hs]
  have h2 : (l.row.acc == .ro || l.row.acc == .rc || fixedPart l) = false := by
    obtain ⟨x, y, z⟩ := h.writes
    simp [x, y, z]
  have h3 : ((l.row.acc == .wl && s.sys.wlDone.contains a) ||
      (l.row.acc == .wlc && s.regBit (winBase l.win + 0x20) 0)) = false := by
    obtain ⟨x, y⟩ := h.unlocked
    by_cases e1 : l.row.acc = .wl
    · simp [e1, x e1]
    · by_cases e2 : l.row.acc = .wlc
      · simp [e2, y e2]
      · simp [e1, e2]
  have h4 : (!s.valueOk m l (word v &&& inMask l) ||
      (decide (a = R.GRD_APPLY) && bitOf (word v) 0 && (s.applyError none).isSome)) = false := by
    rw [h.legal]
    by_cases e1 : a = R.GRD_APPLY
    · by_cases e2 : bitOf (word v) 0 = true
      · simp [h.applies e1 e2]
      · simp [e2]
    · simp [e1]
  have h5 : (l.row.log && s.holding && !safetyWrite m a) = false := by
    cases hl : l.row.log
    · rfl
    · rcases (h.room hl).1 with e | e <;> simp [e]
  simp only [h1, h2, h3, h4, h5, Bool.false_eq_true, if_false]

theorem Writable.open {s : State} {m : Master} {a v : Nat} {l : Loc} (h : Writable s m a v l) :
    (debugClosed s m || (inbound m && !s.fnReach m a)) = false := by
  have hr := (regAt_place h.found).2.2
  rw [h.reaches.1]
  cases hi : inbound m
  · rfl
  · simp [State.fnReach, h.reaches.2 hi, hr]

/-- A 4-byte write that is taken: the write's effect, the bus's answer, and what waited. -/
theorem access_writable {s : State} {m : Master} {a v : Nat} {l : Loc} (h : Writable s m a v l) (bad : Bool) :
    s.access m a 4 true v bad = (s.take m l (word v) bad).respond .done := by
  obtain ⟨hw, hp, hr⟩ := regAt_place h.found
  have hpow : powered s (domainOf l.win) = true ∧ inReset s (domainOf l.win) = false := by
    have := h.up; simpa [alive] using this
  have hvf : (true && inbound m && m.origin != 0x20 && s.ringView (m.origin - 0x20) a) = false := by
    cases hi : inbound m
    · rfl
    · simp [h.reaches.2 hi]
  have hsz : sizeOk a 4 true = true := by
    unfold sizeOk
    rw [hr]
    exact Bool.or_eq_true_iff.2 (.inl (by rw [h.aligned]; rfl))
  have hneeds : (s.needsEntry m l .taken && !s.auditReady) = false := by
    have hn : s.needsEntry m l .taken = l.row.log := rfl
    rw [hn]
    by_cases hl : l.row.log = true
    · rw [(h.room hl).2.1, Bool.not_true, Bool.and_false]
    · rw [Bool.eq_false_iff.2 hl, Bool.false_and]
  unfold State.access
  rw [h.open, hvf, hr]
  simp only [Bool.false_eq_true, if_false]
  unfold State.regAccess
  simp only [hw, hpow.1, hpow.2, hsz, h.granted, Bool.not_true, Bool.false_eq_true, if_false, if_true]
  unfold State.regWrite
  simp only [h.found, show (4 : Nat) = 8 ↔ False by decide, if_false]
  unfold State.writeAt
  simp only [h.judged, hneeds, Bool.false_eq_true, if_false, State.finish]

theorem put_writable {s : State} {m : Master} {a v : Nat} {l : Loc} (h : Writable s m a v l) :
    s.put m a v = ((s.take m l (word v) false).respond .done).settle := by
  rw [State.put, access_writable h]

/-! ### What a taken write does -/

/-- The state in which a taken write's action begins: the entry made, a W1L register marked, the value stored. -/
def State.prepared (s : State) (m : Master) (l : Loc) (v : Word) : State :=
  let a := winBase l.win + l.off
  let w := v &&& inMask l
  let new := s.after l (s.reg a) w
  let s := if l.row.log then s.logWrite m a (if l.row.acc == .wo then 0 else s.liveAt l) new else s
  let s := if l.row.acc == .wl then { s with sys := { s.sys with wlDone := a :: s.sys.wlDone } } else s
  if stored l then s.setReg a new else s

/-- A taken write: its action, from the prepared state, then the window's interrupt lines. -/
theorem take_prepared (s : State) (m : Master) (l : Loc) (v : Word) (bad : Bool) :
    s.take m l v bad =
      ((s.prepared m l v).wrote m l (s.reg (winBase l.win + l.off))
        (s.after l (s.reg (winBase l.win + l.off)) (v &&& inMask l)) (v &&& inMask l) bad).evalWindow l.win := rfl

/-- Preparing a write touches log parts, and beside what entries write only the register itself. -/
theorem prepared_frame {s : State} {m : Master} {a v : Nat} {l : Loc} (h : Writable s m a v l) :
    SameBut logParts s (s.prepared m l (word v)) ∧ RegsBut [a] s (s.prepared m l (word v)) := by
  have hp := (regAt_place h.found).2.1
  unfold State.prepared
  simp only [hp]
  have h1 : ∀ x y : Word, LogStep s (if l.row.log then s.logWrite m a x y else s) := fun x y => by
    split
    · next hl => exact logWrite_log (h.room hl).2.2.1 (h.room hl).2.2.2 m a x y
    · exact .refl s
  have h2 : ∀ t : State, LogStep t
      (if (l.row.acc == .wl) = true then { t with sys := { t.sys with wlDone := a :: t.sys.wlDone } } else t) :=
    fun t => by
      split
      · exact (setSys_event t _).log
      · exact .refl t
  have h3 := (h1 (if (l.row.acc == .wo) = true then 0 else s.liveAt l) (s.after l (s.reg a) (word v &&& inMask l))).trans
    (h2 _)
  split
  · exact ⟨h3.1.trans ((setReg_same _ _ _).mono (by simp [logParts, eventParts])),
      (h3.2.mono (by simp)).trans (setReg_regs _ _ _)⟩
  · exact ⟨h3.1, h3.2.mono (by simp)⟩

/-- The register of a prepared write holds the new value where the write is stored. -/
theorem prepared_reg {s : State} {m : Master} {l : Loc} {v : Word} (h : stored l = true) :
    (s.prepared m l v).reg (winBase l.win + l.off) =
      s.after l (s.reg (winBase l.win + l.off)) (v &&& inMask l) := by
  unfold State.prepared
  simp [h]

/-- An unlogged write is prepared without an entry. -/
theorem prepared_unlogged {s : State} {m : Master} {l : Loc} {v : Word} (h : l.row.log = false) (hw : l.row.acc ≠ .wl) :
    s.prepared m l v =
      if stored l then s.setReg (winBase l.win + l.off) (s.after l (s.reg (winBase l.win + l.off)) (v &&& inMask l))
      else s := by
  unfold State.prepared
  simp [h, hw]

/-- A command that writes a register, where the write is taken: the prepared state, the register's action, the window's
lines, the bus's answer; then what waited. -/
theorem put_prepared {s : State} {m : Master} {a v : Nat} {l : Loc} (h : Writable s m a v l) :
    s.put m a v =
      ((((s.prepared m l (word v)).wrote m l (s.reg a) (s.after l (s.reg a) (word v &&& inMask l)) (word v &&& inMask l)
        false).evalWindow l.win).respond .done).settle := by
  rw [put_writable h, take_prepared, (regAt_place h.found).2.1]

/-! ### Deciding that a write is taken -/

/-- `Writable`, as a Bool. -/
def writable (s : State) (m : Master) (a v : Nat) (l : Loc) : Bool :=
  (!debugClosed s m && (!inbound m || m.origin == 0x20)) && a % 4 == 0 && decide (regAt a = some l) &&
  alive s (domainOf l.win) && windowGranted s m l.win && (!l.row.sec || secureMaster s m) &&
  (l.row.acc != .ro && l.row.acc != .rc && !fixedPart l) &&
  ((l.row.acc != .wl || !s.sys.wlDone.contains a) && (l.row.acc != .wlc || !s.regBit (winBase l.win + 0x20) 0)) &&
  s.valueOk m l (word v &&& inMask l) &&
  (a != R.GRD_APPLY || !bitOf (word v) 0 || (s.applyError none).isNone) &&
  (!l.row.log || ((!s.holding || safetyWrite m a) && s.auditReady && !s.reserveOut && s.aud.gap == 0))

theorem writable_iff {s : State} {m : Master} {a v : Nat} {l : Loc} (h : writable s m a v l = true) :
    Writable s m a v l := by
  simp only [writable, Bool.and_eq_true, Bool.or_eq_true, Bool.not_eq_true', beq_iff_eq, bne_iff_ne, ne_eq,
    decide_eq_true_eq, Option.isNone_iff_eq_none] at h
  obtain ⟨⟨⟨⟨⟨⟨⟨⟨⟨⟨⟨h1, h1'⟩, h2⟩, h3⟩, h4⟩, h5⟩, h6⟩, h7⟩, h8⟩, h9⟩, h10⟩, h11⟩ := h
  refine ⟨⟨h1, fun e => h1'.resolve_left (by simp [e])⟩, h2, h3, h4, h5, fun e => h6.resolve_left (by simp [e]),
    ⟨h7.1.1, h7.1.2, h7.2⟩, ⟨fun e => by simpa using h8.1.resolve_left (fun k => k e),
      fun e => h8.2.resolve_left (fun k => k e)⟩, h9, fun e b => ?_, fun e => ?_⟩
  · rcases h10 with (h | h) | h
    · exact absurd e h
    · rw [b] at h; exact Bool.noConfusion h
    · exact h
  · obtain ⟨⟨⟨x, y⟩, z⟩, w⟩ := h11.resolve_left (by simp [e])
    exact ⟨x, y, z, w⟩

end Sys2Proof.Machine
end

