-- ==== Sys2Proof/Tests/Slice0.lean ====
section
/-! SUPPORT. Tests: the spec's worked examples, terms that WellFormed refuses, and, for every statement with hypotheses, a
theorem `met_<name>` that shows for each of its clauses a state and operands that meet all the hypotheses together. -/

set_option Elab.async false
set_option maxRecDepth 100000
set_option linter.unusedVariables false

namespace Sys2Proof.Tests
open Sys2Proof Sys2Proof.Machine

/-! ### The spec's worked examples -/

/-- R24's example: bit 5 of BLK_LOCK in the SWC window. -/
theorem test_bit_address : bitAddress 0x10080020 5 = 0x31000414 := by decide +kernel

/-- R193's examples: 10.20.0.0/14 and 10.0.0.0/8. -/
theorem test_filter_slots :
    filterSlots 6 [10, 20, 0, 0, 14] = [0x0A1] ∧ filterSlots 6 [10, 0, 0, 0, 8] = List.range' 0x0A0 16 := by decide +kernel

/-- R254's example: a 12-bit big-endian field with START 7, least significant bit first. -/
theorem test_field_bits : fieldBits 7 12 true = [12, 13, 14, 15, 0, 1, 2, 3, 4, 5, 6, 7] := by decide +kernel

/-- R515's example: a record with 40 stored bytes and an origin block takes 96 bytes. -/
theorem test_record_size : 16 * recGranules 40 true = 96 := by decide +kernel

/-- The check value of CRC-32C, which R176 names, over the digits 1 to 9. -/
theorem test_crc32c :
    crc32c 0xFFFFFFFF#32 ((List.range 9).map fun i => byte (49 + i)) ^^^ 0xFFFFFFFF#32 = 0xE3069283#32 := by
  decide +kernel

/-- The example of FIPS 197, which R478 names, appendix C.1. -/
theorem test_aes :
    aesEnc ((List.range 16).map byte) ((List.range 16).map fun i => byte (i * 17)) =
      [0x69, 0xC4, 0xE0, 0xD8, 0x6A, 0x7B, 0x04, 0x30, 0xD8, 0xCD, 0xB7, 0x80, 0x70, 0xB4, 0xC5, 0x5A] := by decide +kernel

/-! ### Terms that WellFormed refuses -/

/-- Every check of WellFormed, in its order, refuses a term that fails it. -/
theorem test_ill_formed : ∀ i ∈ ([.rngRead ⟨3, .machine⟩, .registerWrite keeper (2 ^ 48) 4 0, .registerWrite keeper 0 4 (2 ^ 32), .rcRead keeper 0 0,
    .bitAliasWrite keeper 0x38000000 0, .blkLockSet keeper 0 (2 ^ 32), .accessSizeError keeper 0 true [],
    .blkLockSet keeper 7 0, .irqRouteRewrite keeper 512 0, .paceLost 0, .foxMeasUpdate 64 0, .foxRuleWrite keeper 128 0 0,
    .foxRuleWrite keeper 0 4 0, .foxFgrpWrite keeper 32 0] ++
  [.queueWordWrite 37 0 0, .qmgSpillWrite keeper 8 true 0, .ingressHeaderEnd 29 64 [], .cbResetTimeout 256,
    .egressSelect 29, .timedLaunchDue 1024, .ethLinkUp 0 0, .canRxError 24 0 true true,
    .canFrameReceived 0 0 ⟨.classic, false, false, false, false, 2 ^ 11, 0, 0, 0, 0, false, []⟩, .canRxError 0 8 true true,
    .tpTimeout 0 256 0 0, .tpTimeout 0 0 256 0, .tpTimeout 0 0 0 (2 ^ 18), .tpTxSessionStart 0 (2 ^ 32)] ++
  [.linSlotStart 8, .linHeaderReceived 0 64, .linResponseReceived 0 8 [], .linResponseReceived 0 0 (List.replicate 9 0),
    .meHang 16, .cellWrite keeper 65536 true [0], .cellWrite keeper 0 true [], .cellWrite keeper 0 true (List.replicate 17 0),
    .packPeriodicEmit 8192, .routeImageLoad (2 ^ 48) 0, .routeImageLoad 0 256,
    .pdelayReqReceived 0 65536 0 (List.replicate 10 0), .pdelayReqReceived 0 0 0 [], .syncReceived 0 256 0 0 true 0 0 0,
    .followUpTimeout 3] ++
  [.cmplStall 128, .ringEnable keeper 3 16 0, .pcieFunctionStop 8 true, .aqeneRetry (2 ^ 16), .bar4Access false 0 0 [],
    .bar4Access true 0 2 [0], .vfDoorbellWrite 0 0 0, .vfDoorbellWrite 8 0 0, .vfDoorbellWrite 1 32 0,
    .vfDoorbellWrite 1 0 (2 ^ 32), .outboundRead keeper 0 4, .outboundWrite keeper 0x800000000000 [],
    .outboundCompletion 0 8 [], .pcieLinkUp 5 8 [8]] ++
  [.jobCmac keeper 512 0 0 0 0 0, .jobDone true (some 8), .cipherAlarm 1 true, .cipherAlarm 6 true, .saRead keeper (2 ^ 15),
    .fvSet keeper 4096, .vaultLoad keeper 512 0, .vaultLoad keeper 0 2048, .powerGoodTimeout 16, .tc10SleepAck 29,
    .wakeSource 16 true 0, .coldPowerOn 3, .configExport keeper (2 ^ 48) 0, .configExport keeper 0 (2 ^ 48)] : List Instr),
    i.wellFormed = false := by decide +kernel

/-- WellFormed takes commands at the ends of their operands' ranges. -/
theorem test_well_formed :
    ∀ i ∈ [Instr.registerWrite keeper (2 ^ 48 - 1) 4 (2 ^ 32 - 1), .queueWordWrite 79 0 0, .egressSelect 103,
      .canFrameReceived 23 0 ⟨.xl, true, false, false, false, 2 ^ 29 - 1, 0, 0, 0, 0, false, []⟩, .ringEnable keeper 4 127 0,
      .vfDoorbellWrite 7 31 0, .jobCmac keeper 511 511 0 0 0 0, .coldPowerOn 2], i.wellFormed = true := by decide +kernel

/-! ### States for the witnesses -/

/-- The state after reset with these registers. -/
def st (l : List (Nat × Word)) : State := l.foldl (fun s e => s.setReg e.1 e.2) State.reset

/-- The register at an address. -/
def locOf (a : Nat) : Loc := (regAt a).getD ⟨⟨"", 0, 1, 0, 1, 4, .ro, false, 0, .b, false, 0, false, .all⟩, 0,
    0, 0, 0⟩

/-- A property of what an option holds. -/
theorem ofOption {α : Type} {o : Option α} {p : α → Prop} [DecidablePred p] (h : o.all (fun x => decide (p x)) =
    true) :
    ∀ x, o = some x → p x := fun x e => by subst e; simpa using h

/-- An item with these words from producer p. -/
def item (p : Nat) (ws : List Word) (done : Bool := true) : QItem := ⟨ws, done, false, p, 0⟩

/-- Queue q holds these items. -/
def withQ (s : State) (q : Nat) (items : List QItem) : State := s.setQueue q
    { Queue.empty with items := items, head := items.length }

/-- TB3 stands at this many nanoseconds. -/
def at3 (s : State) (ns : Nat) : State :=
    { s with tim := { s.tim with tb3 := { s.tim.tb3 with val := ns * frac32 } } }

/-- A copy of frame 0 for class tc of port p. -/
def copy0 (p tc : Nat) : Copy := ⟨1, 0, p, tc, false, false, 0, 0, false, 0, none, 0, 0, false, 0, 0,
    Edits.none, none, .line, 0, 0, 0⟩

/-- A frame that goes to port e in class tc. -/
def res0 (e tc : Nat) : Resolved := ⟨[e], tc, 0, 1, false, false, [], false, 0, Edits.none, false, 0, none,
    .line, 0, [0, 0, 0, 0], none⟩

/-- A stored Ethernet frame of 64 bytes. -/
def frame0 : Frame := ⟨List.replicate 64 1, false, 1, 1, 0, 1, [0, 0, 0, 0]⟩

/-- Links up on ports 1 and 2, frame 0 stored, one copy of it queued on port p, class tc. -/
def swc0 (s : State) (p tc : Nat) : State :=
    { s with swc := { s.swc with link := [(1, 1000), (2, 1000)], frames := [(0, frame0)], nextId := 1, queues := [(p * 8 + tc, [copy0 p tc])] } }

/-- Links are up on ports 1 and 2. -/
def linked (s : State) : State := { s with swc := { s.swc with link := [(1, 1000), (2, 1000)] } }

/-- What leaves port p when copy c is selected, and the state then. -/
def sent (s : State) (p tc : Nat) (c : Copy) (rest : List Copy) : Bytes × State :=
  match State.wayOutEth ((s.setCopies (p * 8 + tc) rest).setSwc
        { (s.setCopies (p * 8 + tc) rest).swc with
          tx := kvSet (s.setCopies (p * 8 + tc) rest).swc.tx p ⟨c, [], false, false, s.now⟩ }) c with
  | (.sent line, s') => (line, s')
  | (_, s') => ([], s')

/-- Port p is enabled. -/
def on (p : Nat) : Nat × Word := (R.SWC_PCTL p, 1)

/-- The guards are applied, ALIVE_OUT toggles, port p has its rates. -/
def guardRegs (p : Nat) : List (Nat × Word) := [(R.GRD_STATUS, 1), (R.ALV_STATUS, 1), (R.GRD_FRATE p,
    0x00500010), (R.GRD_BRATE p, 0x1000), (R.GRD_BBURST p, 0x10000)]

/-- Every Ethernet copy passes the guard's rules of port p. -/
def guardOpen (s : State) (p : Nat) : State :=
    { s with grd := { s.grd with rules := [(p * 64, [0,0,0,0,0,0,0,0,0,0,1,0])] } }

/-- Registers r 0, r 1, … with these values. -/
def setAll (s : State) (r : Nat → Nat) (ws : List Nat) : State := (ws.zipIdx).foldl (fun s x => s.setReg (r x.2)
    (word x.1)) s

/-- Command words in the mailbox, its data words, started by the keeper. -/
def mboxed (s : State) (cmd data : List Nat) : State :=
  let s := setAll (setAll s R.TBL_MCMD cmd) R.TBL_MDATA data
  { s with tbl := { s.tbl with mgo := some keeper } }

/-- An entry of the MAC table. -/
def macE (fl : Nat) : Bytes := ofWords [0x11111111, 0x00012222, word fl, 0]

/-- The MAC table holds it in slot k. -/
def macAt (s : State) (k fl : Nat) : State := { s with tbl := { s.tbl with mac := [(k, macE fl)] } }

/-- The words of a table command. -/
def cmdW (op table count cursor : Nat) : List Nat := [op + table * 256 + count * 65536, 7, 0, 0, 0, 0, cursor, 0]

/-- Its key. -/
def keyM : Bytes := keyOf 4 (macE 0)

/-- The first slot of its bucket. -/
def slotM : Nat := 4 * (State.reset.buckets 4 0 keyM).1

/-- CAN channel n runs. -/
def canRegs (n : Nat) : List (Nat × Word) := [(R.CAN_CFG n, 0x012005), (R.CAN_TDC n, 0), (R.MEC_CTRL, 0xFFFF),
    (R.SWC_PCTL (64 + n), 1), (R.SWC_PSCHED (64 + n), 0)]

/-- LIN channel n runs. -/
def linRegs (n : Nat) : List (Nat × Word) := [(R.LIN_CFG n, 0x4B0000B7), (R.MEC_CTRL, 0xFFFF), (R.SWC_PCTL (96 +
    n), 1), (R.SWC_PSCHED (96 + n), 0)]

/-- The guard of bus port p lets every identifier pass. -/
def guardBus (s : State) (p : Nat) : State :=
    { s with grd := { s.grd with idMap := [(guardMap p, List.replicate 256 0xFF)], pairs := [(guardMap p * 64, ofWords [0xE0000000, 0])] } }

/-- A stored CAN frame of channel n. -/
def busBytes (n : Nat) : Bytes := mkBus (idWord 0x123 false false) 0 0 0 2 0 n 0 0 [1, 2]

/-- A bus frame with these bytes. -/
def bframe (b : Bytes) : Frame := ⟨b, true, 33, 1, 0, 1, [0, 0, 0, 0]⟩

/-- A bus frame with these bytes stored as frame 0, one copy of it queued on port p, class tc. -/
def busQ (s : State) (p tc : Nat) (b : Bytes) : State :=
    { s with swc := { s.swc with frames := [(0, bframe b)], nextId := 1, queues := [(p * 8 + tc, [copy0 p tc])] } }

/-- A bus frame with these bytes is on the line of port p. -/
def busTx (s : State) (p tc : Nat) (b : Bytes) (c : Copy) : State :=
    { s with swc := { s.swc with frames := [(0, bframe b)], nextId := 1, queues := [], tx := [(p, ⟨c, b, true, false, 0⟩)] } }

/-- A classical CAN frame. -/
def canF : CanFrame := ⟨.classic, false, false, false, false, 0x123, 2, 0, 0, 0, false, [1, 2]⟩

/-- An extended CAN frame of eight bytes. -/
def tpF (id : Nat) (d : Bytes) : CanFrame := ⟨.classic, true, false, false, false, id, 8, 0, 0, 0, false, d⟩

/-- What leaves CAN channel n when copy c is selected, and the state then. -/
def sentCan (s : State) (n tc : Nat) (c : Copy) (rest : List Copy) : Bytes × State :=
  match State.wayOutCan ((s.setCopies ((64 + n) * 8 + tc) rest).setSwc
      { (s.setCopies ((64 + n) * 8 + tc) rest).swc with
        tx := kvSet s.swc.tx (64 + n) ⟨{ c with attempts := c.attempts + 1 }, [], false, false, s.now⟩ })
      { c with attempts := c.attempts + 1 } with
  | (.sent line, s') => (line, s')
  | (_, s') => ([], s')

/-- CAN channel n is in this state. -/
def canHas (s : State) (n : Nat) (c : CanCh) : State := s.setCanCh n c

/-- A copy that is on the line. -/
def txc (p tc : Nat) (b : Bytes) (c : Copy) : TxCopy := ⟨c, b, true, false, 0⟩

/-- A reception session. -/
def tpRx0 (n e : Nat) (total : Nat) (got : Bytes) : TpRx :=
    { ch := n, entry := e, sa := 5, da := 0xFF, pgn := 0xFECA, prio := 6, total := total, etp := false, bam := true, got := got, next := got.length / 7 + 1, clear := 0, last := 0, wait := 750 }

/-- Transport entry 3 of channel n. -/
def tpRegs (n : Nat) : List (Nat × Word) := canRegs n ++ [(R.MEC_TPPGN 3 0, 0x8000FECA), (R.MEC_TPPGN 3 1,
    0xFFFFFF), (R.MEC_TPPGN 3 2, 7), (R.MEC_TP_BASE, 4)]

/-- A segment of a transport message. -/
def tpSeg (n : Nat) : Bytes := mkBus (idWord (6 * 2 ^ 26 + 0xFECA * 256 + 5) true false) 4 0 1 0 9 n 1 0
    (List.replicate 9 3)

/-- A route image of one empty directory section. -/
def img0 : Bytes := [0x50, 0x47, 0x52, 0x54, 1, 0, 0, 0, 0x60, 9, 0, 0, 5, 0, 0, 0, 1, 0, 0, 0, 176, 0, 0, 0, 1,
    0] ++ List.replicate 38 0 ++
  [0x10, 0, 0, 0, 80, 0, 0, 0] ++ List.replicate 8 0 ++ List.replicate 96 0

/-- Memory holds these bytes from address a on. -/
def withMem (s : State) (a : Nat) (bs : Bytes) : State := s.write a bs

/-- Cell n has this attribute. -/
def attr (s : State) (n : Nat) (w : Nat) : State :=
    { s with sig := { s.sig with act := { s.sig.act with attr := memWrite s.sig.act.attr (n * 4) (leBytes 4 w) } } }

/-- Packing rule n has these words. -/
def pack (s : State) (n : Nat) (ws : List Word) : State :=
    { s with sig := { s.sig with act := { s.sig.act with pack := memWrite s.sig.act.pack (n * 32) (ofWords ws) } } }

/-- Port p measures its peer. -/
def pdRegs (p : Nat) : List (Nat × Word) := [(R.TIM_PORT_CFG p, 0x00017F08), (R.TIM_CTRL, 3),
    (R.TIM_PORT_STEP_THR p, 100)]

/-- The measurement of port p is in this state. -/
def pdSt (p : Nat) (d : PortDelay) : State :=
    { linked (st (pdRegs p)) with tim := { State.reset.tim with pd := [(p, d)] } }

/-- Time base n is changed. -/
def tb0S (s : State) (n : Nat) (f : TimeBase → TimeBase) : State := s.setTb n (f (s.tb n))

/-- A GNSS sentence without its check sum. -/
def zda0 : Bytes := [0x24, 0x47, 0x50, 0x5A, 0x44, 0x41, 0x2C, 0x31, 0x32, 0x30, 0x30, 0x30, 0x30, 0x2E, 0x30,
    0x30, 0x2C, 0x30, 0x31, 0x2C, 0x30, 0x31, 0x2C, 0x32, 0x30, 0x32, 0x34, 0x2C, 0x2C]

/-- It with its check sum. -/
def zdaS : Bytes :=
  let x := (zda0.drop 1).foldl (fun (x : Byte) b => x ^^^ b) 0
  let hex (n : Nat) : Byte := byte (if n < 10 then 48 + n else 55 + n)
  zda0 ++ [0x2A, hex (x.toNat / 16), hex (x.toNat % 16), 13, 10]

/-- Actuator 3, template 5 (Ethernet, stream 7, 64 bytes), stream 7 to port 2, class 7 (queue 23). -/
def pleB : PleBank := ⟨memWrite [] 96 (ofWords [0, 0, 0, 0x84000000, 0, 0, 0, 0]), memWrite [] 80 (ofWords
    [0x00400007, 0, 0, 0x81]), memWrite [] 0 (List.replicate 64 5)⟩

/-- The placement engine holds pleB. -/
def pleS (s : State) : State :=
    { s with ple := { s.ple with act := pleB }, tbl := { s.tbl with act := { s.tbl.act with stream := [(7, ofWords [0x9E020007, 0, 0, 0, 0, 0, 0, 0])] } } }

/-- The bytes of an order. -/
def ordB (op fl id : Nat) : Bytes := ofWords [word (op + fl * 256 + 3 * 65536), 0x00170005, word id, 0x00010001,
    100, 200, 300, 400, 100, 200, 300, 400, 0, 0, 0, 0]

/-- The order. -/
def ordO (op fl id : Nat) : PleOrder := orderOf 255 0x55 0 (ordB op fl id)

/-- Its item. -/
def ordIt (op fl id : Nat) : QItem := item 0x55 (toWords (ordB op fl id))

/-- The intake holds it. -/
def pleQ (s : State) (it : QItem) : State := withQ (pleS s) 2 [it]

/-- An edge with nothing in it. -/
def e0 : PleEdge := PleEdge.none

/-- The engine holds these orders. -/
def withOrds (s : State) (l : List PleOrder) : State := { s with ple := { s.ple with orders := l } }

/-- What the emission of a silent order gives. -/
def origin (s : State) (o : PleOrder) (l : Int) : Admitted × State := State.originate (s.addCtr 21 1 4 1) 57
    (leAt ((s.pleBank o.bank).template o.template) 0 2) (.order o.id) (some (compactOf s.pleBase l.toNat)) none
    (s.batchFrame o [(o, false)])

/-- Ring registers: base 0x800001000, the owner, 4 slots, completion ring 2. -/
def ringR (k n owner : Nat) : List (Nat × Word) := [(ringAt k n, 0x1000), (ringAt k n + 4, 8), (ringAt k n + 8,
    word (owner * 2 ^ 24 + 4)), (ringAt k n + 12, 2)]

/-- Completion ring c is enabled. -/
def cqR (c owner : Nat) : List (Nat × Word) := [(R.CQ_BASE_LO c, 0x2000), (R.CQ_BASE_HI c, 8), (R.CQ_CFG c, word
    (owner * 2 ^ 24 + 4))]

/-- A transmit descriptor. -/
def desc (a len stream : Nat) : Bytes := leBytes 8 a ++ leBytes 2 len ++ leBytes 2 stream ++ leBytes 4 0x77 ++
    List.replicate 16 0

/-- A waiting completion. -/
def cqe (n : Nat) : CqEntry := ⟨1, 5, none, 1, List.replicate 12 0 ++ [0] ++ List.replicate 51 3, n, false⟩

/-- Completion ring c is in this state. -/
def withCq (s : State) (c : Nat) (q : CqSt) : State := { s with rng := { s.rng with cq := [(c, q)] } }

/-- The physical function is ready. -/
def hostS (s : State) : State := { s with hbr := { s.hbr with ready := [0] } }

/-- The module runs recovery and has agreed interface 4 with a party. -/
def inRec (s : State) (party : Nat) : State :=
    { s with upd := { s.upd with mode := .recovery }, aqn := { s.aqn with agree := [(aqKey party 4, (1, 7))] } }

/-- A message of interface 4. -/
def recMsg (ty : Nat) (a n : Nat) (data : Bytes) : Bytes := [0x51, 0x41, byte ty, 9, 4, 0, 0, 0] ++ leBytes 4 a
    ++ leBytes 2 n ++ [0, 0] ++ data

/-- A selection record with these bytes set. -/
def selRec (bs : List (Nat × Nat)) : Bytes := let b := (bs.foldl (fun r x => selPut r x.1 x.2) selBlank).take 56
  b ++ leBytes 4 (crc32c 0xFFFFFFFF#32 b).toNat ++ leBytes 4 1

/-- It stands in the first selection bank. -/
def withSel (s : State) (bs : List (Nat × Nat)) : State := s.write (selAt 0) (selRec bs)

/-- This update command runs. -/
def updS (s : State) (cmd : Nat) (src : Nat) : State :=
    { s with upd := { s.upd with job := some ⟨keeper, word cmd, src⟩ } }

/-- No boot has run since the start. -/
def unbooted (s : State) : State := { s with upd := { s.upd with booted := false } }

/-- Key slot n holds this key. -/
def slotS (s : State) (n : Nat) (attr : Word) (k : Bytes) : State :=
    { s with cip := { s.cip with slots := kvSet s.cip.slots n ⟨k, attr, 0⟩ } }

/-- A key of 16 bytes. -/
def key16 : Bytes := (List.range 16).map byte

/-- This cipher job runs. -/
def jobS (s : State) (op slot dst len src out aux : Nat) : State :=
    { s with cip := { s.cip with job := some ⟨keeper, (jobWords op slot dst len src out aux).flatMap (leBytes 4), s.stagedAttr, s.stagedAux⟩ } }

/-- A cipher job. -/
def jobJ (s : State) (op slot dst len src out aux : Nat) : CipJob := ⟨keeper, (jobWords op slot dst len src out
    aux).flatMap (leBytes 4), s.stagedAttr, s.stagedAux⟩

/-- A state in which the vault works, with a key in slot 3. -/
def vltS : State := slotS (slotS (slotS (st [(R.SYS_LC_STATE, 1)]) 3 0x40000410 key16) 510 0x40000040 key16) 511
    0x40000020 key16

/-- These sources only record. -/
def mild (l : List (Nat × Nat)) : List (Nat × Word) := l.map fun x => (fltReg x.1 (8 + 4 * (x.2 / 8)), 0)

/-- These registers, and this change of the alive signal. -/
def alvS (l : List (Nat × Word)) (f : Alv → Alv) : State := { st l with alv := f State.reset.alv }

/-- A kick window of 4-100 ms, first kick within 16 s. -/
def alvC : Nat × Word := (R.ALV_CFG, 0x0A006404)

/-- A safe-state record of n bytes. -/
def safeRec (n : Nat) : Bytes := leBytes 2 n ++ List.replicate 6 0 ++ List.replicate n 1

/-- A ledger record at an offset. -/
def lrec (off : Nat) (f : LedgerRec → LedgerRec := id) : LedgerRec := f
    { seq := off, off := off, size := 6, admitUs := 0, stream := 7, bytes := List.replicate 64 1, launch := none, origin := none, pending := [2], tc := 3, replayed := false, freed := false, bus := false, live := 0, wclass := 1, owner := 0 }

/-- The ledger holds these records and this set. -/
def ldgS (s : State) (recs : List LedgerRec) (x : Option ReplaySet) : State :=
    { s with ldg := { s.ldg with recs := recs, head := 6 * recs.length, set := x } }

/-- A vault record of identifier 7. -/
def vltR : Bytes := [7, 0, 0, 0, 16, 4, 0, 0, 147, 90, 62, 177, 1, 195, 74, 221, 2, 94, 23, 11, 70, 255, 13,
    178, 62, 92, 47, 174, 140, 143, 131, 112] ++ List.replicate 16 0 ++ [252, 106, 13, 0, 163, 101, 12, 7, 1, 0, 0,
    0, 0, 0, 0, 0]

/-- No ring is enabled after reset. -/
theorem noRings_reset : NoRings State.reset := by decide +kernel

/-- A register that is no ring's size leaves it so. -/
theorem noRings_setReg {s : State} (h : NoRings s) (a : Nat) (v : Word)
    (ha : (∀ n < 256, ringAt 0 n + 8 ≠ a ∧ ringAt 1 n + 8 ≠ a) ∧ (∀ n < 16, ringAt 3 n + 8 ≠ a) ∧ ∀ c < 128, R.CQ_CFG c ≠ a) :
    NoRings (s.setReg a v) := by
  refine ⟨fun n hn => ?_, fun n hn => ?_, fun c hc => ?_⟩
  · simpa only [State.ringSize, State.regFld, reg_setReg_ne s v (ha.1 n hn).1, reg_setReg_ne s v (ha.1 n hn).2] using
      h.1 n hn
  · simpa only [State.ringSize, State.regFld, reg_setReg_ne s v (ha.2.1 n hn)] using h.2.1 n hn
  · simpa only [State.regFld, reg_setReg_ne s v (ha.2.2 c hc)] using h.2.2 c hc

/-! ### Hypotheses that can be met -/

/-- States and operands that meet the hypotheses of StepRunsFrontCommand, clause by clause. -/
theorem met_StepRunsFrontCommand :
    ∃ (s : State) (c : Instr) (rest : List Instr),
      s.pending = c :: rest :=
  ⟨{ State.reset with pending := [.pleCommit, .autoSleep] }, .pleCommit, [.autoSleep], by decide +kernel⟩

/-- States and operands that meet the hypotheses of IdleStepTicks, clause by clause. -/
theorem met_IdleStepTicks :
    ∃ (s : State),
      s.pending = [] ∧ s.tim.refOk = true ∧ s.pwr.mode ≠ .sleep ∧ powered s 15 = true :=
  ⟨st [(R.TIM_TB_CFG 0, 1), (R.TIM_TB_CFG 1, 0)], by decide +kernel, by decide +kernel, by decide +kernel,
  by decide +kernel⟩

/-- States and operands that meet the hypotheses of StepKeepsMemoryForm, clause by clause. -/
theorem met_StepKeepsMemoryForm :
    ∃ s t : State, MemoryOk s ∧ Machine.step s = .next t :=
  ⟨{ withMem (st []) 0x800000000 [1] with pending := [.registerWrite keeper 0x800000000 4 7] }, _, by decide +kernel, rfl⟩

/-- States and operands that meet the hypotheses of RegisterAccesses, clause by clause. -/
theorem met_RegisterAccesses :
    (∃ (s : State) (m : Master) (a : Nat) (v : Nat) (l : Loc),
      Writable s m a v l ∧ Plain l) ∧
    (∃ (s : State) (m : Master) (a : Nat) (l : Loc),
      Reaches s m ∧ a % 4 = 0 ∧ regAt a = some l ∧ l.row.acc = .rc ∧ alive s (domainOf l.win) = true ∧ windowGranted
      s m l.win = true ∧ (l.row.sec = true → secureMaster s m = true) ∧ a ≠ R.KEY_RNG) ∧
    (∃ (s : State) (m : Master) (r : Nat) (b : Nat) (v : Nat) (l : Loc),
      Writable s m r (putBit (s.reg r) b (v % 2 == 1)).toNat l ∧ Plain l ∧ internalMaster s m = true ∧ b < 32 ∧
      (l.row.log = true → (s.holding = false ∨ safetyWrite m r = true))) :=
  ⟨⟨State.reset, keeper, R.FOX_FLOOR_PD 3, 0x12345678, locOf (R.FOX_FLOOR_PD 3), writable_iff (by decide +kernel),
  ⟨by decide +kernel, by decide +kernel, fun _ _ _ _ _ _ => rfl, by decide +kernel, by decide +kernel,
  by decide +kernel, by decide +kernel⟩⟩,
    ⟨st [(R.PAC_PACE_LOW_PD 3, 5)], keeper, R.PAC_PACE_LOW_PD 3, locOf (R.PAC_PACE_LOW_PD 3), by decide +kernel,
    by decide +kernel, by decide +kernel, by decide +kernel, by decide +kernel, by decide +kernel,
    by decide +kernel, by decide +kernel⟩,
    ⟨State.reset, keeper, R.FOX_FLOOR_PD 3, 31, 1, locOf (R.FOX_FLOOR_PD 3), writable_iff (by decide +kernel),
    ⟨by decide +kernel, by decide +kernel, fun _ _ _ _ _ _ => rfl, by decide +kernel, by decide +kernel,
    by decide +kernel, by decide +kernel⟩, by decide +kernel, by decide +kernel, by decide +kernel⟩⟩

/-- States and operands that meet the hypotheses of AccessErrors, clause by clause. -/
theorem met_AccessErrors :
    (∃ (s : State) (m : Master) (a : Nat) (n : Nat) (w : Bool),
      inbound m = false ∧ debugClosed s m = false ∧ (regionOf a = .unmapped ∨ (regionOf a = .regs ∧ winOf a =
      none))) ∧
    (∃ (s : State) (m : Master) (a : Nat) (n : Nat),
      inbound m = true ∧ regionOf a = .unmapped) ∧
    (∃ (s : State) (m : Master) (a : Nat) (n : Nat) (v : Nat) (w : Nat) (off : Nat) (wr : Bool),
      inbound m = false ∧ winOf a = some (w, off) ∧ powered s (domainOf w) = false) ∧
    (∃ (s : State) (m : Master) (a : Nat) (bs : Bytes) (w : Nat) (off : Nat) (wr : Bool),
      inbound m = false ∧ debugClosed s m = false ∧ winOf a = some (w, off) ∧ powered s (domainOf w) = true ∧ bs ≠
      [] ∧ sizeOk a bs.length wr = false ∧ (wr = true → (wordReg a).all (fun l => !l.row.log) = true)) ∧
    (∃ (s : State) (m : Master) (a : Nat),
      0 < partitionOf s m ∧ regionOf a = .dram ∧ s.inPartition m a 1 = false) ∧
    (∃ (s : State) (xs : List HeldAccess) (ys : List HeldAccess) (h : HeldAccess),
      s.sys.held = xs ++ h :: ys ∧ (∀ x ∈ xs, inReset s (holdDomain x.addr) = true) ∧ inReset s (holdDomain h.addr)
      = false) ∧
    (∃ (s : State) (m : Master) (a : Nat) (v : Nat) (l : Loc) (ys : List HeldAccess),
      s.sys.held = ⟨m, a, 4, true, v⟩ :: ys ∧ Writable { s with sys := { s.sys with held := ys } } m a v l ∧ Plain
      l) :=
  ⟨⟨State.reset, keeper, 0x07000000, 4, false, by decide +kernel, by decide +kernel, by decide +kernel⟩,
    ⟨State.reset, ⟨0x20, .machine⟩, 0x07000000, 4, by decide +kernel, by decide +kernel⟩,
    ⟨st [(R.PWR_PD_STATUS, 0xFFDF)], keeper, R.CIP_CTRL, 4, 0, 16, 0x80, true, by decide +kernel, by decide +kernel,
    by decide +kernel⟩,
    ⟨State.reset, keeper, R.SYS_SERIAL_LO, [1, 2], 0, 0x88, false, by decide +kernel, by decide +kernel,
    by decide +kernel, by decide +kernel, by decide +kernel, by decide +kernel, by decide +kernel⟩,
    ⟨st [(R.SYS_PART_MAP, 0x1000)], ⟨0x16, .machine⟩, 0x800000000, by decide +kernel, by decide +kernel,
    by decide +kernel⟩,
    ⟨{ State.reset with sys := { State.reset.sys with held := [⟨keeper, R.CIP_CTRL, 4, true, 5⟩, ⟨keeper, R.FOX_FLOOR_PD 3, 4, true, 0x105⟩, ⟨keeper, R.CIP_CTRL, 4, false, 0⟩] }, pwr := { State.reset.pwr with inReset := [5] } },
    [⟨keeper, R.CIP_CTRL, 4, true, 5⟩], [⟨keeper, R.CIP_CTRL, 4, false, 0⟩], ⟨keeper, R.FOX_FLOOR_PD 3, 4, true,
    0x105⟩, by decide +kernel, by decide +kernel, by decide +kernel⟩,
    ⟨{ State.reset with sys := { State.reset.sys with held := [⟨keeper, R.FOX_FLOOR_PD 3, 4, true, 0x105⟩] } },
    keeper, R.FOX_FLOOR_PD 3, 0x105, locOf (R.FOX_FLOOR_PD 3), [], by decide +kernel, writable_iff
    (by decide +kernel), ⟨by decide +kernel, by decide +kernel, fun _ _ _ _ _ _ => rfl, by decide +kernel,
    by decide +kernel, by decide +kernel, by decide +kernel⟩⟩⟩

/-- States and operands that meet the hypotheses of LockMailboxAndRoutes, clause by clause. -/
theorem met_LockMailboxAndRoutes :
    (∃ (s : State) (m : Master) (w : Nat) (v : Nat) (l : Loc),
      winOk w = true ∧ Writable s m (winBase w + 0x20) v l ∧ bitOf (word v) 0 = true) ∧
    (∃ (s : State) (m : Master) (w : Nat) (v : Nat) (l : Loc),
      winOk w = true ∧ Writable s m (winBase w + 0x30) (sansBit v 31) l ∧ ¬ (w = 9 ∧ fld (word v) 15 0 = 1)) ∧
    (∃ (s : State) (m : Master) (w : Nat) (v : Nat) (l : Loc),
      winOk w = true ∧ Writable s m (winBase w + 0x30) (withBit v 31) l) ∧
    (∃ (s : State) (w : Nat) (b : Mailbox),
      winOk w = true ∧ alive s (domainOf w) = true ∧ kvGet? s.sys.mbox w = some b) ∧
    (∃ (s : State) (m : Master) (n : Nat) (v : Nat) (l : Loc),
      n < 512 ∧ Writable s m (R.SYS_IRQ_ROUTE n) v l ∧ s.holding = false ∧ s.unexported + 2 < ringEntries - s.regFld
      R.AUD_CTRL 31 16 ∧ (∀ w < 128, ∀ k < 3, s.lineLevel w k = s.sys.irqUp.contains (w * 4 + k))) :=
  ⟨⟨State.reset, keeper, 2, 1, locOf (winBase 2 + 0x20), by decide +kernel, writable_iff (by decide +kernel),
  by decide +kernel⟩,
    ⟨State.reset, keeper, 1, 1, locOf (winBase 1 + 0x30), by decide +kernel, writable_iff (by decide +kernel),
    by decide +kernel⟩,
    ⟨{ State.reset with sys := { State.reset.sys with mbox := [(1, { Mailbox.empty with data := List.replicate 5 1 })] } },
    keeper, 1, 0x10000, locOf (winBase 1 + 0x30), by decide +kernel, writable_iff (by decide +kernel)⟩,
    ⟨{ State.reset with sys := { State.reset.sys with mbox := [(1, { Mailbox.empty with data := List.replicate 5 1 })] } },
    1, { Mailbox.empty with data := List.replicate 5 1 }, by decide +kernel, by decide +kernel, by decide +kernel⟩,
    ⟨{ State.reset with sys := { State.reset.sys with irqUp := [] } }, keeper, 511, 0xC0000000, locOf
    (R.SYS_IRQ_ROUTE 511), by decide +kernel, writable_iff (by decide +kernel), by decide +kernel,
    by decide +kernel, by decide +kernel⟩⟩

/-- States and operands that meet the hypotheses of PolicyRules, clause by clause. -/
theorem met_PolicyRules :
    (∃ (s : State) (m : Master) (n : Nat) (v : Nat) (l : Loc),
      1 ≤ n ∧ n ≤ 15 ∧ Writable s m (R.FOX_VSET_PD n) v l) ∧
    (∃ (s : State) (m : Master) (n : Nat) (ix : Nat) (v : Nat) (l : Loc),
      n < 128 ∧ ix < 4 ∧ Writable s m (R.FOX_RULE n ix) v l ∧ (ix = 0 → bitOf (word v) 31 = true ∨ s.regBit
      (R.FOX_RULE n 0) 31 = false)) ∧
    (∃ (s : State) (m : Master) (n : Nat) (v : Nat) (l : Loc),
      n < 128 ∧ Writable s m (R.FOX_RULE n 0) v l ∧ bitOf (word v) 31 = false ∧ n ∉ s.fox.active) ∧
    (∃ (s : State) (m : Master) (n : Nat) (v : Nat) (l : Loc),
      n < 32 ∧ Writable s m (R.FOX_FGRP n) v l) ∧
    (∃ (s : State) (n : Nat),
      alive s 2 = true ∧ s.regBit R.FOX_CTRL 0 = true ∧ n < 128 ∧ (∀ k < 128, k ≠ n → bitOf (s.rule k 0) 31 = false)
      ∧ bitOf (s.rule n 0) 31 = true ∧ n ∉ s.fox.active ∧ s.measOk (fld (s.rule n 0) 29 24) = true ∧ s.ruleMeets n
      (s.takeAll.meas (fld (s.rule n 0) 29 24)) false = true ∧ fld (s.rule n 0) 15 0 ≤ kvGet s.fox.cnt n 0 + 1 ∧
      s.ruleAction n ≤ 1 ∧ LogRoom s) ∧
    (∃ (s : State),
      alive s 2 = true ∧ s.regBit R.FOX_CTRL 0 = false) :=
  ⟨⟨st [(R.FOX_LOOP_EN, 0)], keeper, 15, 680, locOf (R.FOX_VSET_PD 15), by decide +kernel, by decide +kernel,
  writable_iff (by decide +kernel)⟩,
    ⟨State.reset, keeper, 127, 1, 0x1234, locOf (R.FOX_RULE 127 1), by decide +kernel, by decide +kernel,
    writable_iff (by decide +kernel), by decide +kernel⟩,
    ⟨{ st [(R.FOX_RULE 5 0, 0x80000000)] with fox := { State.reset.fox with cnt := [(5, 3)] } }, keeper, 5, 0, locOf
    (R.FOX_RULE 5 0), by decide +kernel, writable_iff (by decide +kernel), by decide +kernel, by decide +kernel⟩,
    ⟨State.reset, keeper, 31, 7, locOf (R.FOX_FGRP 31), by decide +kernel, writable_iff (by decide +kernel)⟩,
    ⟨st [(R.FOX_CTRL, 1), (R.FOX_RULE 4 0, 0x93000001), (R.FOX_RULE 4 1, 0), (R.FOX_RULE 4 3, 0x10000005),
    (R.FOX_MEAS 19, 50)], 4, by decide +kernel, by decide +kernel, by decide +kernel, by decide +kernel,
    by decide +kernel, by decide +kernel, by decide +kernel, by decide +kernel, by decide +kernel,
    by decide +kernel, by decide +kernel⟩,
    ⟨State.reset, by decide +kernel, by decide +kernel⟩⟩

/-- States and operands that meet the hypotheses of PaceLoop, clause by clause. -/
theorem met_PaceLoop :
    ∃ (s : State) (n : Nat),
      alive s 2 = true ∧ 1 ≤ n ∧ n ≤ 15 ∧ s.regBit R.FOX_LOOP_EN n = true ∧ powered s n = true :=
  ⟨st [(R.FOX_LOOP_EN, 8), (R.FOX_VSET_PD 3, 700), (R.PAC_PACE_PD 3, 0x100), (R.FOX_FLOOR_PD 3, 0x100)], 3,
  by decide +kernel, by decide +kernel, by decide +kernel, by decide +kernel, by decide +kernel⟩

/-- States and operands that meet the hypotheses of SuppliesAndMeasurements, clause by clause. -/
theorem met_SuppliesAndMeasurements :
    (∃ (s : State) (n : Nat) (t0 : Nat),
      kvGet? s.fox.below n = some t0 ∧ t0 + 1000000 ≤ s.now ∧ alive s 2 = true ∧ n ∉ s.fox.paceLost ∧ Mild s 2 1) ∧
    (∃ (s : State) (n : Nat),
      1 ≤ n ∧ n ≤ 15 ∧ powered s n = true ∧ Mild s 2 2) ∧
    (∃ (s : State) (n : Nat) (x : VsetMove),
      kvGet? s.fox.move n = some x ∧ x.last + 100000000 ≤ s.now ∧ LogRoom s) ∧
    (∃ (s : State) (v : Nat),
      v < 3) ∧
    (∃ (s : State) (n : Nat) (v : Nat),
      1 ≤ n ∧ n ≤ 15 ∧ v < 65536 ∧ powered s n = true ∧ alive s 2 = true) ∧
    (∃ (s : State) (i : Nat) (v : Nat),
      ((16 ≤ i ∧ i ≤ 27) ∨ (40 ≤ i ∧ i < 48) ∨ i = 57 ∨ i = 59) ∧ s.measOk i = true ∧ alive s 2 = true) :=
  ⟨⟨{ State.reset with fox := { State.reset.fox with below := [(3, 0)] }, tim := { State.reset.tim with tb3 := { TimeBase.start 3 with val := 1000000 * frac32 } } },
  3, 0, by decide +kernel, by decide +kernel, by decide +kernel, by decide +kernel, by decide +kernel⟩,
    ⟨st [(R.FOX_LOOP_EN, 0xFFFE)], 15, by decide +kernel, by decide +kernel, by decide +kernel, by decide +kernel⟩,
    ⟨{ State.reset with fox := { State.reset.fox with move := [(3, ⟨700, 0⟩)] }, tim := { State.reset.tim with tb3 := { TimeBase.start 3 with val := 100000000 * frac32 } } },
    3, ⟨700, 0⟩, by decide +kernel, by decide +kernel, by decide +kernel⟩,
    ⟨State.reset, 2, by decide +kernel⟩,
    ⟨State.reset, 15, 65535, by decide +kernel, by decide +kernel, by decide +kernel, by decide +kernel,
    by decide +kernel⟩,
    ⟨State.reset, 16, 5, by decide +kernel, by decide +kernel, by decide +kernel⟩⟩

/-- States and operands that meet the hypotheses of BatteryOperation, clause by clause. -/
theorem met_BatteryOperation :
    (∃ (s : State),
      s.pwr.mode = .run ∧ s.regFld R.FOX_STATUS 1 0 = 2 ∧ alive s 2 = true) ∧
    (∃ (s : State) (t0 : Nat) (d : Nat),
      s.pwr.mode = .batteryRun ∧ alive s 2 = true ∧ s.regFld R.FOX_BATT_CTRL 15 0 < s.meas 25 ∧ s.fox.overAt = some
      t0 ∧ t0 + 50000000 ≤ s.now ∧ (∀ u, s.fox.lastShed = some u → u + 50000000 ≤ s.now) ∧ ((List.range 16).find?
      fun d => s.regBit R.FOX_BATT_SHED_EXTRA d && powered s d && !s.fox.shed.contains d) = some d) ∧
    (∃ (s : State) (t0 : Nat),
      s.pwr.mode = .batteryRun ∧ alive s 2 = true ∧ s.regFld R.FOX_BATT_CTRL 15 0 < s.meas 25 ∧ s.fox.overAt = some
      t0 ∧ t0 + 50000000 ≤ s.now ∧ (∀ u, s.fox.lastShed = some u → u + 50000000 ≤ s.now) ∧ (∀ d < 16, s.regBit
      R.FOX_BATT_SHED_EXTRA d = true → powered s d = true → d ∈ s.fox.shed) ∧ Mild s 2 3) ∧
    (∃ (s : State) (t0 : Nat),
      s.fox.mains = some t0 ∧ s.pwr.mode = .batteryRun ∧ t0 + 500000000 ≤ s.now ∧ s.regBit R.FOX_BATT_CTRL 16 =
      false ∧ alive s 2 = true) :=
  ⟨⟨st [(R.FOX_STATUS, 2)], by decide +kernel, by decide +kernel, by decide +kernel⟩,
    ⟨{ st [(R.FOX_STATUS, 6), (R.FOX_BATT_CTRL, 100), (R.FOX_MEAS 25, 200), (R.FOX_BATT_SHED_EXTRA, 0x2000)] with pwr := { State.reset.pwr with mode := .batteryRun }, fox := { State.reset.fox with overAt := some 0 }, tim := { State.reset.tim with tb3 := { TimeBase.start 3 with val := 50000000 * frac32 } } },
    0, 13, by decide +kernel, by decide +kernel, by decide +kernel, by decide +kernel, by decide +kernel, ofOption
    (by decide +kernel), by decide +kernel⟩,
    ⟨{ st [(R.FOX_STATUS, 6), (R.FOX_BATT_CTRL, 100), (R.FOX_MEAS 25, 200), (R.FOX_BATT_SHED_EXTRA, 0)] with pwr := { State.reset.pwr with mode := .batteryRun }, fox := { State.reset.fox with overAt := some 0 }, tim := { State.reset.tim with tb3 := { TimeBase.start 3 with val := 50000000 * frac32 } } },
    0, by decide +kernel, by decide +kernel, by decide +kernel, by decide +kernel, by decide +kernel, ofOption
    (by decide +kernel), by decide +kernel, by decide +kernel⟩,
    ⟨{ st [(R.FOX_STATUS, 4)] with pwr := { State.reset.pwr with mode := .batteryRun }, fox := { State.reset.fox with mains := some 0, shed := [7] }, tim := { State.reset.tim with tb3 := { TimeBase.start 3 with val := 500000000 * frac32 } } },
    0, by decide +kernel, by decide +kernel, by decide +kernel, by decide +kernel, by decide +kernel⟩⟩

/-- States and operands that meet the hypotheses of AuditRecord, clause by clause. -/
theorem met_AuditRecord :
    (∃ (s : State) (x : WaitingWrite) (l : Loc),
      s.aud.waiting = [x] ∧ s.auditReady = true ∧ Writable { s with aud := { s.aud with waiting := [] } } x.m x.addr
      x.value.toNat l ∧ Plain l) ∧
    (∃ (s : State) (e : Bytes) (rest : List Bytes),
      s.aud.pend = e :: rest ∧ s.aud.writeFail = false ∧ alive s 2 = true) ∧
    (∃ (s : State),
      s.aud.pend ≠ [] ∧ s.aud.writeFail = false ∧ alive s 2 = true ∧ Mild s 3 2) ∧
    (∃ (s : State),
      s.regBit R.AUD_CTRL 1 = true ∧ alive s 2 = true ∧ s.exportLost = false ∧ s.aud.pend.length < (s.reg R.AUD_SEQ
      - s.aud.push).toNat ∧ s.queueFull 1 = false) ∧
    (∃ (s : State),
      0 < s.aud.gap ∧ s.reserveOut = false ∧ alive s 2 = true) ∧
    (∃ (s : State) (m : Master) (v : Nat) (l : Loc),
      Writable s m R.AUD_EXP_ACK v l ∧ s.regBit R.AUD_CTRL 0 = false ∧ (word v - s.reg R.AUD_EXP_SEQ).toNat < 2 ^
      31) ∧
    (∃ (s : State) (m : Master) (v : Nat) (l : Loc),
      Writable s m R.AUD_EXP_ACK v l ∧ s.regBit R.AUD_CTRL 0 = true) ∧
    (∃ (s : State) (m : Master) (v : Nat) (l : Loc),
      Writable s m R.AUD_CTRL v l) :=
  ⟨⟨{ State.reset with aud := { State.reset.aud with waiting := [⟨keeper, R.FOX_FLOOR_PD 3, 0x105⟩] } }, ⟨keeper,
  R.FOX_FLOOR_PD 3, 0x105⟩, locOf (R.FOX_FLOOR_PD 3), by decide +kernel, by decide +kernel, writable_iff
  (by decide +kernel), ⟨by decide +kernel, by decide +kernel, fun _ _ _ _ _ _ => rfl, by decide +kernel,
  by decide +kernel, by decide +kernel, by decide +kernel⟩⟩,
    ⟨{ State.reset with aud := { State.reset.aud with pend := [List.replicate 32 7, []] } }, List.replicate 32 7,
    [[]], by decide +kernel, by decide +kernel, by decide +kernel⟩,
    ⟨{ State.reset with aud := { State.reset.aud with pend := [List.replicate 32 7, []] } }, by decide +kernel,
    by decide +kernel, by decide +kernel, by decide +kernel⟩,
    ⟨st [(R.AUD_CTRL, 2), (R.AUD_SEQ, 1)], by decide +kernel, by decide +kernel, by decide +kernel,
    by decide +kernel, by decide +kernel⟩,
    ⟨{ State.reset with aud := { State.reset.aud with gap := 5 } }, by decide +kernel, by decide +kernel,
    by decide +kernel⟩,
    ⟨{ st [(R.AUD_SEQ, 10)] with aud := { State.reset.aud with push := 10 } }, keeper, 9, locOf R.AUD_EXP_ACK,
    writable_iff (by decide +kernel), by decide +kernel, by decide +kernel⟩,
    ⟨st [(R.AUD_SEQ, 10), (R.AUD_CTRL, 1)], keeper, 9, locOf R.AUD_EXP_ACK, writable_iff (by decide +kernel),
    by decide +kernel⟩,
    ⟨{ st [(R.AUD_SEQ, 10)] with aud := { State.reset.aud with popped := 5 } }, keeper, 0x04000001, locOf
    R.AUD_CTRL, writable_iff (by decide +kernel)⟩⟩

/-- States and operands that meet the hypotheses of QueueItems, clause by clause. -/
theorem met_QueueItems :
    (∃ (s : State) (q : Nat) (p : Nat) (v : Nat),
      s.queueAlive q = true ∧ EventsQuiet s q ∧ kvGet? (s.queue q).skip p = none ∧ (∀ i ∈ (s.queue q).items, i.done
      = false → i.prod ≠ p) ∧ (∀ h ∈ (s.queue q).held, h.1 ≠ p) ∧ s.queueFull q = false) ∧
    (∃ (s : State) (q : Nat) (p : Nat) (v : Nat) (xs : List QItem) (ys : List QItem) (i : QItem),
      s.queueAlive q = true ∧ EventsQuiet s q ∧ kvGet? (s.queue q).skip p = none ∧ (s.queue q).items = xs ++ i :: ys
      ∧ (∀ x ∈ xs, x.done = false → x.prod ≠ p) ∧ i.done = false ∧ i.prod = p ∧ i.marked = false) ∧
    (∃ (s : State) (q : Nat) (p : Nat) (v : Nat),
      s.queueAlive q = true ∧ EventsQuiet s q ∧ kvGet? (s.queue q).skip p = none ∧ (∀ i ∈ (s.queue q).items, i.done
      = false → i.prod ≠ p) ∧ (∀ h ∈ (s.queue q).held, h.1 ≠ p) ∧ s.queueFull q = true ∧ queueHold q = false) ∧
    (∃ (s : State) (q : Nat) (p : Nat) (v : Nat),
      s.queueAlive q = true ∧ EventsQuiet s q ∧ kvGet? (s.queue q).skip p = none ∧ (∀ i ∈ (s.queue q).items, i.done
      = false → i.prod ≠ p) ∧ (∀ h ∈ (s.queue q).held, h.1 ≠ p) ∧ s.queueFull q = true ∧ queueHold q = true) ∧
    (∃ (s : State) (q : Nat) (p : Nat) (w : Word) (rest : List (Nat × Word)),
      s.queueAlive q = true ∧ EventsQuiet s q ∧ (s.queue q).held = (p, w) :: rest ∧ s.queueFull q = false) ∧
    (∃ (s : State) (m : Master) (q : Nat) (l : Loc) (i : QItem) (rest : List QItem),
      queueOk q = true ∧ EventsQuiet s q ∧ Writable s m (R.QP_POP q) 1 l ∧ (s.queue q).items = i :: rest ∧ i.done =
      true ∧ i.words.length ≤ 16) ∧
    (∃ (s : State) (m : Master) (q : Nat) (l : Loc),
      queueOk q = true ∧ Writable s m (R.QP_POP q) 1 l ∧ (s.queue q).items = [] ∧ (s.queue q).held = []) ∧
    (∃ (s : State) (m : Master) (q : Nat) (l : Loc),
      queueOk q = true ∧ Writable s m (R.QP_POP q) 2 l ∧ (s.queue q).popPend = true ∧ EventsQuiet s q) ∧
    (∃ (s : State) (q : Nat) (i : QItem) (rest : List QItem),
      s.queueAlive q = true ∧ EventsQuiet s q ∧ (s.queue q).popPend = true ∧ (s.queue q).items = i :: rest ∧ i.done
      = true ∧ i.words.length ≤ 16) :=
  ⟨⟨State.reset, 0, 9, 3, by decide +kernel, fun e => absurd e (by decide +kernel), by decide +kernel,
  by decide +kernel, by decide +kernel, by decide +kernel⟩,
    ⟨withQ State.reset 4 [item 9 [1] false], 4, 9, 3, [], [], item 9 [1] false, by decide +kernel, fun e => absurd e
    (by decide +kernel), by decide +kernel, by decide +kernel, by decide +kernel, by decide +kernel,
    by decide +kernel, by decide +kernel⟩,
    ⟨withQ State.reset 4 (List.replicate 16 (item 1 [1, 2])), 4, 9, 3, by decide +kernel, fun e => absurd e
    (by decide +kernel), by decide +kernel, by decide +kernel, by decide +kernel, by decide +kernel,
    by decide +kernel⟩,
    ⟨withQ State.reset 3 (List.replicate 256 (item 1 [1, 2])), 3, 9, 3, by decide +kernel, fun e => absurd e
    (by decide +kernel), by decide +kernel, by decide +kernel, by decide +kernel, by decide +kernel,
    by decide +kernel⟩,
    ⟨State.reset.setQueue 3 { Queue.empty with held := [(9, 4)] }, 3, 9, 4, [], by decide +kernel, fun e => absurd e
    (by decide +kernel), by decide +kernel, by decide +kernel⟩,
    ⟨withQ State.reset 4 [item 9 [1, 2], item 9 [3, 4]], keeper, 4, locOf (R.QP_POP 4), item 9 [1, 2], [item 9 [3,
    4]], by decide +kernel, fun e => absurd e (by decide +kernel), writable_iff (by decide +kernel),
    by decide +kernel, by decide +kernel, by decide +kernel⟩,
    ⟨State.reset, keeper, 4, locOf (R.QP_POP 4), by decide +kernel, writable_iff (by decide +kernel),
    by decide +kernel, by decide +kernel⟩,
    ⟨State.reset.setQueue 3 { Queue.empty with popPend := true }, keeper, 3, locOf (R.QP_POP 3), by decide +kernel,
    writable_iff (by decide +kernel), by decide +kernel, fun e => absurd e (by decide +kernel)⟩,
    ⟨State.reset.setQueue 3
    { Queue.empty with popPend := true, items := [item 9 [1, 2], item 8 [1, 2]], head := 2 }, 3, item 9 [1, 2],
    [item 8 [1, 2]], by decide +kernel, fun e => absurd e (by decide +kernel), by decide +kernel, by decide +kernel,
    by decide +kernel, by decide +kernel⟩⟩

/-- States and operands that meet the hypotheses of QueueUpkeep, clause by clause. -/
theorem met_QueueUpkeep :
    (∃ (s : State) (q : Nat),
      s.queueAlive q = true ∧ (s.queue q).items.any (s.itemLate q) = true ∧ EventsQuiet s q) ∧
    (∃ (s : State) (q : Nat),
      s.queueAlive q = true ∧ 0 < s.regFld (R.QP_CFG q) 15 0 ∧ (s.queue q).items ≠ [] ∧ (s.queue q).flushing = false
      ∧ (s.queue q).stranded = false ∧ (s.queue q).timer + s.regFld (R.QP_CFG q) 15 0 * 10000 ≤ s.now ∧ EventsQuiet
      s q) ∧
    (∃ (s : State) (q : Nat) (k : Nat),
      s.queueAlive q = true ∧ alive s 3 = true ∧ s.spillSlot q = some k) ∧
    (∃ (s : State) (q : Nat) (k : Nat),
      s.queueAlive q = true ∧ alive s 3 = true ∧ s.spillSlot q = some k ∧ 0 < (s.queue q).mid ∧ Mild s 9 1 ∧
      EventsQuiet s q ∧ q ≠ 6) ∧
    (∃ (s : State) (m : Master) (q : Nat) (v : Nat) (l : Loc),
      queueOk q = true ∧ Writable s m (R.QP_FLUSH q) v l ∧ bitOf (word v) 0 = true ∧ EventsQuiet s q) ∧
    (∃ (s : State) (m : Master) (q : Nat) (l : Loc),
      queueOk q = true ∧ EventsQuiet s q ∧ Writable s m (R.QP_STATUS q) 4 l) ∧
    (∃ (s : State) (m : Master) (q : Nat) (v : Nat) (l : Loc),
      queueOk q = true ∧ EventsQuiet s q ∧ Writable s m (R.QP_THRESH q) v l) ∧
    (∃ (s : State) (m : Master) (k : Nat) (v : Nat) (region : Bool) (l : Loc),
      k < 8 ∧ Writable s m (if region then R.QMG_SPILL_REGION k else R.QMG_SPILL_BIND k) v l) :=
  ⟨⟨at3 (withQ State.reset 4 [item 9 [1] false, item 9 [1, 2]]) 100000000, 4, by decide +kernel, by decide +kernel,
  fun e => absurd e (by decide +kernel)⟩,
    ⟨at3 (withQ (st [(R.QP_CFG 4, 1)]) 4 [item 9 [1, 2]]) 10000, 4, by decide +kernel, by decide +kernel,
    by decide +kernel, by decide +kernel, by decide +kernel, by decide +kernel, fun e => absurd e
    (by decide +kernel)⟩,
    ⟨(st [(R.QMG_SPILL_BIND 0, 0x80000001)]).setQueue 1
    { Queue.empty with items := List.replicate 40 (item 1 [1, 2]), head := 2, mid := 5 }, 1, 0, by decide +kernel,
    by decide +kernel, by decide +kernel⟩,
    ⟨(st [(R.QMG_SPILL_BIND 0, 0x80000001)]).setQueue 1
    { Queue.empty with items := (List.range 40).map (fun k => item k [1, 2]), head := 2, mid := 5 }, 1, 0,
    by decide +kernel, by decide +kernel, by decide +kernel, by decide +kernel, by decide +kernel, fun e => absurd e
    (by decide +kernel), by decide +kernel⟩,
    ⟨State.reset.setQueue 4 { Queue.empty with items := [item 9 [1] false, item 9 [1, 2]], head := 2 }, keeper, 4,
    1, locOf (R.QP_FLUSH 4), by decide +kernel, writable_iff (by decide +kernel), by decide +kernel,
    fun e => absurd e (by decide +kernel)⟩,
    ⟨withQ (st [(R.QP_STATUS 4, 4), (R.QP_THRESH 4, 1)]) 4 [item 9 [1, 2]], keeper, 4, locOf (R.QP_STATUS 4),
    by decide +kernel, fun e => absurd e (by decide +kernel), writable_iff (by decide +kernel)⟩,
    ⟨withQ (st []) 4 [item 9 [1, 2]], keeper, 4, 1, locOf (R.QP_THRESH 4), by decide +kernel, fun e => absurd e
    (by decide +kernel), writable_iff (by decide +kernel)⟩,
    ⟨State.reset, keeper, 7, 0x80000005, false, locOf (R.QMG_SPILL_BIND 7), by decide +kernel, writable_iff
    (by decide +kernel)⟩⟩

/-- States and operands that meet the hypotheses of FrameReception, clause by clause. -/
theorem met_FrameReception :
    (∃ (s : State) (p : Nat) (len : Nat) (hdr : Bytes),
      s.ethHears p = true ∧ kvGet? s.swc.rx p = none) ∧
    (∃ (s : State) (p : Nat) (body : Bytes) (x : RxFrame),
      s.ethHears p = true ∧ kvGet? s.swc.rx p = some x ∧ x.cut = none) ∧
    (∃ (s : State) (p : Nat) (e : Nat) (body : Bytes) (x : RxFrame) (r : Resolved),
      s.ethHears p = true ∧ kvGet? s.swc.rx p = some x ∧ x.macsec = false ∧ x.cut = none ∧ x.res = ⟨none, some r⟩ ∧
      (x.hdr ++ body).length = x.len ∧ x.len ≤ 9216 ∧ r.egress = [e] ∧ e < 128 ∧ r.tc < 8 ∧ r.tunnel = none ∧ r.src
      = .line ∧ r.ledger = false ∧ s.cbOf r.stream = none ∧ s.streamHeld r.stream = false ∧ s.regBit R.SWC_STATUS 0
      = false ∧ s.poolUse + cellsOf x.len ≤ s.regFld R.SWC_POOL_SIZE 15 0 ∧ s.queueFits (e * 8 + r.tc) (cellsOf
      x.len) = true ∧ s.descFree ≠ 0 ∧ (∀ c ∈ s.heldCopies, c.frame < s.swc.nextId)) :=
  ⟨⟨linked (st [on 1, on 2]), 1, 64, List.replicate 14 1, by decide +kernel, by decide +kernel⟩,
    ⟨{ linked (st [on 1, on 2]) with swc := { (linked State.reset).swc with rx := [(1, ⟨⟨none, some (res0 2 7)⟩, [1], 2, false, none, [0]⟩)] } },
    1, [4], ⟨⟨none, some (res0 2 7)⟩, [1], 2, false, none, [0]⟩, by decide +kernel, by decide +kernel,
    by decide +kernel⟩,
    ⟨{ linked (st [on 1, on 2]) with swc := { (linked State.reset).swc with rx := [(1, ⟨⟨none, some (res0 2 7)⟩, List.replicate 14 1, 64, false, none, [0]⟩)] } },
    1, 2, List.replicate 50 3, ⟨⟨none, some (res0 2 7)⟩, List.replicate 14 1, 64, false, none, [0]⟩, res0 2 7,
    by decide +kernel, by decide +kernel, by decide +kernel, by decide +kernel, by decide +kernel,
    by decide +kernel, by decide +kernel, by decide +kernel, by decide +kernel, by decide +kernel,
    by decide +kernel, by decide +kernel, by decide +kernel, by decide +kernel, by decide +kernel,
    by decide +kernel, by decide +kernel, by decide +kernel, by decide +kernel, by decide +kernel⟩⟩

/-- States and operands that meet the hypotheses of Transmission, clause by clause. -/
theorem met_Transmission :
    (∃ (s : State) (s' : State) (p : Nat) (tc : Nat) (c : Copy) (rest : List Copy) (line : Bytes),
      s.ethFree p = true ∧ s.spLow p = 0 ∧ s.dropPortStale p = s ∧ (∀ k < 8, s.regBit (R.SWC_QCBS (p * 8 + k)) 31 =
      false) ∧ tc < 8 ∧ s.eligible p tc = true ∧ (∀ k < 8, tc < k → s.eligible p k = false) ∧ s.copies (p * 8 + tc)
      = c :: rest ∧ State.wayOutEth ((s.setCopies (p * 8 + tc) rest).setSwc
      { (s.setCopies (p * 8 + tc) rest).swc with tx := kvSet (s.setCopies (p * 8 + tc) rest).swc.tx p ⟨c, [], false, false, s.now⟩ })
      c = (.sent line, s') ∧ c.port = p ∧ c.tc = tc) ∧
    (∃ (s : State) (s' : State) (p : Nat) (tc : Nat) (c : Copy) (rest : List Copy) (line : Bytes),
      s.ethFree p = true ∧ s.spLow p = 0 ∧ s.dropPortStale p = s ∧ (∀ k < 8, s.regBit (R.SWC_QCBS (p * 8 + k)) 31 =
      false) ∧ tc < 8 ∧ s.eligible p tc = true ∧ (∀ k < 8, tc < k → s.eligible p k = false) ∧ s.copies (p * 8 + tc)
      = c :: rest ∧ c.timed = true ∧ s.untilStart c = 0 ∧ State.wayOutEth ((s.setCopies (p * 8 + tc) rest).setSwc
      { (s.setCopies (p * 8 + tc) rest).swc with tx := kvSet (s.setCopies (p * 8 + tc) rest).swc.tx p ⟨c, [], false, false, s.now⟩ })
      c = (.sent line, s') ∧ c.port = p ∧ c.tc = tc) ∧
    (∃ (s : State) (p : Nat) (x : TxCopy),
      alive s 3 = true ∧ kvGet? s.swc.tx p = some x ∧ x.whole = true ∧ x.stomp = false ∧ x.copy.src = .line ∧
      x.copy.ledger = none ∧ x.copy.tag = none ∧ kvGet? s.grd.run p = none ∧ x.copy.port = p) :=
  ⟨⟨swc0 (guardOpen (st ([on 1, on 2, (R.SWC_PSCHED 2, 0)] ++ guardRegs 2)) 2) 2 7, (sent (swc0 (guardOpen (st ([on
  1, on 2, (R.SWC_PSCHED 2, 0)] ++ guardRegs 2)) 2) 2 7) 2 7 (copy0 2 7) []).2, 2, 7, copy0 2 7, [], (sent (swc0
  (guardOpen (st ([on 1, on 2, (R.SWC_PSCHED 2, 0)] ++ guardRegs 2)) 2) 2 7) 2 7 (copy0 2 7) []).1,
  by decide +kernel, by decide +kernel, by decide +kernel, by decide +kernel, by decide +kernel, by decide +kernel,
  by decide +kernel, by decide +kernel, by decide +kernel, by decide +kernel, by decide +kernel⟩,
    ⟨{ guardOpen (st ([on 1, on 2, (R.SWC_PSCHED 2, 0)] ++ guardRegs 2)) 2 with swc := { (swc0 State.reset 2 7).swc with queues := [(23, [{ copy0 2 7 with timed := true, launch := 3 * 2 ^ 62 }])] } },
    (sent
    ({ guardOpen (st ([on 1, on 2, (R.SWC_PSCHED 2, 0)] ++ guardRegs 2)) 2 with swc := { (swc0 State.reset 2 7).swc with queues := [(23, [{ copy0 2 7 with timed := true, launch := 3 * 2 ^ 62 }])] } })
    2 7 ({ copy0 2 7 with timed := true, launch := 3 * 2 ^ 62 }) []).2, 2, 7,
    { copy0 2 7 with timed := true, launch := 3 * 2 ^ 62 }, [], (sent
    ({ guardOpen (st ([on 1, on 2, (R.SWC_PSCHED 2, 0)] ++ guardRegs 2)) 2 with swc := { (swc0 State.reset 2 7).swc with queues := [(23, [{ copy0 2 7 with timed := true, launch := 3 * 2 ^ 62 }])] } })
    2 7 ({ copy0 2 7 with timed := true, launch := 3 * 2 ^ 62 }) []).1, by decide +kernel, by decide +kernel,
    by decide +kernel, by decide +kernel, by decide +kernel, by decide +kernel, by decide +kernel,
    by decide +kernel, by decide +kernel, by decide +kernel, by decide +kernel, by decide +kernel,
    by decide +kernel⟩,
    ⟨{ swc0 (st [on 1, on 2]) 2 7 with swc := { (swc0 State.reset 2 7).swc with queues := [], tx := [(2, ⟨copy0 2 7, List.replicate 64 1, true, false, 0⟩)] } },
    2, ⟨copy0 2 7, List.replicate 64 1, true, false, 0⟩, by decide +kernel, by decide +kernel, by decide +kernel,
    by decide +kernel, by decide +kernel, by decide +kernel, by decide +kernel, by decide +kernel,
    by decide +kernel⟩⟩

/-- States and operands that meet the hypotheses of SwitchTimers, clause by clause. -/
theorem met_SwitchTimers :
    (∃ (s : State) (n : Nat),
      n < 256 ∧ alive s 3 = true ∧ s.regBit (R.SWC_CB_CFG n) 31 = true ∧ s.regFld (R.SWC_CB_CFG n) 15 0 ≠ 0 ∧ (kvGet
      s.swc.cb n CbInst.none).takeAny = false ∧ (kvGet s.swc.cb n CbInst.none).last + s.regFld (R.SWC_CB_CFG n) 15 0
      * 1000000 ≤ s.now) ∧
    (∃ (s : State) (q : Nat) (c : Copy),
      alive s 3 = true ∧ s.swc.queues = [(q, [c])] ∧ s.aged c = true ∧ c.queue = q ∧ c.src = .line ∧ c.ledger =
      none) ∧
    (∃ (s : State) (m : Master) (q : Nat) (v : Nat) (l : Loc),
      q < 1024 ∧ Writable s m (R.SWC_QCBS q) v l) ∧
    (∃ (s : State) (p : Nat),
      p < 29 ∧ alive s 3 = true ∧ s.operList p ≠ []) ∧
    (∃ (s : State) (m : Master) (p : Nat) (v : Nat) (l : Loc),
      p < 29 ∧ Writable s m (R.SWC_GCL_CTRL p) (withBit (sansBit v 2) 1) l) ∧
    (∃ (s : State) (m : Master) (p : Nat) (v : Nat) (l : Loc),
      p < 29 ∧ Writable s m (R.SWC_GCL_CTRL p) (withBit (sansBit v 1) 2) l) ∧
    (∃ (s : State) (p : Nat),
      p < 29 ∧ alive s 3 = true ∧ s.changeIn p = some 0) :=
  ⟨⟨at3 (st [(R.SWC_CB_CFG 255, 0x80000001)]) 1000000 |> fun s =>
  { s with swc := { s.swc with cb := [(255, ⟨[], false, 3, 0⟩)] } }, 255, by decide +kernel, by decide +kernel,
  by decide +kernel, by decide +kernel, by decide +kernel, by decide +kernel⟩,
    ⟨at3 (swc0 (st [on 1, on 2, (R.SWC_QAGE 23, 5)]) 2 7) 6000, 23, copy0 2 7, by decide +kernel, by decide +kernel,
    by decide +kernel, by decide +kernel, by decide +kernel, by decide +kernel⟩,
    ⟨linked (st []), keeper, 23, 0x80000010, locOf (R.SWC_QCBS 23), by decide +kernel, writable_iff
    (by decide +kernel)⟩,
    ⟨{ st [(R.SWC_GCL_CTRL 3, 0x00020001), (R.SWC_GCL_OPR 3 0, 0x01000100), (R.SWC_GCL_OPR 3 1, 0x02000200)] with swc := { State.reset.swc with gcl := [(3, { Gcl.none with cycle := 1000, entry := 0, gates := 1 })] } },
    3, by decide +kernel, by decide +kernel, by decide +kernel⟩,
    ⟨st [(R.SWC_GCL_CTRL 3, 0x00000101), (R.SWC_GCL_CYCLE 3, 10000), (R.SWC_GCL_ADM 3 0, 0x01002710)], keeper, 3,
    0x00000101, locOf (R.SWC_GCL_CTRL 3), by decide +kernel, writable_iff (by decide +kernel)⟩,
    ⟨{ st [(R.SWC_GCL_CTRL 28, 0x00000103), (R.SWC_GCL_STAT 28, 1)] with swc := { State.reset.swc with gcl := [(28, { Gcl.none with change := some 4 })] } },
    keeper, 28, 0x00000101, locOf (R.SWC_GCL_CTRL 28), by decide +kernel, writable_iff (by decide +kernel)⟩,
    ⟨{ st [(R.SWC_GCL_CTRL 28, 0x00000103), (R.SWC_GCL_STAT 28, 1), (R.SWC_GCL_CYCLE 28, 10000), (R.SWC_GCL_ADM 28 0, 0x01002710)] with swc := { State.reset.swc with gcl := [(28, { Gcl.none with change := some 0 })] } },
    28, by decide +kernel, by decide +kernel, by decide +kernel⟩⟩

/-- States and operands that meet the hypotheses of PortsAndLinks, clause by clause. -/
theorem met_PortsAndLinks :
    (∃ (s : State) (m : Master) (p : Nat) (v : Nat) (l : Loc),
      portUsed p = true ∧ Writable s m (R.SWC_PCTL p) (sansBit (sansBit v 0) 1) l) ∧
    (∃ (s : State) (m : Master) (p : Nat) (v : Nat) (l : Loc),
      portUsed p = true ∧ Writable s m (R.SWC_PCTL p) (withBit (sansBit v 0) 1) l ∧ PlainCopies s p) ∧
    (∃ (s : State) (m : Master) (p : Nat) (v : Nat) (l : Loc),
      portUsed p = true ∧ Writable s m (R.SWC_PCTL p) (withBit v 0) l) ∧
    (∃ (s : State) (p : Nat),
      p < 29 ∧ (∀ x, kvGet? s.swc.rx p = some x → x.cut = none)) ∧
    (∃ (s : State) (p : Nat) (rate : Nat),
      p < 29 ∧ 0 < rate) :=
  ⟨⟨linked (st [on 1, on 2]), keeper, 2, 5, locOf (R.SWC_PCTL 2), by decide +kernel, writable_iff
  (by decide +kernel)⟩,
    ⟨swc0 (st [on 1, on 2]) 2 7, keeper, 2, 5, locOf (R.SWC_PCTL 2), by decide +kernel, writable_iff
    (by decide +kernel), by decide +kernel⟩,
    ⟨linked (st [on 1]), keeper, 2, 4, locOf (R.SWC_PCTL 2), by decide +kernel, writable_iff (by decide +kernel)⟩,
    ⟨{ linked (st [on 1, on 2]) with swc := { (linked State.reset).swc with rx := [(1, ⟨⟨none, some (res0 2 7)⟩, [1], 2, false, none, [0]⟩)] } },
    1, by decide +kernel, ofOption (by decide +kernel)⟩,
    ⟨st [], 28, 100, by decide +kernel, by decide +kernel⟩⟩

/-- States and operands that meet the hypotheses of RecordCommands, clause by clause. -/
theorem met_RecordCommands :
    (∃ (s : State) (m : Master) (c : TCmd) (k : Nat),
      MailboxRuns s m c ∧ c.op = 1 ∧ c.table = 4 ∧ c.shadow = false ∧ c.count = 1 ∧ s.lookup 4 s.tbl.mac (keyOf 4
      (cleanBody 4 (slice s.mailboxData 0 24))) = some k) ∧
    (∃ (s : State) (m : Master) (c : TCmd) (e : Bytes) (g : Nat) (k : Nat),
      MailboxRuns s m c ∧ c.op = 2 ∧ c.table = 4 ∧ c.shadow = false ∧ c.count = 1 ∧ e = putBytes (cleanBody 4 (slice
      s.mailboxData 0 24)) 8 (leBytes 4 (putBit (word (leAt (cleanBody 4 (slice s.mailboxData 0 24)) 8 4)) 31
      true).toNat) ∧ s.hctrl 4 (keyOf 4 e) = (g, false) ∧ s.lookup 4 s.tbl.mac (keyOf 4 e) = none ∧ freeWay
      s.tbl.mac (s.buckets 4 g (keyOf 4 e)).1 = some k ∧ kvGet? s.tbl.walks 4 = none) ∧
    (∃ (s : State) (m : Master) (c : TCmd) (body : Bytes),
      MailboxRuns s m c ∧ c.op = 2 ∧ c.table = 3 ∧ c.shadow = false ∧ c.count = 1 ∧ body = cleanBody 3 (slice
      s.mailboxData 0 32) ∧ insertOk 3 body = true ∧ indexOk 3 (recIndex (slice s.mailboxData 0 32)) = true) ∧
    (∃ (s : State) (m : Master) (c : TCmd) (k : Nat),
      MailboxRuns s m c ∧ c.op = 3 ∧ c.table = 4 ∧ c.shadow = false ∧ c.count = 1 ∧ s.lookup 4 s.tbl.mac (keyOf 4
      (cleanBody 4 (slice s.mailboxData 0 24))) = some k) ∧
    (∃ (s : State) (m : Master) (c : TCmd) (k : Nat) (e : Bytes) (rest : Kv Bytes),
      MailboxRuns s m c ∧ c.op = 4 ∧ c.table = 4 ∧ c.shadow = false ∧ c.count = 1 ∧ c.cursor = 0 ∧ s.tbl.mac = (k,
      e) :: rest) :=
  ⟨⟨mboxed (macAt State.reset slotM 0x80000003) (cmdW 1 4 1 0) [0, 0, 0x11111111, 0x00012222], keeper, (mboxed
  (macAt State.reset slotM 0x80000003) (cmdW 1 4 1 0) [0, 0, 0x11111111, 0x00012222]).mailboxCmd, slotM,
  ⟨by decide +kernel, by decide +kernel, by decide +kernel, by decide +kernel, by decide +kernel,
  by decide +kernel⟩, by decide +kernel, by decide +kernel, by decide +kernel, by decide +kernel,
  by decide +kernel⟩,
    ⟨mboxed State.reset (cmdW 2 4 1 0) [0, 0, 0x11111111, 0x00012222, 3, 0], keeper, (mboxed State.reset (cmdW 2 4 1
    0) [0, 0, 0x11111111, 0x00012222, 3, 0]).mailboxCmd, _, 0, slotM, ⟨by decide +kernel, by decide +kernel,
    by decide +kernel, by decide +kernel, by decide +kernel, by decide +kernel⟩, by decide +kernel,
    by decide +kernel, by decide +kernel, by decide +kernel, rfl, by decide +kernel, by decide +kernel,
    by decide +kernel, by decide +kernel⟩,
    ⟨mboxed State.reset (cmdW 2 3 1 0) [4094, 0, 1, 0, 0, 0, 0, 0x80000001], keeper, (mboxed State.reset (cmdW 2 3 1
    0) [4094, 0, 1, 0, 0, 0, 0, 0x80000001]).mailboxCmd, _, ⟨by decide +kernel, by decide +kernel,
    by decide +kernel, by decide +kernel, by decide +kernel, by decide +kernel⟩, by decide +kernel,
    by decide +kernel, by decide +kernel, by decide +kernel, rfl, by decide +kernel, by decide +kernel⟩,
    ⟨mboxed (macAt State.reset (slotM + 3) 0x80000003) (cmdW 3 4 1 0) [0, 0, 0x11111111, 0x00012222], keeper,
    (mboxed (macAt State.reset (slotM + 3) 0x80000003) (cmdW 3 4 1 0) [0, 0, 0x11111111, 0x00012222]).mailboxCmd,
    slotM + 3, ⟨by decide +kernel, by decide +kernel, by decide +kernel, by decide +kernel, by decide +kernel,
    by decide +kernel⟩, by decide +kernel, by decide +kernel, by decide +kernel, by decide +kernel,
    by decide +kernel⟩,
    ⟨mboxed { State.reset with tbl := { State.reset.tbl with mac := [(5, macE 3), (9, macE 4)] } } (cmdW 4 4 1 0)
    [], keeper, (mboxed { State.reset with tbl := { State.reset.tbl with mac := [(5, macE 3), (9, macE 4)] } } (cmdW
    4 4 1 0) []).mailboxCmd, 5, macE 3, [(9, macE 4)], ⟨by decide +kernel, by decide +kernel, by decide +kernel,
    by decide +kernel, by decide +kernel, by decide +kernel⟩, by decide +kernel, by decide +kernel,
    by decide +kernel, by decide +kernel, by decide +kernel, by decide +kernel⟩⟩

/-- States and operands that meet the hypotheses of TableWideCommands, clause by clause. -/
theorem met_TableWideCommands :
    (∃ (s : State) (m : Master) (c : TCmd) (mask : Bytes),
      MailboxRuns s m c ∧ c.op = 5 ∧ c.table = 4 ∧ c.shadow = false ∧ mask = slice s.mailboxData 0 16 ∧ mask.all (·
      == 0) = false) ∧
    (∃ (s : State) (m : Master) (c : TCmd) (k : Nat) (e : Bytes),
      MailboxRuns s m c ∧ c.op = 6 ∧ c.table = 4 ∧ c.shadow = false ∧ 0 < c.count ∧ s.tbl.mac = [(k, e)] ∧ 4 *
      c.cursor ≤ k ∧ k < 4 * (c.cursor + c.count) ∧ bitOf (word (leAt e 8 4)) 30 = false) ∧
    (∃ (s : State) (m : Master) (c : TCmd) (k : Nat) (n : Nat) (e : Bytes),
      MailboxRuns s m c ∧ c.op = 7 ∧ c.table = 4 ∧ c.shadow = false ∧ 0 < c.count ∧ c.toGen < 2 ∧ s.tbl.mac = [(k,
      e)] ∧ genOf 4 e = 1 - c.toGen ∧ s.regBit (R.HCB_MAC_HCTRL) 1 = true ∧ inBucket 4 s.tbl.mac (keyOf 4 e)
      (s.buckets 4 (1 - c.toGen) (keyOf 4 e)).1 = some k ∧ freeWay s.tbl.mac (s.buckets 4 c.toGen (keyOf 4 e)).1 =
      some n ∧ kvGet? s.tbl.walks 4 = none) :=
  ⟨⟨mboxed
  { State.reset with tbl := { State.reset.tbl with mac := [(5, macE 3), (9, macE 4), (10, macE 0x40000003)] } }
  (cmdW 5 4 1 0) [8], keeper, (mboxed
  { State.reset with tbl := { State.reset.tbl with mac := [(5, macE 3), (9, macE 4), (10, macE 0x40000003)] } }
  (cmdW 5 4 1 0) [8]).mailboxCmd, _, ⟨by decide +kernel, by decide +kernel, by decide +kernel, by decide +kernel,
  by decide +kernel, by decide +kernel⟩, by decide +kernel, by decide +kernel, by decide +kernel, rfl,
  by decide +kernel⟩,
    ⟨mboxed (macAt State.reset 7 0x10000003) (cmdW 6 4 1 1) [], keeper, (mboxed (macAt State.reset 7 0x10000003)
    (cmdW 6 4 1 1) []).mailboxCmd, 7, macE 0x10000003, ⟨by decide +kernel, by decide +kernel, by decide +kernel,
    by decide +kernel, by decide +kernel, by decide +kernel⟩, by decide +kernel, by decide +kernel,
    by decide +kernel, by decide +kernel, by decide +kernel, by decide +kernel, by decide +kernel,
    by decide +kernel⟩,
    ⟨mboxed (macAt (st [(R.HCB_MAC_HCTRL, 2), (R.HCB_MAC_SEED0 + 4, 0x1234)]) slotM 0x80000003) ((0x4000 + 7 + 0x400
    + 0x10000) :: (cmdW 7 4 1 0).drop 1) [], keeper, (mboxed (macAt (st [(R.HCB_MAC_HCTRL, 2), (R.HCB_MAC_SEED0 + 4,
    0x1234)]) slotM 0x80000003) ((0x4000 + 7 + 0x400 + 0x10000) :: (cmdW 7 4 1 0).drop 1) []).mailboxCmd, slotM, 4 *
    ((mboxed (macAt (st [(R.HCB_MAC_HCTRL, 2), (R.HCB_MAC_SEED0 + 4, 0x1234)]) slotM 0x80000003) ((0x4000 + 7 +
    0x400 + 0x10000) :: (cmdW 7 4 1 0).drop 1) []).buckets 4 1 (keyOf 4 (macE 0x80000003))).1, macE 0x80000003,
    ⟨by decide +kernel, by decide +kernel, by decide +kernel, by decide +kernel, by decide +kernel,
    by decide +kernel⟩, by decide +kernel, by decide +kernel, by decide +kernel, by decide +kernel,
    by decide +kernel, by decide +kernel, by decide +kernel, by decide +kernel, by decide +kernel,
    by decide +kernel, by decide +kernel⟩⟩

/-- States and operands that meet the hypotheses of RingTablesAndUpkeep, clause by clause. -/
theorem met_RingTablesAndUpkeep :
    (∃ (s : State) (op : Nat) (ring : Nat) (ix : Nat) (o : Nat) (i : QItem) (rest : List QItem) (c : TCmd),
      1 ≤ op ∧ op ≤ 7 ∧ alive s 4 = true ∧ s.tbl.mgo = none ∧ s.auditReady = true ∧ (s.queue 3).items = i :: rest ∧
      i.done = true ∧ i.prod = tcProducer ring ix ∧ ix < 0x40000 ∧ c = TCmd.of (ofWords i.words) ∧ c.op = op ∧
      s.ringOwner 3 ring = o) ∧
    (∃ (s : State) (m : Master) (a : Nat) (v : Nat) (l : Loc),
      (hcbTable a).isSome = true ∧ a % 16 = 8 ∧ Writable s m a (withBit v 2) l) ∧
    (∃ (s : State) (m : Master) (a : Nat) (v : Nat) (l : Loc),
      (hcbTable a).isSome = true ∧ a % 16 = 8 ∧ Writable s m a (sansBit v 2) l) ∧
    (∃ (s : State) (k : Nat) (e : Bytes),
      alive s 4 = true ∧ s.regFld R.TBL_AGER 15 0 ≠ 0 ∧ s.auditReady = true ∧ LogRoom s ∧ s.tbl.mac = [(k, e)] ∧ k <
      32768 ∧ bitOf (word (leAt e 8 4)) 30 = false) ∧
    (∃ (s : State),
      alive s 4 = true) :=
  ⟨⟨(State.reset).setQueue 3
  { Queue.empty with items := [item (tcProducer 3 5) ((cmdW 1 4 1 0).map word)], head := 1 }, 1, 3, 5, 0, item
  (tcProducer 3 5) ((cmdW 1 4 1 0).map word), [], _, by decide +kernel, by decide +kernel, by decide +kernel,
  by decide +kernel, by decide +kernel, by decide +kernel, by decide +kernel, by decide +kernel, by decide +kernel,
  rfl, by decide +kernel, by decide +kernel⟩,
    ⟨st [(R.HCB_MAC_HCTRL, 2)], keeper, R.HCB_MAC_HCTRL, 0, locOf R.HCB_MAC_HCTRL, by decide +kernel,
    by decide +kernel, writable_iff (by decide +kernel)⟩,
    ⟨st [], keeper, R.HCB_EXT_SEED0 + 8, 2, locOf (R.HCB_EXT_SEED0 + 8), by decide +kernel, by decide +kernel,
    writable_iff (by decide +kernel)⟩,
    ⟨macAt (st [(R.TBL_AGER, 1)]) 32767 0x10000003, 32767, macE 0x10000003, by decide +kernel, by decide +kernel,
    by decide +kernel, by decide +kernel, by decide +kernel, by decide +kernel, by decide +kernel⟩,
    ⟨at3
    { State.reset with tbl := { State.reset.tbl with pend := [⟨[1,2,3,4,5,6], 1, 0, 0, 100⟩, ⟨[1,2,3,4,5,6], 1, 0, 0, 101⟩] } }
    100, by decide +kernel⟩⟩

/-- States and operands that meet the hypotheses of CanReception, clause by clause. -/
theorem met_CanReception :
    (∃ (s : State) (n : Nat) (sof : Nat) (f : CanFrame) (bs : Bytes),
      s.canOn n = true ∧ kindFormat f.kind ≤ s.canProto n ∧ canCarries n (kindFormat f.kind) = true ∧ s.canCounts n
      = true ∧ (s.canCh n).rec_ ≤ 127 ∧ s.meRuns (canHome n) = true ∧ bs = storedFrame f n (latchCompact (s.latchRx
      (64 + n) sof) (s.regFld (R.CAN_CFG n) 13 12)) ∧ busAgrees bs = true ∧ s.rxSeal n bs = none) ∧
    (∃ (s : State) (n : Nat) (code : Nat) (dp : Bool) (severe : Bool),
      s.canOn n = true ∧ s.canCounts n = true ∧ (s.canCh n).tec < 96 ∧ (s.canCh n).rec_ + (if severe then 8 else 1)
      < 96 ∧ (s.canCh n).busOff = false) :=
  ⟨⟨st (canRegs 4), 4, 100, canF, _, by decide +kernel, by decide +kernel, by decide +kernel, by decide +kernel,
  by decide +kernel, by decide +kernel, rfl, by decide +kernel, by decide +kernel⟩,
    ⟨canHas (st (canRegs 4)) 4 ⟨95, 87, false, false⟩, 4, 13, true, true, by decide +kernel, by decide +kernel,
    by decide +kernel, by decide +kernel, by decide +kernel⟩⟩

/-- States and operands that meet the hypotheses of CanTransmission, clause by clause. -/
theorem met_CanTransmission :
    (∃ (s : State) (s' : State) (n : Nat) (tc : Nat) (c : Copy) (rest : List Copy) (line : Bytes),
      s.canFree n = true ∧ StrictHead s s.canEligible (64 + n) tc ∧ s.copies ((64 + n) * 8 + tc) = c :: rest ∧
      ((s.frameOf c.frame).bus && busFormat (s.copyBytes c) == 4) = false ∧ State.wayOutCan ((s.setCopies ((64 + n)
      * 8 + tc) rest).setSwc
      { (s.setCopies ((64 + n) * 8 + tc) rest).swc with tx := kvSet s.swc.tx (64 + n) ⟨{ c with attempts := c.attempts + 1 }, [], false, false, s.now⟩ })
      { c with attempts := c.attempts + 1 } = (.sent line, s')) ∧
    (∃ (s : State) (n : Nat) (x : TxCopy),
      n < 24 ∧ kvGet? s.swc.tx (64 + n) = some x ∧ LineCalm s (64 + n) ∧ PlainCopy x.copy ∧ x.copy.tag = none ∧
      x.copy.port = 64 + n ∧ s.regBit (R.CAN_TDC n) 16 = false ∧ s.regBit R.TBL_TRACK_CTRL n = false ∧ (s.canCh
      n).tec ≤ 255 ∧ (s.canCh n).rec_ ≤ 128 ∧ (s.canCh n).busOff = false) ∧
    (∃ (s : State) (n : Nat) (x : TxCopy),
      n < 24 ∧ kvGet? s.swc.tx (64 + n) = some x ∧ LineCalm s (64 + n) ∧ s.regBit (R.SWC_PSTAT (64 + n)) 1 = false) ∧
    (∃ (s : State) (n : Nat) (code : Nat) (dp : Bool) (x : TxCopy),
      n < 24 ∧ kvGet? s.swc.tx (64 + n) = some x ∧ LineCalm s (64 + n) ∧ s.regBit (R.SWC_PSTAT (64 + n)) 1 = false ∧
      (s.regFld (R.CAN_CFG n) 23 16 = 255 ∨ x.copy.errs + 1 ≤ s.regFld (R.CAN_CFG n) 23 16) ∧ (s.canCh n).tec + 8 <
      96 ∧ (s.canCh n).rec_ < 96 ∧ (s.canCh n).busOff = false) ∧
    (∃ (s : State) (n : Nat) (code : Nat) (dp : Bool) (x : TxCopy),
      n < 24 ∧ kvGet? s.swc.tx (64 + n) = some x ∧ LineCalm s (64 + n) ∧ PlainCopy x.copy ∧ x.copy.port = 64 + n ∧
      s.regFld (R.CAN_CFG n) 23 16 ≠ 255 ∧ s.regFld (R.CAN_CFG n) 23 16 < x.copy.errs + 1) ∧
    (∃ (s : State) (n : Nat) (code : Nat) (dp : Bool) (x : TxCopy),
      n < 24 ∧ kvGet? s.swc.tx (64 + n) = some x ∧ LineCalm s (64 + n) ∧ s.regBit (R.SWC_PSTAT (64 + n)) 1 = false ∧
      s.regFld (R.CAN_CFG n) 23 16 = 255 ∧ 255 < (s.canCh n).tec + 8 ∧ (s.canCh n).busOff = false) :=
  ⟨⟨busQ (guardBus (st (canRegs 4 ++ guardRegs 68)) 68) 68 7 (busBytes 4), (sentCan (busQ (guardBus (st (canRegs 4
  ++ guardRegs 68)) 68) 68 7 (busBytes 4)) 4 7 (copy0 68 7) []).2, 4, 7, copy0 68 7, [], (sentCan (busQ (guardBus
  (st (canRegs 4 ++ guardRegs 68)) 68) 68 7 (busBytes 4)) 4 7 (copy0 68 7) []).1, by decide +kernel,
  by decide +kernel, by decide +kernel, by decide +kernel, by decide +kernel⟩,
    ⟨busTx (st (canRegs 4)) 68 7 (busBytes 4) (copy0 68 7), 4, txc 68 7 (busBytes 4) (copy0 68 7),
    by decide +kernel, by decide +kernel, by decide +kernel, by decide +kernel, by decide +kernel,
    by decide +kernel, by decide +kernel, by decide +kernel, by decide +kernel, by decide +kernel,
    by decide +kernel⟩,
    ⟨busTx (st (canRegs 4)) 68 7 (busBytes 4) (copy0 68 7), 4, txc 68 7 (busBytes 4) (copy0 68 7),
    by decide +kernel, by decide +kernel, by decide +kernel, by decide +kernel⟩,
    ⟨canHas (busTx (st (canRegs 4)) 68 7 (busBytes 4) (copy0 68 7)) 4 ⟨87, 95, false, false⟩, 4, 1, true, txc 68 7
    (busBytes 4) (copy0 68 7), by decide +kernel, by decide +kernel, by decide +kernel, by decide +kernel,
    by decide +kernel, by decide +kernel, by decide +kernel, by decide +kernel⟩,
    ⟨busTx (st (canRegs 4)) 68 7 (busBytes 4) { copy0 68 7 with errs := 1 }, 4, 1, true, txc 68 7 (busBytes 4)
    { copy0 68 7 with errs := 1 }, by decide +kernel, by decide +kernel, by decide +kernel, by decide +kernel,
    by decide +kernel, by decide +kernel, by decide +kernel⟩,
    ⟨canHas (busTx (st (canRegs 4 ++ [(R.CAN_CFG 4, 0xFF2005)])) 68 7 (busBytes 4) (copy0 68 7)) 4 ⟨248, 0, false,
    false⟩, 4, 1, true, txc 68 7 (busBytes 4) (copy0 68 7), by decide +kernel, by decide +kernel, by decide +kernel,
    by decide +kernel, by decide +kernel, by decide +kernel, by decide +kernel⟩⟩

/-- States and operands that meet the hypotheses of BusChannels, clause by clause. -/
theorem met_BusChannels :
    (∃ (s : State) (m : Master) (n : Nat) (v : Nat) (l : Loc),
      n < 24 ∧ Writable s m (R.CAN_CFG n) (withBit v 0) l ∧ s.regBit (R.CAN_CFG n) 0 = false) ∧
    (∃ (s : State) (m : Master) (n : Nat) (v : Nat) (l : Loc),
      n < 24 ∧ Writable s m (R.CAN_CFG n) (sansBit v 0) l ∧ s.regBit (R.CAN_CFG n) 0 = true) ∧
    (∃ (s : State) (m : Master) (n : Nat) (v : Nat) (l : Loc),
      n < 24 ∧ Writable s m (R.CAN_CMD n) (withBit v 0) l ∧ s.canState n = 2) ∧
    (∃ (s : State) (n : Nat),
      n < 24 ∧ alive s (canDomain n) = true ∧ s.canState n = 2 ∧ (s.canCh n).recovering = true ∧ s.safeDue = false) ∧
    (∃ (s : State) (n : Nat) (tc : Nat) (c : Copy),
      n < 24 ∧ 2 ≤ s.canState n ∧ alive s 3 = true ∧ tc < 8 ∧ s.swc.queues = [((64 + n) * 8 + tc, [c])] ∧ s.aged c =
      true ∧ PlainCopy c ∧ c.port = 64 + n ∧ c.tc = tc) ∧
    (∃ (s : State) (n : Nat),
      n < 24 ∧ alive s (canDomain n) = true ∧ s.canState n = 2 ∧ (s.canCh n).recovering = true ∧ s.safeDue = true) ∧
    (∃ (s : State) (n : Nat) (tc : Nat) (c : Copy) (rest : List Copy),
      s.linOn n = true ∧ alive s 3 = true ∧ s.meRuns (linHome n) = true ∧ s.regBit (R.SWC_PCTL (96 + n)) 0 = true ∧
      StrictHead s s.linEligible (96 + n) tc ∧ s.copies ((96 + n) * 8 + tc) = c :: rest ∧ (s.frameOf c.frame).bus =
      true ∧ busFormat (s.copyBytes c) = 3 ∧ busAgrees (s.copyBytes c) = true ∧ c.protect ≠ 1 ∧ (kvGet (s.linCh
      n).bufs ((busHdr (s.copyBytes c)).id % 64) ⟨[], false, none⟩).copy = none) ∧
    (∃ (s : State) (m : Master) (n : Nat) (v : Nat) (l : Loc),
      n < 8 ∧ Writable s m (R.LIN_SCHED_CTRL n) v l ∧ fld (word v) 1 0 ≠ (s.linCh n).table ∧ (s.linCh n).slot = none
      ∧ (s.linCh n).pass = none) ∧
    (∃ (s : State) (m : Master) (n : Nat) (v : Nat) (l : Loc),
      n < 8 ∧ Writable s m (R.LIN_SCHED_CTRL n) v l ∧ fld (word v) 1 0 ≠ (s.linCh n).table ∧ (s.linCh n).slot ≠
      none) ∧
    (∃ (s : State) (m : Master) (n : Nat) (v : Nat) (l : Loc),
      n < 8 ∧ Writable s m (R.LIN_CMD n) (withBit v 0) l ∧ s.regBit (R.LIN_CFG n) 0 = true) ∧
    (∃ (s : State) (n : Nat),
      s.linOn n = true) ∧
    (∃ (s : State) (n : Nat),
      s.linOn n = true) :=
  ⟨⟨canHas (st []) 4 ⟨248, 0, true, false⟩, keeper, 4, 0xFF2084, locOf (R.CAN_CFG 4), by decide +kernel,
  writable_iff (by decide +kernel), by decide +kernel⟩,
    ⟨canHas (st [(R.CAN_CFG 4, 0xFF2085)]) 4 ⟨256, 0, true, true⟩, keeper, 4, 0xFF2085, locOf (R.CAN_CFG 4),
    by decide +kernel, writable_iff (by decide +kernel), by decide +kernel⟩,
    ⟨canHas (st [(R.CAN_CFG 4, 0xFF2085)]) 4 ⟨256, 0, true, false⟩, keeper, 4, 0, locOf (R.CAN_CMD 4),
    by decide +kernel, writable_iff (by decide +kernel), by decide +kernel⟩,
    ⟨canHas (st [(R.CAN_CFG 4, 0xFF2085)]) 4 ⟨256, 0, true, true⟩, 4, by decide +kernel, by decide +kernel,
    by decide +kernel, by decide +kernel, by decide +kernel⟩,
    ⟨at3 (busQ (st [(R.SWC_QAGE (68 * 8 + 7), 5)]) 68 7 (busBytes 4)) 6000, 4, 7, copy0 68 7, by decide +kernel,
    by decide +kernel, by decide +kernel, by decide +kernel, by decide +kernel, by decide +kernel,
    by decide +kernel, by decide +kernel, by decide +kernel⟩,
    ⟨canHas (st [(R.CAN_CFG 4, 0xFF2085), (R.GRD_STATUS, 1), (R.GRD_PCFG 68, 0x1401)]) 4 ⟨256, 0, true, true⟩, 4,
    by decide +kernel, by decide +kernel, by decide +kernel, by decide +kernel, by decide +kernel⟩,
    ⟨busQ (st (linRegs 3)) 99 2 (mkBus 63 3 0 0 0 0 27 0 0 [1, 2]), 3, 2, copy0 99 2, [], by decide +kernel,
    by decide +kernel, by decide +kernel, by decide +kernel, by decide +kernel, by decide +kernel,
    by decide +kernel, by decide +kernel, by decide +kernel, by decide +kernel, by decide +kernel⟩,
    ⟨(st (linRegs 3)).setLinCh 3 { LinCh.start with entry := 1, want := some 2 }, keeper, 3, 7, locOf
    (R.LIN_SCHED_CTRL 3), by decide +kernel, writable_iff (by decide +kernel), by decide +kernel, by decide +kernel,
    by decide +kernel⟩,
    ⟨(st (linRegs 3)).setLinCh 3 { LinCh.start with slot := some ⟨63, 1, 0, some [1, 2], none, 0⟩, entry := 1 },
    keeper, 3, 3, locOf (R.LIN_SCHED_CTRL 3), by decide +kernel, writable_iff (by decide +kernel),
    by decide +kernel, by decide +kernel⟩,
    ⟨st (linRegs 7), keeper, 7, 0, locOf (R.LIN_CMD 7), by decide +kernel, writable_iff (by decide +kernel),
    by decide +kernel⟩,
    ⟨st (linRegs 7), 7, by decide +kernel⟩,
    ⟨st (linRegs 7), 7, by decide +kernel⟩⟩

/-- States and operands that meet the hypotheses of LinFrames, clause by clause. -/
theorem met_LinFrames :
    (∃ (s : State) (n : Nat) (t : Nat) (id : Nat) (d : Bytes),
      s.linOn n = true ∧ s.regBit (R.LIN_CFG n) 1 = true ∧ s.regBit (R.LIN_SCHED_CTRL n) 2 = true ∧ s.meRuns
      (linHome n) = true ∧ (s.linCh n).slot = none ∧ (s.linCh n).pass = none ∧ (s.linCh n).table = t ∧ s.regFld
      (R.LIN_SCHED_LEN n t) 6 0 ≠ 0 ∧ fld (s.reg (R.LIN_SCH n t (s.linCh n).entry)) 10 8 = 1 ∧ fld (s.reg (R.LIN_SCH
      n t (s.linCh n).entry)) 5 0 = id ∧ s.linDir n id = 2 ∧ s.regBit (R.LIN_ID n id) 7 = false ∧ kvGet? (s.linCh
      n).bufs id = some ⟨d, false, none⟩ ∧ d ≠ [] ∧ s.guardCause (96 + n) ⟨96 + n, 0, s.linFrame n id d, d.length⟩ =
      none) ∧
    (∃ (s : State) (n : Nat) (id : Nat),
      s.linOn n = true ∧ s.regBit (R.LIN_CFG n) 1 = false ∧ id < 64 ∧ s.meRuns (linHome n) = true ∧ (s.linCh n).slot
      = none ∧ s.linDir n id = 1) ∧
    (∃ (s : State) (n : Nat) (x : LinSlot) (data : Bytes),
      s.linOn n = true ∧ LineCalm s (96 + n) ∧ s.meRuns (linHome n) = false ∧ (s.linCh n).slot = some x ∧ x.type_ =
      1 ∧ x.copy = none ∧ s.linDir n x.id = 1 ∧ data ≠ [] ∧ data.length ≤ 8 ∧ s.regBit (R.LIN_CFG n) 1 = false) ∧
    (∃ (s : State) (n : Nat) (x : LinSlot) (data : Bytes),
      s.linOn n = true ∧ LineCalm s (96 + n) ∧ (s.linCh n).slot = some x ∧ x.type_ = 1 ∧ x.copy = none ∧ s.linDir n
      x.id = 1 ∧ s.regBit (R.LIN_CFG n) 1 = false) ∧
    (∃ (s : State) (n : Nat) (x : LinSlot) (d : Bytes),
      s.linOn n = true ∧ LineCalm s (96 + n) ∧ (s.linCh n).slot = some x ∧ x.data = some d ∧ x.copy = none ∧
      s.regBit (R.LIN_CFG n) 1 = true ∧ (s.linCh n).pass = none ∧ (s.linCh n).want = none) :=
  ⟨⟨(guardBus (st (linRegs 3 ++ guardRegs 99 ++ [(R.LIN_SCHED_CTRL 3, 4), (R.LIN_SCHED_LEN 3 0, 2), (R.LIN_SCH 3 0
  0, 0x0013113F), (R.LIN_ID 3 63, 0x2)])) 99).setLinCh 3 { LinCh.start with bufs := [(63, ⟨[1, 2], false, none⟩)] },
  3, 0, 63, [1, 2], by decide +kernel, by decide +kernel, by decide +kernel, by decide +kernel, by decide +kernel,
  by decide +kernel, by decide +kernel, by decide +kernel, by decide +kernel, by decide +kernel, by decide +kernel,
  by decide +kernel, by decide +kernel, by decide +kernel, by decide +kernel⟩,
    ⟨st (linRegs 3 ++ [(R.LIN_CFG 3, 0x4B0000B5), (R.LIN_ID 3 63, 1)]), 3, 63, by decide +kernel, by decide +kernel,
    by decide +kernel, by decide +kernel, by decide +kernel, by decide +kernel⟩,
    ⟨(st (linRegs 3 ++ [(R.LIN_CFG 3, 0x4B0000B5), (R.LIN_ID 3 63, 1), (R.MEC_CTRL, 0)])).setLinCh 3
    { LinCh.start with slot := some ⟨63, 1, 0, none, none, 0⟩ }, 3, ⟨63, 1, 0, none, none, 0⟩, [1, 2, 3, 4, 5, 6, 7,
    8], by decide +kernel, by decide +kernel, by decide +kernel, by decide +kernel, by decide +kernel,
    by decide +kernel, by decide +kernel, by decide +kernel, by decide +kernel, by decide +kernel⟩,
    ⟨(st (linRegs 3 ++ [(R.LIN_CFG 3, 0x4B0000B5), (R.LIN_ID 3 63, 1), (R.MEC_CTRL, 0)])).setLinCh 3
    { LinCh.start with slot := some ⟨63, 1, 0, none, none, 0⟩ }, 3, ⟨63, 1, 0, none, none, 0⟩, [1, 2, 3, 4, 5, 6, 7,
    8], by decide +kernel, by decide +kernel, by decide +kernel, by decide +kernel, by decide +kernel,
    by decide +kernel, by decide +kernel⟩,
    ⟨(st (linRegs 3 ++ [(R.LIN_SCHED_CTRL 3, 4), (R.LIN_SCHED_LEN 3 0, 2), (R.LIN_ID 3 63, 0x2)])).setLinCh 3
    { LinCh.start with slot := some ⟨63, 1, 0, some [1, 2], none, 0⟩, entry := 1 }, 3, ⟨63, 1, 0, some [1, 2], none,
    0⟩, [1, 2], by decide +kernel, by decide +kernel, by decide +kernel, by decide +kernel, by decide +kernel,
    by decide +kernel, by decide +kernel, by decide +kernel⟩⟩

/-- States and operands that meet the hypotheses of TransportReception, clause by clause. -/
theorem met_TransportReception :
    (∃ (s : State) (n : Nat) (e : Nat) (f : CanFrame) (a : Announce),
      s.tpHears n = true ∧ tpFrame f = true ∧ f.id < 2 ^ 29 ∧ announceOf (pgnOf f.id) f.data = some a ∧ s.tpEntry n
      (cmPgn f.data) a.etp = some e ∧ (∀ x ∈ s.bus.rx, x.same n (f.id % 256) (f.id / 256 % 256) (cmPgn f.data) =
      false) ∧ 0 < a.total ∧ a.total ≤ 65536 ∧ s.tpOpen (canDomain n) < 128 ∧ s.bus.rx.length < s.tpRoom ∧
      s.tpAnswers e (f.id / 256 % 256) a.bam = false) ∧
    (∃ (s : State) (n : Nat) (f : CanFrame) (x : TpRx),
      s.tpHears n = true ∧ tpFrame f = true ∧ f.id < 2 ^ 29 ∧ s.bus.rx = [x] ∧ x.ch = n ∧ x.sa = f.id % 256 ∧ x.da =
      f.id / 256 % 256 ∧ pgnOf f.id = dtOf x.etp ∧ byteAt f.data 0 = x.next ∧ x.got.length + 7 < x.total ∧
      (s.tpAnswers x.entry x.da x.bam = false ∨ x.got.length + 7 < x.clear * 7)) ∧
    (∃ (s : State) (n : Nat) (f : CanFrame) (x : TpRx),
      s.tpHears n = true ∧ tpFrame f = true ∧ f.id < 2 ^ 29 ∧ s.bus.rx = [x] ∧ x.ch = n ∧ x.sa = f.id % 256 ∧ x.da =
      f.id / 256 % 256 ∧ pgnOf f.id = dtOf x.etp ∧ byteAt f.data 0 = x.next ∧ x.total ≤ x.got.length + 7 ∧
      x.got.length < x.total ∧ s.tpAnswers x.entry x.da x.bam = false) ∧
    (∃ (s : State) (x : TpRx),
      s.bus.rx = [x] ∧ x.ch < 24 ∧ s.sessionRuns (canDomain x.ch) = true ∧ x.wait * 1000000 ≤ s.now - x.last ∧
      s.tpAnswers x.entry x.da x.bam = false) ∧
    (∃ (s : State) (n : Nat) (f : CanFrame) (x : TpRx),
      s.tpHears n = true ∧ tpFrame f = true ∧ f.id < 2 ^ 29 ∧ pgnOf f.id = 0xEC00 ∧ byteAt f.data 0 = 0xFF ∧
      s.bus.rx = [x] ∧ n < 24 ∧ x.same n (f.id % 256) (f.id / 256 % 256) (cmPgn f.data) = true) :=
  ⟨⟨st (tpRegs 4), 4, 3, tpF (6 * 2 ^ 26 + 0xECFF * 256 + 5) [32, 20, 0, 3, 255, 0xCA, 0xFE, 0], ⟨false, true, 20⟩,
  by decide +kernel, by decide +kernel, by decide +kernel, by decide +kernel, by decide +kernel, by decide +kernel,
  by decide +kernel, by decide +kernel, by decide +kernel, by decide +kernel, by decide +kernel⟩,
    ⟨(st (tpRegs 4)).setTpRx [tpRx0 4 3 20 []], 4, tpF (6 * 2 ^ 26 + 0xEBFF * 256 + 5) [1, 20, 0, 3, 255, 0xCA,
    0xFE, 0], tpRx0 4 3 20 [], by decide +kernel, by decide +kernel, by decide +kernel, by decide +kernel,
    by decide +kernel, by decide +kernel, by decide +kernel, by decide +kernel, by decide +kernel,
    by decide +kernel, by decide +kernel⟩,
    ⟨(st (tpRegs 4)).setTpRx [tpRx0 4 3 9 (List.replicate 7 1)], 4, tpF (6 * 2 ^ 26 + 0xEBFF * 256 + 5) [2, 20, 0,
    3, 255, 0xCA, 0xFE, 0], tpRx0 4 3 9 (List.replicate 7 1), by decide +kernel, by decide +kernel,
    by decide +kernel, by decide +kernel, by decide +kernel, by decide +kernel, by decide +kernel,
    by decide +kernel, by decide +kernel, by decide +kernel, by decide +kernel, by decide +kernel⟩,
    ⟨at3 ((st (tpRegs 4)).setTpRx [tpRx0 4 3 9 (List.replicate 7 1)]) 750000000, tpRx0 4 3 9 (List.replicate 7 1),
    by decide +kernel, by decide +kernel, by decide +kernel, by decide +kernel, by decide +kernel⟩,
    ⟨(st (tpRegs 4)).setTpRx [tpRx0 4 3 9 (List.replicate 7 1)], 4, tpF (6 * 2 ^ 26 + 0xECFF * 256 + 5) [255, 20, 0,
    3, 255, 0xCA, 0xFE, 0], tpRx0 4 3 9 (List.replicate 7 1), by decide +kernel, by decide +kernel,
    by decide +kernel, by decide +kernel, by decide +kernel, by decide +kernel, by decide +kernel,
    by decide +kernel⟩⟩

/-- States and operands that meet the hypotheses of TransportTransmission, clause by clause. -/
theorem met_TransportTransmission :
    (∃ (s : State) (n : Nat) (y : TpTx) (c : Copy),
      s.tpHears n = true ∧ s.canCounts n = true ∧ s.bus.tx = [y] ∧ y.ch = n ∧ y.started = false ∧ y.nseg = 1 ∧
      y.segs = [(0, c)] ∧ (busData (s.copyBytes c)).length ≤ 1785 ∧ s.regBit R.TBL_TRACK_CTRL n = false ∧
      (let msg := busData (s.copyBytes c); let x := s.txMsg c msg.length; let line := tpLine (tpId x.prio 0xEC00 x.da x.sa) (rtsData false x.bam msg.length x.pgn); s.guardCause (64 + n) ⟨c.ingress, c.stream, line, 8⟩ = none))
      ∧
    (∃ (s : State) (n : Nat) (y : TpTx) (c : Copy),
      n < 24 ∧ s.sessionRuns (canDomain n) = true ∧ s.bus.tx = [y] ∧ y.ch = n ∧ y.started = false ∧ 1 < y.nseg ∧
      y.segs = [(0, c)] ∧ PlainCopy c ∧ c.port = 64 + n ∧ 1250000000 ≤ s.now - y.last) ∧
    (∃ (s : State) (n : Nat) (y : TpTx) (c : Copy),
      n < 24 ∧ s.sessionRuns (canDomain n) = true ∧ s.bus.tx = [y] ∧ y.ch = n ∧ y.started = true ∧ y.nseg = 1 ∧
      y.segs = [(0, c)] ∧ PlainCopy c ∧ c.port = 64 + n) ∧
    (∃ (s : State) (n : Nat) (y : TpTx) (c : Copy),
      n < 24 ∧ s.canOn n = true ∧ s.canCounts n = true ∧ s.sessionRuns (canDomain n) = true ∧ s.bus.tx = [y] ∧ y.ch
      = n ∧ y.started = true ∧ y.nseg = 1 ∧ y.segs = [(0, c)] ∧ 0 < y.msg.length ∧ y.msg.length ≤ 7 ∧ PlainCopy c ∧
      c.port = 64 + n ∧ c.tag = none ∧ s.regBit R.TBL_TRACK_CTRL n = false ∧
      (let x := s.txMsg c y.msg.length; let line := tpLine (tpId x.prio 0xEB00 x.da x.sa) ([1#8] ++ y.msg ++ List.replicate (7 - y.msg.length) 0xFF#8); s.guardCause (64 + n) ⟨c.ingress, c.stream, line, 8⟩ = none))
      ∧
    (∃ (s : State) (t : TunFrame) (rest : List TunFrame),
      alive s 3 = true ∧ s.bus.tun = t :: rest) ∧
    (∃ (s : State) (n : Nat),
      n < 16 ∧ s.meRuns n = true ∧ Mild s 54 2) :=
  ⟨⟨(busQ (guardBus (st (tpRegs 4 ++ guardRegs 68)) 68) 68 7 (tpSeg 4)) |> fun s =>
  { s with swc := { s.swc with queues := [] }, bus := { s.bus with tx := [⟨4, 1, 1, [(0, copy0 68 7)], 0, false, []⟩] } },
  4, ⟨4, 1, 1, [(0, copy0 68 7)], 0, false, []⟩, copy0 68 7, by decide +kernel, by decide +kernel,
  by decide +kernel, by decide +kernel, by decide +kernel, by decide +kernel, by decide +kernel, by decide +kernel,
  by decide +kernel, by dsimp only; decide +kernel⟩,
    ⟨at3 ((busQ (guardBus (st (tpRegs 4 ++ guardRegs 68)) 68) 68 7 (tpSeg 4)) |> fun s =>
    { s with swc := { s.swc with queues := [] }, bus := { s.bus with tx := [⟨4, 1, 2, [(0, copy0 68 7)], 0, false, []⟩] } })
    1250000000, 4, ⟨4, 1, 2, [(0, copy0 68 7)], 0, false, []⟩, copy0 68 7, by decide +kernel, by decide +kernel,
    by decide +kernel, by decide +kernel, by decide +kernel, by decide +kernel, by decide +kernel,
    by decide +kernel, by decide +kernel, by decide +kernel⟩,
    ⟨(busQ (guardBus (st (tpRegs 4 ++ guardRegs 68)) 68) 68 7 (tpSeg 4)) |> fun s =>
    { s with swc := { s.swc with queues := [] }, bus := { s.bus with tx := [⟨4, 1, 1, [(0, copy0 68 7)], 0, true, [1, 2]⟩] } },
    4, ⟨4, 1, 1, [(0, copy0 68 7)], 0, true, [1, 2]⟩, copy0 68 7, by decide +kernel, by decide +kernel,
    by decide +kernel, by decide +kernel, by decide +kernel, by decide +kernel, by decide +kernel,
    by decide +kernel, by decide +kernel⟩,
    ⟨(busQ (guardBus (st (tpRegs 4 ++ guardRegs 68)) 68) 68 7 (tpSeg 4)) |> fun s =>
    { s with swc := { s.swc with queues := [] }, bus := { s.bus with tx := [⟨4, 1, 1, [(0, copy0 68 7)], 0, true, [1, 2, 3, 4, 5, 6, 7]⟩] } },
    4, ⟨4, 1, 1, [(0, copy0 68 7)], 0, true, [1, 2, 3, 4, 5, 6, 7]⟩, copy0 68 7, by decide +kernel,
    by decide +kernel, by decide +kernel, by decide +kernel, by decide +kernel, by decide +kernel,
    by decide +kernel, by decide +kernel, by decide +kernel, by decide +kernel, by decide +kernel,
    by decide +kernel, by decide +kernel, by decide +kernel, by decide +kernel, by dsimp only; decide +kernel⟩,
    ⟨{ State.reset with bus := { State.reset.bus with tun := [⟨0, List.replicate 40 1, [0, 0, 0, 0]⟩] } }, ⟨0,
    List.replicate 40 1, [0, 0, 0, 0]⟩, [], by decide +kernel, by decide +kernel⟩,
    ⟨st [(R.MEC_CTRL, 0x8000), (fltReg 54 8, 0), (fltReg 54 12, 0)], 15, by decide +kernel, by decide +kernel,
    by decide +kernel⟩⟩

/-- States and operands that meet the hypotheses of SignalCells, clause by clause. -/
theorem met_SignalCells :
    (∃ (s : State) (m : Master) (n : Nat) (b : Nat) (w : Word),
      n < 65536 ∧ inbound m = false ∧ debugClosed s m = false ∧ inReset s 15 = false ∧ s.groupOf n = (n, 1) ∧
      s.wmaskBit m = some b ∧ (fld (s.attrOf n) 6 0).testBit b = true ∧ cellState w < 6 ∧ s.regBit R.PLE_CTRL 0 =
      false ∧ s.regBit R.SIG_CTRL 1 = false) ∧
    (∃ (s : State) (m : Master) (n : Nat) (b : Nat) (w : Word),
      n < 65536 ∧ inbound m = false ∧ debugClosed s m = false ∧ inReset s 15 = false ∧ s.groupOf n = (n, 1) ∧
      s.wmaskBit m = some b ∧ (fld (s.attrOf n) 6 0).testBit b = false ∧ s.reg R.SIG_WDENY_CNT = 0 ∧ Mild s 22 3) ∧
    (∃ (s : State) (n : Nat) (w : Word),
      s.regBit R.SIG_CTRL 2 = true ∧ alive s 15 = true ∧ s.sig.cell = [(n, w)] ∧ s.groupOf n = (n, 1) ∧ fld
      (s.attrOf n) 27 16 ≠ 0 ∧ (cellState w = 0 ∨ cellState w = 2 ∨ cellState w = 3) ∧ fld (s.attrOf n) 27 16 * 1000
      < (s.nowUs % 2 ^ 32 + 2 ^ 32 - kvGet s.sig.stamp n 0) % 2 ^ 32) ∧
    (∃ (s : State) (n : Nat),
      s.periodicDue n = true) ∧
    (∃ (s : State) (n : Nat),
      s.deferredDue n = true ∧ s.regBit R.SIG_CTRL 1 = true ∧ alive s 15 = true ∧ bitOf (s.sig.act.wordOf 3 n 0) 31
      = true) :=
  ⟨⟨attr (st [(R.SIG_CTRL, 0)]) 65535 1, ⟨0x10, .machine⟩, 65535, 0, 0x12345600, by decide +kernel,
  by decide +kernel, by decide +kernel, by decide +kernel, by decide +kernel, by decide +kernel, by decide +kernel,
  by decide +kernel, by decide +kernel, by decide +kernel⟩,
    ⟨attr (st [(fltReg 22 8, 0), (fltReg 22 12, 0)]) 65535 2, ⟨0x10, .machine⟩, 65535, 0, 0x12345600,
    by decide +kernel, by decide +kernel, by decide +kernel, by decide +kernel, by decide +kernel,
    by decide +kernel, by decide +kernel, by decide +kernel, by decide +kernel⟩,
    ⟨at3
    { attr (st [(R.SIG_CTRL, 6)]) 65535 0x00010001 with sig := { (attr State.reset 65535 0x00010001).sig with cell := [(65535, 0x12345640)] } }
    1001000, 65535, 0x12345640, by decide +kernel, by decide +kernel, by decide +kernel, by decide +kernel,
    by decide +kernel, by decide +kernel, by decide +kernel⟩,
    ⟨pack (st [(R.SIG_CTRL, 2)]) 8191 [0x80000000, 1, 0, 0], 8191, by decide +kernel⟩,
    ⟨{ pack (st [(R.SIG_CTRL, 2)]) 0 [0x80000001, 1, 0, 0] with sig := { (pack (st [(R.SIG_CTRL, 2)]) 0 [0x80000001, 1, 0, 0]).sig with deferred := [0] } },
    0, by decide +kernel, by decide +kernel, by decide +kernel, by decide +kernel⟩⟩

/-- States and operands that meet the hypotheses of RouteImages, clause by clause. -/
theorem met_RouteImages :
    (∃ (s : State) (m : Master) (v : Nat) (l : Loc),
      Writable s m R.SIG_LD_CTRL (withBit (sansBit v 8) 31) l ∧ (s.reg R.SIG_LD_LEN).toNat ≠ 0 ∧ s.sig.switch =
      none) ∧
    (∃ (s : State) (m : Master) (v : Nat) (l : Loc),
      Writable s m R.SIG_LD_CTRL (withBit v 8) l ∧ s.sig.switch = none) ∧
    (∃ (s : State) (j : LoadJob),
      alive s 15 = true ∧ s.sig.load = some j ∧ j.clear = false) ∧
    (∃ (s : State) (m : Master) (v : Nat) (l : Loc),
      Writable s m R.SIG_RI_ARM (withBit v 0) l) ∧
    (∃ (s : State) (src : Nat) (ring : Nat) (bs : Bytes),
      bs = s.readImage src 0x1000000 ∧ alive s 1 = true ∧ alive s 4 = true ∧ alive s 15 = true ∧ s.sig.load = none ∧
      s.ple.load = none ∧ s.drainCount = 0 ∧ s.pleDrain = 0 ∧ s.sig.switch = none ∧ imgForm bs (ascii "PGRT")
      s.routeMajors routeTypes 0x1000000 = true ∧ routeFits bs = true ∧ (∀ x ∈ imgSections bs, 0x10 ≤ x.type_) ∧ (∀
      t ∈ [0, 1, 2, 3, 5, 9], s.tbl.table t true = []) ∧ (routeSig bs).armCheck = none ∧ (routePle bs).armCheck =
      none ∧ s.aud.gap = 0 ∧ s.unexported + 3 ≤ ringEntries) ∧
    (∃ (s : State) (m : Master) (v : Nat) (at_ : Nat) (l : Loc),
      Writable s m R.SIG_EPOCH_CTRL (withBit (sansBit v 1) 0) l ∧ at_ = (s.reg (R.SIG_EPOCH_AT 0)).toNat + (s.reg
      (R.SIG_EPOCH_AT 1)).toNat * 2 ^ 32) ∧
    (∃ (s : State) (m : Master) (v : Nat) (r : EpochReq) (l : Loc),
      Writable s m R.SIG_EPOCH_CTRL (withBit (sansBit v 0) 1) l ∧ s.sig.switch = some r) ∧
    (∃ (s : State) (r : EpochReq),
      s.sig.switch = some r ∧ s.switchDue = true ∧ alive s 15 = true ∧ LogRoom s) :=
  ⟨⟨st [(R.SIG_LD_LEN, 4), (R.SIG_LD_SRC 0, 0), (R.SIG_LD_SRC 1, 8), (R.SIG_RI_ARM, 1)], keeper, 2, locOf
  R.SIG_LD_CTRL, writable_iff (by decide +kernel), by decide +kernel, by decide +kernel⟩,
    ⟨st [], keeper, 5, locOf R.SIG_LD_CTRL, writable_iff (by decide +kernel), by decide +kernel⟩,
    ⟨{ withMem (st [(R.SIG_LD_STAT, 1)]) 0x800000000 [1, 2, 3, 4] with sig := { State.reset.sig with load := some ⟨false, 2, 0x800000000, 0, 4⟩ } },
    ⟨false, 2, 0x800000000, 0, 4⟩, by decide +kernel, by decide +kernel, by decide +kernel⟩,
    ⟨st [], keeper, 0, locOf R.SIG_RI_ARM, writable_iff (by decide +kernel)⟩,
    ⟨withMem (st []) 0x800000000 img0, 0x800000000, 3, img0, by decide +kernel, by decide +kernel,
    by decide +kernel, by decide +kernel, by decide +kernel, by decide +kernel, by decide +kernel,
    by decide +kernel, by decide +kernel, by decide +kernel, by decide +kernel, by decide +kernel,
    by decide +kernel, by decide +kernel, by decide +kernel, by decide +kernel, by decide +kernel⟩,
    ⟨st [(R.SIG_RI_ARM, 1)], keeper, 0, 0, locOf R.SIG_EPOCH_CTRL, writable_iff (by decide +kernel),
    by decide +kernel⟩,
    ⟨{ st [(R.SIG_RI_ARM, 1), (R.SIG_EPOCH_CTRL, 1)] with sig := { State.reset.sig with switch := some ⟨none, keeper⟩ } },
    keeper, 0, ⟨none, keeper⟩, locOf R.SIG_EPOCH_CTRL, writable_iff (by decide +kernel), by decide +kernel⟩,
    ⟨{ attr (st [(R.SIG_RI_ARM, 1), (R.SIG_EPOCH_CTRL, 1)]) 7 5 with sig := { (attr State.reset 7 5).sig with switch := some ⟨some (3, 0), keeper⟩, cell := [(7, 5), (8, 6)] } },
    ⟨some (3, 0), keeper⟩, by decide +kernel, by decide +kernel, by decide +kernel, by decide +kernel⟩⟩

/-- States and operands that meet the hypotheses of TimeMeasurement, clause by clause. -/
theorem met_TimeMeasurement :
    (∃ (s : State) (p : Nat),
      s.pdOn p = true) ∧
    (∃ (s : State) (p : Nat) (seq : Nat) (ago : Nat) (peer : Bytes),
      s.pdOn p = true) ∧
    (∃ (s : State) (p : Nat) (t1 : Nat) (t2 : Nat) (t3 : Nat) (t4 : Nat),
      s.pdOn p = true ∧ (s.portDelay p).out = true ∧ (s.portDelay p).valid = false ∧ (s.portDelay p).lastT3T4 =
      none) ∧
    (∃ (s : State) (p : Nat) (t1 : Nat) (t2 : Nat) (t3 : Nat) (t4 : Nat) (a : Nat) (b : Nat) (r : Nat) (d : Int),
      s.pdOn p = true ∧ (s.portDelay p).out = true ∧ (s.portDelay p).valid = true ∧ (s.portDelay p).lastT3T4 = some
      (a, b) ∧ a < t3 ∧ b < t4 ∧ r = ((t3 - a) * 2 ^ 32 + (t4 - b) / 2) / (t4 - b) ∧ d = roundDiv (((t4 : Int) - t1)
      * r - ((t3 : Int) - t2) * 2 ^ 32) (2 ^ 33) ∧ (d - (s.portDelay p).mld).natAbs ≤ s.regFld (R.TIM_PORT_STEP_THR
      p) 15 0 * 65536) ∧
    (∃ (s : State) (p : Nat),
      s.pdOn p = true ∧ (s.portDelay p).out = true) ∧
    (∃ (s : State) (m : Master) (n : Nat) (v : Nat) (l : Loc) (off : Int) (i : Int),
      n < 3 ∧ Writable s m (R.TIM_TB_OFS_IN n) v l ∧ off = signed 32 (word v).toNat * 2 ^ 28 ∧ (s.tb n).hold = false
      ∧ (s.tb n).foxHold = false ∧ (s.regFld (R.TIM_TB_STEP n) 23 0 = 0 ∨ off.natAbs ≤ s.regFld (R.TIM_TB_STEP n) 23
      0 * frac32) ∧ i = clampI (-(s.rlim n)) (s.rlim n) (roundDiv ((s.tb n).integ * 2 ^ 40 - (s.reg (R.TIM_TB_KI
      n)).toNat * off) (2 ^ 40))) ∧
    (∃ (s : State) (p : Nat) (dom : Nat) (seq : Nat) (ago : Nat) (origin : Nat) (n : Nat) (corr : Int) (csro : Int),
      s.syncBase p dom = some n) ∧
    (∃ (s : State) (p : Nat) (dom : Nat) (seq : Nat) (ago : Nat) (origin : Nat) (n : Nat) (corr : Int) (csro : Int),
      s.syncBase p dom = some n ∧ (s.portDelay p).valid = true) ∧
    (∃ (s : State) (p : Nat) (dom : Nat) (seq : Nat) (origin : Nat) (n : Nat) (corr : Int) (csro : Int) (w :
    SyncWait),
      s.syncBase p dom = some n ∧ kvGet? s.tim.sync n = some w ∧ w.seqId = seq ∧ s.now ≤ w.at3 + giga ∧ (s.portDelay
      p).valid = true) ∧
    (∃ (s : State) (n : Nat) (w : SyncWait),
      kvGet? s.tim.sync n = some w ∧ w.at3 + giga ≤ s.now) ∧
    (∃ (s : State) (n : Nat),
      n < 3 ∧ (n = 2 → s.tim.tb0.hold = false ∧ s.tim.tb1.hold = false) ∧ 0 < s.regFld (R.TIM_TB_HOLD n) 31 16 ∧
      (s.tb n).sampled = true ∧ (s.tb n).holdover = false ∧ (s.tb n).lastSample + s.regFld (R.TIM_TB_HOLD n) 31 16 *
      1000000 ≤ s.now ∧ alive s 15 = true ∧ (s.tb n).locked = true) :=
  ⟨⟨pdSt 1 PortDelay.none, 1, by decide +kernel⟩,
    ⟨at3 (pdSt 1 PortDelay.none) 5000, 1, 7, 100, [1, 2, 3, 4, 5, 6, 7, 8, 9, 10], by decide +kernel⟩,
    ⟨pdSt 1 { PortDelay.none with out := true }, 1, 0, 100, 200, 500, by decide +kernel, by decide +kernel,
    by decide +kernel, by decide +kernel⟩,
    ⟨pdSt 1 { PortDelay.none with out := true, valid := true, lastT3T4 := some (100, 300), mld := 100 }, 1, 0, 100,
    200, 500, 100, 300, _, _, by decide +kernel, by decide +kernel, by decide +kernel, by decide +kernel,
    by decide +kernel, by decide +kernel, rfl, rfl, by decide +kernel⟩,
    ⟨pdSt 1 { PortDelay.none with out := true, valid := true, lost := 2 }, 1, by decide +kernel, by decide +kernel⟩,
    ⟨st [(R.TIM_TB_CFG 2, 3), (R.TIM_TB_RLIM 2, 500)], keeper, 2, 0xFFFFFFF0, locOf (R.TIM_TB_OFS_IN 2), _, _,
    by decide +kernel, writable_iff (by decide +kernel), rfl, by decide +kernel, by decide +kernel,
    by decide +kernel, rfl⟩,
    ⟨st [(R.TIM_CTRL, 1), (R.TIM_TB_CFG 1, 0x00050010)], 1, 5, 7, 0, 0, 1, 3, 4, by decide +kernel⟩,
    ⟨{ st [(R.TIM_CTRL, 1), (R.TIM_TB_CFG 1, 0x00050010)] with tim := { State.reset.tim with pd := [(1, { PortDelay.none with valid := true })] } },
    1, 5, 7, 0, 0, 1, 3, 4, by decide +kernel, by decide +kernel⟩,
    ⟨{ st [(R.TIM_CTRL, 1), (R.TIM_TB_CFG 1, 0x00050010)] with tim := { State.reset.tim with pd := [(1, { PortDelay.none with valid := true })], sync := [(1, ⟨7, [0, 0, 0, 0], 3, 0⟩)] } },
    1, 5, 7, 0, 1, 3, 4, ⟨7, [0, 0, 0, 0], 3, 0⟩, by decide +kernel, by decide +kernel, by decide +kernel,
    by decide +kernel, by decide +kernel⟩,
    ⟨at3 { State.reset with tim := { State.reset.tim with sync := [(1, ⟨7, [0, 0, 0, 0], 3, 0⟩)] } } 1000000000, 1,
    ⟨7, [0, 0, 0, 0], 3, 0⟩, by decide +kernel, by decide +kernel⟩,
    ⟨at3 (tb0S (st [(R.TIM_TB_HOLD 2, 0x00010000)]) 2 fun b => { b with sampled := true, locked := true }) 1000000,
    2, by decide +kernel, by decide +kernel, by decide +kernel, by decide +kernel, by decide +kernel,
    by decide +kernel, by decide +kernel, by decide +kernel⟩⟩

/-- States and operands that meet the hypotheses of BaseCommands, clause by clause. -/
theorem met_BaseCommands :
    (∃ (s : State) (m : Master) (n : Nat) (l : Loc),
      n < 3 ∧ Writable s m (R.TIM_TB_CMD n) 1 l ∧ (n ≠ s.pleBase ∨ s.ple.mode = 0)) ∧
    (∃ (s : State) (m : Master) (n : Nat) (l : Loc),
      n < 3 ∧ Writable s m (R.TIM_TB_CMD n) 2 l ∧ (s.tb n).hold = false) ∧
    (∃ (s : State) (m : Master) (n : Nat) (l : Loc),
      n < 3 ∧ Writable s m (R.TIM_TB_CMD n) 4 l ∧ (s.tb n).hold = true ∧ (s.tb n).asymWritten = false ∧ s.regFld
      (R.TIM_TB_CFG n) 2 1 = 0) ∧
    (∃ (s : State) (m : Master) (n : Nat) (l : Loc),
      n < 3 ∧ Writable s m (R.TIM_TB_CMD n) 4 l ∧ (s.tb n).hold = true ∧ ((s.tb n).asymWritten = true ∨ s.regFld
      (R.TIM_TB_CFG n) 2 1 ≠ 0)) ∧
    (∃ (s : State) (m : Master) (n : Nat) (l : Loc),
      n < 3 ∧ Writable s m (R.TIM_TB_CMD n) 8 l) ∧
    (∃ (s : State) (m : Master) (n : Nat) (v : Nat) (l : Loc),
      n < 3 ∧ Writable s m (R.TIM_TB_CFG n) v l ∧ s.regFld (R.TIM_TB_CFG n) 2 1 = 0 ∧ fld (word v) 2 1 = 0 ∧
      s.regFld (R.TIM_TB_CFG n) 10 4 ≠ fld (word v) 10 4 ∧ (s.tb n).hold = false ∧ (s.portDelay (fld (word v) 10
      4)).valid = false) ∧
    (∃ (s : State) (n : Nat),
      n < 3 ∧ (s.tb n).hold = true ∧ (s.tb n).asymAlarm = false ∧ 2 ≤ (s.tb n).during.length ∧ alive s 15 = true ∧
      (s.tb n).holdAt + s.regFld (R.TIM_TB_HOLD n) 15 0 * 1000000 ≤ s.now ∧ (s.tb n).pre = [] ∧ s.regFld
      (R.TIM_TB_CFG n) 2 1 = 0) ∧
    (∃ (s : State) (n : Nat) (p : Nat) (den : Nat) (num : Int),
      n < 3 ∧ (s.tb n).hold = true ∧ (s.tb n).asymAlarm = false ∧ 2 ≤ (s.tb n).during.length ∧ alive s 15 = true ∧
      (s.tb n).holdAt + s.regFld (R.TIM_TB_HOLD n) 15 0 * 1000000 ≤ s.now ∧ (s.tb n).pre ≠ [] ∧ s.regFld
      (R.TIM_TB_CFG n) 2 1 = 0 ∧ (s.tb n).tb2Locked = true ∧ s.tim.tb2.locked = true ∧ s.regBit (R.TIM_TB_CFG n) 24
      = true ∧ LogRoom s ∧ s.regFld (R.TIM_TB_CFG n) 10 4 = p ∧ num = (s.tb n).during.sum * (s.tb n).pre.length -
      (s.tb n).pre.sum * (s.tb n).during.length ∧ den = (s.tb n).during.length * (s.tb n).pre.length ∧ num.natAbs ≤
      s.regFld (R.TIM_TB_ASYM_LIM n) 15 0 * frac32 * den) :=
  ⟨⟨tb0S (st [(R.TIM_TB_ADJ_NS 2, 5)]) 2 fun b => { b with locked := true }, keeper, 2, locOf (R.TIM_TB_CMD 2),
  by decide +kernel, writable_iff (by decide +kernel), by decide +kernel⟩,
    ⟨st [], keeper, 2, locOf (R.TIM_TB_CMD 2), by decide +kernel, writable_iff (by decide +kernel),
    by decide +kernel⟩,
    ⟨tb0S (st [(R.TIM_TB_CFG 1, 0x11)]) 1 fun b => { b with hold := true }, keeper, 1, locOf (R.TIM_TB_CMD 1),
    by decide +kernel, writable_iff (by decide +kernel), by decide +kernel, by decide +kernel, by decide +kernel⟩,
    ⟨tb0S (st []) 1 fun b => { b with hold := true, asymWritten := true }, keeper, 1, locOf (R.TIM_TB_CMD 1),
    by decide +kernel, writable_iff (by decide +kernel), by decide +kernel, by decide +kernel⟩,
    ⟨tb0S (st []) 1 fun b => { b with asymUnres := true }, keeper, 1, locOf (R.TIM_TB_CMD 1), by decide +kernel,
    writable_iff (by decide +kernel)⟩,
    ⟨st [(R.TIM_TB_CFG 1, 0x11)], keeper, 1, 0x31, locOf (R.TIM_TB_CFG 1), by decide +kernel, writable_iff
    (by decide +kernel), by decide +kernel, by decide +kernel, by decide +kernel, by decide +kernel,
    by decide +kernel⟩,
    ⟨at3 (tb0S (st [(R.TIM_TB_HOLD 1, 1), (R.TIM_TB_CFG 1, 0)]) 1 fun b =>
    { b with hold := true, during := [1, 2] }) 1000000, 1, by decide +kernel, by decide +kernel, by decide +kernel,
    by decide +kernel, by decide +kernel, by decide +kernel, by decide +kernel, by decide +kernel⟩,
    ⟨at3 (tb0S (tb0S (st [(R.TIM_TB_HOLD 1, 1), (R.TIM_TB_CFG 1, 0x01000010), (R.TIM_TB_ASYM_LIM 1, 100)]) 1 fun b
    => { b with hold := true, during := [10 * 2 ^ 32, 20 * 2 ^ 32], pre := [5], tb2Locked := true }) 2 fun b =>
    { b with locked := true }) 1000000, 1, 1, _, _, by decide +kernel, by decide +kernel, by decide +kernel,
    by decide +kernel, by decide +kernel, by decide +kernel, by decide +kernel, by decide +kernel,
    by decide +kernel, by decide +kernel, by decide +kernel, by decide +kernel, by decide +kernel, rfl, rfl,
    by decide +kernel⟩⟩

/-- States and operands that meet the hypotheses of GnssAndReference, clause by clause. -/
theorem met_GnssAndReference :
    (∃ (s : State) (up : Bool) (ago : Nat),
      s.ppsOn = true ∧ up ≠ s.regBit R.TIM_PPS_CFG 1 ∧ s.tim.pps = none ∧ s.regBit R.TIM_PPS_CFG 2 = false) ∧
    (∃ (s : State) (up : Bool) (ago : Nat) (t0 : Nat) (e : Nat),
      s.ppsOn = true ∧ up ≠ s.regBit R.TIM_PPS_CFG 1 ∧ s.tim.pps = some (t0, e) ∧ s.now - ago < t0 + 500000000) ∧
    (∃ (s : State) (bs : Bytes) (utc : Nat),
      s.ppsOn = true ∧ s.regBit R.TIM_UART_CFG 3 = true ∧ zdaUtc bs = some utc ∧ s.regBit R.TIM_PPS_CFG 2 = true) ∧
    (∃ (s : State) (bs : Bytes),
      s.ppsOn = true ∧ s.regBit R.TIM_UART_CFG 3 = true ∧ zdaUtc bs = none) ∧
    (∃ (s : State) (t0 : Nat) (e : Nat),
      s.tim.pps = some (t0, e) ∧ s.ppsOn = true ∧ s.tim.ppsLost = false ∧ t0 + 1500000000 ≤ s.now ∧ s.tim.ppsDone =
      true) ∧
    (∃ (s : State),
      s.regBit R.TIM_PPSOUT_CFG 0 = true ∧ alive s 15 = true ∧ s.tim.ppsOutSec < s.tbNs (s.regFld R.TIM_PPSOUT_CFG 2
      1) / giga ∧ (∀ t0, s.tim.ppsOutAt = some t0 → t0 + 500000000 ≤ s.now)) ∧
    (∃ (s : State),
      (∀ v ∈ s.tim.saves.head?, v / frac32 + 250000000 ≤ s.now) ∧ powered s 2 = true) ∧
    (∃ (s : State),
      (∀ v ∈ s.tim.saves.head?, v / frac32 + 250000000 ≤ s.now) ∧ powered s 2 = true ∧ Mild s 20 3) ∧
    (∃ (s : State) (ratio : Int),
      s.tim.refOk = true ∧ Mild s 20 2) :=
  ⟨⟨at3 (tb0S (st [(R.TIM_TB_CFG 2, 5), (R.TIM_PPS_CFG, 1)]) 2 fun b => { b with val := 10000 * frac32 }) 5000,
  true, 100, by decide +kernel, by decide +kernel, by decide +kernel, by decide +kernel⟩,
    ⟨at3 { st [(R.TIM_TB_CFG 2, 5), (R.TIM_PPS_CFG, 1)] with tim := { State.reset.tim with pps := some (1000, 0) } }
    500000999, true, 0, 1000, 0, by decide +kernel, by decide +kernel, by decide +kernel, by decide +kernel⟩,
    ⟨st [(R.TIM_TB_CFG 2, 5), (R.TIM_PPS_CFG, 5), (R.TIM_UART_CFG, 8)], zdaS, (zdaUtc zdaS).getD 0,
    by decide +kernel, by decide +kernel, by decide +kernel, by decide +kernel⟩,
    ⟨st [(R.TIM_TB_CFG 2, 5), (R.TIM_PPS_CFG, 5), (R.TIM_UART_CFG, 8)], [], by decide +kernel, by decide +kernel,
    by decide +kernel⟩,
    ⟨at3
    { st [(R.TIM_TB_CFG 2, 5), (R.TIM_PPS_CFG, 1)] with tim := { State.reset.tim with pps := some (1000, 0), ppsDone := true } }
    1500001000, 1000, 0, by decide +kernel, by decide +kernel, by decide +kernel, by decide +kernel,
    by decide +kernel⟩,
    ⟨at3 (st [(R.TIM_PPSOUT_CFG, 7)]) 1000000000, by decide +kernel, by decide +kernel, by decide +kernel, ofOption
    (by decide +kernel)⟩,
    ⟨at3 { State.reset with tim := { State.reset.tim with saves := [0, 5] } } 250000000, by decide +kernel,
    by decide +kernel⟩,
    ⟨at3 { State.reset with tim := { State.reset.tim with saves := [0, 5] } } 250000000, by decide +kernel,
    by decide +kernel, by decide +kernel⟩,
    ⟨st [(fltReg 20 8, 0), (fltReg 20 12, 0)], -5, by decide +kernel, by decide +kernel⟩⟩

/-- States and operands that meet the hypotheses of PlacementOrders, clause by clause. -/
theorem met_PlacementOrders :
    (∃ (s : State) (it : QItem) (rest : List QItem) (o : PleOrder),
      Intake s it rest o ∧ 1 ≤ o.op ∧ o.op ≤ 4 ∧ s.orderRefused o = false ∧ s.pleOrder o.key = none ∧
      s.ple.orders.length < 16384 ∧ s.ple.mode = 0) ∧
    (∃ (s : State) (it : QItem) (rest : List QItem) (o : PleOrder),
      Intake s it rest o ∧ 1 ≤ o.op ∧ o.op ≤ 4 ∧ (s.orderRefused o = true ∨ (s.pleOrder o.key).isSome = true)) ∧
    (∃ (s : State) (it : QItem) (rest : List QItem) (o : PleOrder) (x : PleOrder),
      Intake s it rest o ∧ o.op = 5 ∧ s.ple.orders = [x] ∧ x.key = o.key ∧ x.first.launch = none ∧ x.silent = false
      ∧ x.prod < 0x2000000) ∧
    (∃ (s : State) (s' : State) (o : PleOrder) (l : Int) (a : Admitted),
      alive s 15 = true ∧ s.ple.mode = 1 ∧ s.dueEdge = some (o.key, false) ∧ s.pleOrder o.key = some o ∧ o.second =
      none ∧ o.silent = true ∧ o.first.l = some l ∧ s.missDrop o false = false ∧ leAt ((s.pleBank o.bank).template
      o.template) 8 2 = 0 ∧ kvGet? s.ple.last o.queue = none ∧ o.flag 3 = false ∧ State.originate (s.addCtr 21 1 4
      1) 57 (leAt ((s.pleBank o.bank).template o.template) 0 2) (.order o.id) (some (compactOf s.pleBase l.toNat))
      none (s.batchFrame o [(o, false)]) = (a, s') ∧ 0 < a.n ∧ s'.pleOrder o.key = some o) ∧
    (∃ (s : State) (o : PleOrder),
      alive s 15 = true ∧ s.ple.orders = [o] ∧ s.expired o = true ∧ o.first.launch = none ∧ o.prod < 0x2000000) ∧
    (∃ (s : State) (o : PleOrder) (b : Bool) (t0 : Nat),
      alive s 15 = true ∧ s.ple.orders = [o] ∧ o.open_ = [b] ∧ (o.edge b).tryAt = some t0 ∧ t0 + 100000 ≤ s.now) ∧
    (∃ (s : State) (o : PleOrder) (b : Bool) (t0 : Nat) (t1 : Nat),
      alive s 15 = true ∧ s.ple.orders = [o] ∧ o.open_ = [b] ∧ (o.edge b).failed = false ∧ (o.edge b).tryAt = some
      t1 ∧ (o.edge b).since = some t0 ∧ t0 + 100000000 ≤ s.now ∧ Mild s 21 3) :=
  ⟨⟨pleQ (st [(R.PLE_CTRL, 1)]) (ordIt 1 0 9), ordIt 1 0 9, [], ordO 1 0 9, by decide +kernel, by decide +kernel,
  by decide +kernel, by decide +kernel, by decide +kernel, by decide +kernel, by decide +kernel⟩,
    ⟨pleQ (st []) (ordIt 2 0 9), ordIt 2 0 9, [], ordO 2 0 9, by decide +kernel, by decide +kernel,
    by decide +kernel, by decide +kernel⟩,
    ⟨withOrds (pleQ (st [(R.PLE_CTRL, 1)]) (ordIt 5 0 9)) [ordO 3 0 9], ordIt 5 0 9, [], ordO 5 0 9, ordO 3 0 9,
    by decide +kernel, by decide +kernel, by decide +kernel, by decide +kernel, by decide +kernel,
    by decide +kernel, by decide +kernel⟩,
    ⟨withOrds (linked (pleS (st [(R.PLE_CTRL, 1), on 2])))
    [{ ordO 1 0 9 with silent := true, first := { e0 with l := some 500 } }] |> fun s =>
    { s with ple := { s.ple with mode := 1 } }, (origin (withOrds (linked (pleS (st [(R.PLE_CTRL, 1), on 2])))
    [{ ordO 1 0 9 with silent := true, first := { e0 with l := some 500 } }] |> fun s =>
    { s with ple := { s.ple with mode := 1 } })
    ({ ordO 1 0 9 with silent := true, first := { e0 with l := some 500 } }) 500).2,
    { ordO 1 0 9 with silent := true, first := { e0 with l := some 500 } }, 500, (origin (withOrds (linked (pleS (st
    [(R.PLE_CTRL, 1), on 2]))) [{ ordO 1 0 9 with silent := true, first := { e0 with l := some 500 } }] |> fun s =>
    { s with ple := { s.ple with mode := 1 } })
    ({ ordO 1 0 9 with silent := true, first := { e0 with l := some 500 } }) 500).1, by decide +kernel,
    by decide +kernel, by decide +kernel, by decide +kernel, by decide +kernel, by decide +kernel,
    by decide +kernel, by decide +kernel, by decide +kernel, by decide +kernel, by decide +kernel,
    by decide +kernel, by decide +kernel, by decide +kernel⟩,
    ⟨withOrds (pleS (st [(R.PLE_CTRL, 1)])) [orderOf 255 0x55 0 (ofWords [0x00030001, 0x00170005, 9, 1, 0, 0, 0, 0,
    0, 0, 0, 0, 1, 0, 0, 0])] |> fun s => tb0S s 2 fun b => { b with val := 10 * frac32 }, orderOf 255 0x55 0
    (ofWords [0x00030001, 0x00170005, 9, 1, 0, 0, 0, 0, 0, 0, 0, 0, 1, 0, 0, 0]), by decide +kernel,
    by decide +kernel, by decide +kernel, by decide +kernel, by decide +kernel⟩,
    ⟨at3 (withOrds (pleS (st [(R.PLE_CTRL, 1)]))
    [{ ordO 2 0 9 with first := { e0 with launch := some 5 }, second := some { e0 with tryAt := some 0, since := some 0, l := some 7 } }])
    100000,
    { ordO 2 0 9 with first := { e0 with launch := some 5 }, second := some { e0 with tryAt := some 0, since := some 0, l := some 7 } },
    true, 0, by decide +kernel, by decide +kernel, by decide +kernel, by decide +kernel, by decide +kernel⟩,
    ⟨at3 (withOrds (pleS (st [(R.PLE_CTRL, 1), (fltReg 21 8, 0)]))
    [{ ordO 2 0 9 with first := { e0 with launch := some 5 }, second := some { e0 with tryAt := some 0, since := some 0, l := some 7 } }])
    100000000,
    { ordO 2 0 9 with first := { e0 with launch := some 5 }, second := some { e0 with tryAt := some 0, since := some 0, l := some 7 } },
    true, 0, 0, by decide +kernel, by decide +kernel, by decide +kernel, by decide +kernel, by decide +kernel,
    by decide +kernel, by decide +kernel, by decide +kernel⟩⟩

/-- States and operands that meet the hypotheses of PlacementModel, clause by clause. -/
theorem met_PlacementModel :
    (∃ (s : State) (m : Master) (v : Nat) (l : Loc),
      Writable s m R.PLE_CTRL (withBit v 0) l ∧ s.regBit R.PLE_CTRL 0 = false) ∧
    (∃ (s : State) (m : Master) (v : Nat) (l : Loc) (o : PleOrder),
      Writable s m R.PLE_CTRL (sansBit v 0) l ∧ s.regBit R.PLE_CTRL 0 = true ∧ s.ple.orders = [o] ∧ o.first.launch =
      none ∧ o.silent = false ∧ o.prod < 0x2000000) ∧
    (∃ (s : State) (m : Master) (v : Nat) (l : Loc) (i : MotionIn) (mo : Motion),
      Writable s m R.PLE_MW_GO (withBit v 0) l ∧ s.regBit R.PLE_CTRL 0 = true ∧ s.regBit R.PLE_CTRL 1 = false ∧
      s.ple.orders = [] ∧ s.ple.mode ≠ 1 ∧ i = s.directInputs (if s.directTime = 0 then 0 else s.pleNow -
      Machine.expand s.pleNow s.directTime) ∧ i.pos.isSome = true ∧ mo =
      { s.motion.advance (s.pleNow - s.ple.tm) with th := s.anglesAt s.motion (s.pleNow - s.ple.tm) }) ∧
    (∃ (s : State) (s' : State) (i : MotionIn) (mo : Motion),
      s.ple.trig = true ∧ (∀ t0, s.ple.lastUpd = some t0 → t0 + 500000 ≤ s.now) ∧ s.regBit R.PLE_CTRL 0 = true ∧
      alive s 15 = true ∧ s.regBit R.PLE_CTRL 1 = false ∧ s.ple.orders = [] ∧ (s.setPle
      { s.ple with trig := false }).snapshot = (i, s') ∧ mo =
      { s'.motion.advance (s'.pleNow - s'.ple.tm) with th := s'.anglesAt s'.motion (s'.pleNow - s'.ple.tm) }) ∧
    (∃ (s : State) (t0 : Nat),
      s.ple.mode = 1 ∧ s.ple.tPos = some t0 ∧ t0 + s.regFld R.PLE_MOT_CFG 31 16 * 1000000 ≤ s.pleNow ∧ s.regBit
      R.PLE_CTRL 0 = true ∧ alive s 15 = true ∧ s.openSpans = []) ∧
    (∃ (s : State) (m : Master) (v : Nat) (l : Loc),
      Writable s m R.PLE_LD_CTRL (withBit (sansBit v 8) 31) l ∧ (s.reg R.PLE_LD_LEN).toNat ≠ 0 ∧ s.sig.switch =
      none) ∧
    (∃ (s : State) (m : Master) (v : Nat) (l : Loc),
      Writable s m R.PLE_LD_CTRL (withBit v 8) l ∧ s.sig.switch = none) ∧
    (∃ (s : State) (j : LoadJob),
      alive s 15 = true ∧ s.ple.load = some j ∧ j.clear = false) :=
  ⟨⟨{ st [] with ple := { State.reset.ple with mode := 2, trig := true } }, keeper, 2, locOf R.PLE_CTRL,
  writable_iff (by decide +kernel), by decide +kernel⟩,
    ⟨withOrds (st [(R.PLE_CTRL, 1)]) [ordO 1 0 9], keeper, 1, locOf R.PLE_CTRL, ordO 1 0 9, writable_iff
    (by decide +kernel), by decide +kernel, by decide +kernel, by decide +kernel, by decide +kernel,
    by decide +kernel⟩,
    ⟨at3 (st [(R.PLE_CTRL, 1), (R.PLE_MW_MASK, 7), (R.PLE_MW 0, 100), (R.PLE_MW 3, 10)]) 10000, keeper, 0, locOf
    R.PLE_MW_GO, _, _, writable_iff (by decide +kernel), by decide +kernel, by decide +kernel, by decide +kernel,
    by decide +kernel, rfl, by decide +kernel, rfl⟩,
    ⟨at3
    { st [(R.PLE_CTRL, 1), (R.PLE_IN 0, 0x80000010), (R.PLE_IN 1, 0x80000020)] with ple := { State.reset.ple with trig := true }, sig := { State.reset.sig with cell := [(16, 0x00010001), (17, 0x00000001), (32, 0x00010001), (33, 1)] } }
    500000, ((at3
    { st [(R.PLE_CTRL, 1), (R.PLE_IN 0, 0x80000010), (R.PLE_IN 1, 0x80000020)] with ple := { State.reset.ple with trig := true }, sig := { State.reset.sig with cell := [(16, 0x00010001), (17, 0x00000001), (32, 0x00010001), (33, 1)] } }
    500000).setPle
    { (at3 { st [(R.PLE_CTRL, 1), (R.PLE_IN 0, 0x80000010), (R.PLE_IN 1, 0x80000020)] with ple := { State.reset.ple with trig := true }, sig := { State.reset.sig with cell := [(16, 0x00010001), (17, 0x00000001), (32, 0x00010001), (33, 1)] } } 500000).ple with trig := false }).snapshot.2,
    ((at3
    { st [(R.PLE_CTRL, 1), (R.PLE_IN 0, 0x80000010), (R.PLE_IN 1, 0x80000020)] with ple := { State.reset.ple with trig := true }, sig := { State.reset.sig with cell := [(16, 0x00010001), (17, 0x00000001), (32, 0x00010001), (33, 1)] } }
    500000).setPle
    { (at3 { st [(R.PLE_CTRL, 1), (R.PLE_IN 0, 0x80000010), (R.PLE_IN 1, 0x80000020)] with ple := { State.reset.ple with trig := true }, sig := { State.reset.sig with cell := [(16, 0x00010001), (17, 0x00000001), (32, 0x00010001), (33, 1)] } } 500000).ple with trig := false }).snapshot.1,
    _, by decide +kernel, ofOption (by decide +kernel), by decide +kernel, by decide +kernel, by decide +kernel,
    by decide +kernel, by decide +kernel, rfl⟩,
    ⟨{ st [(R.PLE_CTRL, 1), (R.PLE_MOT_CFG, 0x00000104)] with ple := { State.reset.ple with mode := 1, tPos := some 0 } },
    0, by decide +kernel, by decide +kernel, by decide +kernel, by decide +kernel, by decide +kernel,
    by decide +kernel⟩,
    ⟨st [(R.PLE_LD_LEN, 32), (R.PLE_LD_SRC 0, 0), (R.PLE_LD_SRC 1, 8), (R.SIG_RI_ARM, 1)], keeper, 0, locOf
    R.PLE_LD_CTRL, writable_iff (by decide +kernel), by decide +kernel, by decide +kernel⟩,
    ⟨st [], keeper, 2, locOf R.PLE_LD_CTRL, writable_iff (by decide +kernel), by decide +kernel⟩,
    ⟨{ withMem (st [(R.PLE_LD_STAT, 1)]) 0x800000000 [1, 2, 3, 4] with ple := { State.reset.ple with load := some ⟨false, 2, 0x800000000, 0, 16⟩ } },
    ⟨false, 2, 0x800000000, 0, 16⟩, by decide +kernel, by decide +kernel, by decide +kernel⟩⟩

/-- States and operands that meet the hypotheses of DoorbellsAndFunctions, clause by clause. -/
theorem met_DoorbellsAndFunctions :
    (∃ (s : State) (m : Master) (n : Nat) (v : Nat),
      n < 256 ∧ alive s 3 = true ∧ s.ringSize 0 n ≠ 0 ∧ s.mayRing m (s.ringOwner 0 n) = true ∧ v < 2 * s.ringSize 0
      n ∧ ringDist (s.ringSize 0 n) (s.ringIdx 0 n 0x18) v ≤ s.ringSize 0 n) ∧
    (∃ (s : State) (m : Master) (n : Nat) (v : Nat),
      n < 256 ∧ alive s 3 = true ∧ s.ringSize 1 n ≠ 0 ∧ s.mayRing m (s.ringOwner 1 n) = true ∧ v < 2 * s.ringSize 1
      n ∧ ringDist (s.ringSize 1 n) (s.ringIdx 1 n 0x18) v ≤ s.ringSize 1 n) ∧
    (∃ (s : State) (m : Master) (n : Nat) (v : Nat),
      n < 16 ∧ alive s 3 = true ∧ s.ringSize 3 n ≠ 0 ∧ s.mayRing m (s.ringOwner 3 n) = true ∧ v < 2 * s.ringSize 3 n
      ∧ ringDist (s.ringSize 3 n) (s.ringIdx 3 n 0x18) v ≤ s.ringSize 3 n) ∧
    (∃ (s : State) (m : Master) (c : Nat) (v : Nat),
      c < 128 ∧ alive s 3 = true ∧ s.regFld (R.CQ_CFG c) 16 0 ≠ 0 ∧ s.mayRing m (s.regFld (R.CQ_CFG c) 31 24) = true
      ∧ v < 2 * s.regFld (R.CQ_CFG c) 16 0 ∧ ringDist (s.regFld (R.CQ_CFG c) 16 0) (s.regFld (R.CQ_CONS c) 16 0) v ≤
      s.cqFill c ∧ s.regBit (R.CQ_IRQ c) 15 = false) ∧
    (∃ (s : State) (m : Master) (n : Nat) (v : Nat),
      n < 256 ∧ alive s 3 = true ∧ s.ringSize 0 n ≠ 0 ∧ s.mayRing m (s.ringOwner 0 n) = false ∧ s.sys.dbCap = false
      ∧ Mild s 9 10) ∧
    (∃ (s : State) (f : Nat),
      1 ≤ f ∧ f < 8 ∧ s.ple.orders = [] ∧ NoRings s) ∧
    (∃ (s : State) (m : Master) (f : Nat) (v : Nat) (l : Loc),
      f < 8 ∧ Writable s m (R.HMB_DB f) (withBit v 0) l ∧ bitOf (word v) 1 = false) ∧
    (∃ (s : State) (m : Master) (f : Nat) (v : Nat) (l : Loc),
      f < 8 ∧ Writable s m (R.HMB_DB f) (withBit v 1) l ∧ bitOf (word v) 0 = false) ∧
    (∃ (s : State) (m : Master) (f : Nat) (v : Nat) (l : Loc),
      f < 8 ∧ Writable s m (R.HMB_FWDB f) (withBit v 0) l ∧ bitOf (word v) 1 = false) ∧
    (∃ (s : State) (m : Master) (f : Nat) (v : Nat) (l : Loc),
      f < 8 ∧ Writable s m (R.HMB_FWDB f) (withBit v 1) l ∧ bitOf (word v) 0 = false ∧ s.fnReady f = true ∧ s.regFld
      (R.HMB_VEC f) 9 0 < msixEntries f) :=
  ⟨⟨st (ringR 0 255 3), ⟨0x23, .machine⟩, 255, 4, by decide +kernel, by decide +kernel, by decide +kernel,
  by decide +kernel, by decide +kernel, by decide +kernel⟩,
    ⟨st (ringR 1 255 3), ⟨0x23, .machine⟩, 255, 4, by decide +kernel, by decide +kernel, by decide +kernel,
    by decide +kernel, by decide +kernel, by decide +kernel⟩,
    ⟨st (ringR 3 15 0x20), keeper, 15, 1, by decide +kernel, by decide +kernel, by decide +kernel,
    by decide +kernel, by decide +kernel, by decide +kernel⟩,
    ⟨withCq (st (cqR 127 0x10 ++ [(R.CQ_PROD 127, 3)])) 127 ⟨false, 3, 0, [cqe 0]⟩, ⟨0x11, .user⟩, 127, 3,
    by decide +kernel, by decide +kernel, by decide +kernel, by decide +kernel, by decide +kernel,
    by decide +kernel, by decide +kernel⟩,
    ⟨st (ringR 0 255 3 ++ [(fltReg 9 12, 0)]), ⟨0x24, .machine⟩, 255, 4, by decide +kernel, by decide +kernel,
    by decide +kernel, by decide +kernel, by decide +kernel, by decide +kernel⟩,
    ⟨{ st [(R.QMG_OWN_AQ 7, 5)] with hbr := { State.reset.hbr with ready := [0, 7] } }, 7, by decide +kernel,
    by decide +kernel, by decide +kernel, (noRings_setReg noRings_reset (R.QMG_OWN_AQ 7) 5 (by decide +kernel) :
    NoRings (st [(R.QMG_OWN_AQ 7, 5)]))⟩,
    ⟨st [(R.HMB_STAT 7, 2)], ⟨0x20, .machine⟩, 7, 0, locOf (R.HMB_DB 7), by decide +kernel, writable_iff
    (by decide +kernel), by decide +kernel⟩,
    ⟨st [(R.HMB_STAT 0, 3)], ⟨0x20, .machine⟩, 0, 0, locOf (R.HMB_DB 0), by decide +kernel, writable_iff
    (by decide +kernel), by decide +kernel⟩,
    ⟨st [(R.HMB_STAT 7, 3)], keeper, 7, 0, locOf (R.HMB_FWDB 7), by decide +kernel, writable_iff
    (by decide +kernel), by decide +kernel⟩,
    ⟨{ st [(R.HMB_STAT 7, 1), (R.HMB_VEC 7, 63)] with hbr := { State.reset.hbr with ready := [0, 7] } }, keeper, 7,
    0, locOf (R.HMB_FWDB 7), by decide +kernel, writable_iff (by decide +kernel), by decide +kernel,
    by decide +kernel, by decide +kernel⟩⟩

/-- States and operands that meet the hypotheses of RingFetches, clause by clause. -/
theorem met_RingFetches :
    (∃ (s : State) (n : Nat) (at_ : Nat) (o : Nat) (d : Bytes) (f : TxFrame),
      n < 256 ∧ s.fetches 0 n = true ∧ s.dmaDown (s.ringOwner 0 n) = false ∧ s.regBit (R.TXRING_CFG n) 18 = false ∧
      at_ = s.ringIdx 0 n 0x14 ∧ o = s.ringOwner 0 n ∧ ringDist (s.ringSize 0 n) at_ (s.ringIdx 0 n 0x10) ≠ 0 ∧
      kvGet? s.rng.chain n = none ∧ d = s.slot 0 n at_ ∧ byteAt d 18 % 2 = 0 ∧ s.chainRefused n [d] = false ∧ leAt d
      8 2 ≠ 0 ∧ (hostOwner o = true → leAt d 0 8 + leAt d 8 2 ≤ 2 ^ 47) ∧ f = txFrameOf [d] (s.ringV2 0 n) at_
      (s.ringSize 0 n) ∧ at_ < 2 * s.ringSize 0 n) ∧
    (∃ (s : State) (n : Nat) (at_ : Nat),
      n < 256 ∧ s.fetches 0 n = true ∧ s.dmaDown (s.ringOwner 0 n) = false ∧ s.regBit (R.TXRING_CFG n) 18 = true ∧
      at_ = s.ringIdx 0 n 0x14 ∧ ringDist (s.ringSize 0 n) at_ (s.ringIdx 0 n 0x10) ≠ 0 ∧ s.queueFull 2 = false) ∧
    (∃ (s : State) (n : Nat) (at_ : Nat),
      n < 16 ∧ s.fetches 3 n = true ∧ s.dmaDown (s.ringOwner 3 n) = false ∧ at_ = s.ringIdx 3 n 0x14 ∧ ringDist
      (s.ringSize 3 n) at_ (s.ringIdx 3 n 0x10) ≠ 0 ∧ s.queueFull 3 = false) ∧
    (∃ (s : State) (q : Nat) (n : Nat) (at_ : Nat) (a : Nat) (len : Nat) (c : Copy) (rest : List Copy),
      256 ≤ q ∧ q < 448 ∧ portUsed (q / 8) = true ∧ alive s 3 = true ∧ s.regBit (R.SWC_PCTL (q / 8)) 0 = true ∧
      s.dropStale true q (s.copies q).length = s ∧ s.copies q = c :: rest ∧ c.timed = false ∧ PlainCopy c ∧ c.queue
      = q ∧ s.rxMap q = some n ∧ hostOwner (s.ringOwner 1 n) = false ∧ s.rxBlocked n = false ∧ at_ = s.ringIdx 1 n
      0x14 ∧ at_ < 2 * s.ringSize 1 n ∧ ringDist (s.ringSize 1 n) at_ (s.ringIdx 1 n 0x10) ≠ 0 ∧ a = leAt (s.slot 1
      n at_) 0 8 ∧ len = leAt (s.slot 1 n at_) 8 2 ∧ 0 < (s.copyBytes c).length ∧ (s.copyBytes c).length ≤ len ∧
      s.regFld (R.CQ_CFG (s.ringCq 1 n)) 16 0 ≠ 0) :=
  ⟨⟨(withMem (pleS (linked (st (ringR 0 3 0x20 ++ [on 2, (R.QMG_OWN_STRM 12, 0xFFFF0000), (ringAt 0 3 + 0x10,
  1)])))) 0x800001000 (desc 0x800002000 64 7)), 3, 0, 0x20, _, _, by decide +kernel, by decide +kernel,
  by decide +kernel, by decide +kernel, by decide +kernel, by decide +kernel, by decide +kernel, by decide +kernel,
  rfl, by decide +kernel, by decide +kernel, by decide +kernel, by decide +kernel, rfl, by decide +kernel⟩,
    ⟨(withMem (st (ringR 0 3 0x20 ++ [(ringAt 0 3 + 8, 0x20060004), (ringAt 0 3 + 0x10, 0), (ringAt 0 3 + 0x14,
    7)])) 0x8000010C0 (ordB 1 0 9)), 3, 7, by decide +kernel, by decide +kernel, by decide +kernel,
    by decide +kernel, by decide +kernel, by decide +kernel, by decide +kernel⟩,
    ⟨(withMem (st (ringR 3 15 0x20 ++ [(ringAt 3 15 + 0x10, 4)])) 0x800001000 ((cmdW 1 4 1 0).flatMap (leBytes 4))),
    15, 0, by decide +kernel, by decide +kernel, by decide +kernel, by decide +kernel, by decide +kernel,
    by decide +kernel⟩,
    ⟨(withMem (st (ringR 1 5 0x10 ++ cqR 2 0x10 ++ [on 48, (R.QMG_RXMAP 128, 0x80000005), (ringAt 1 5 + 0x10, 1)]))
    0x800001000 (desc 0x800003000 64 0)) |> fun s =>
    { s with swc := { s.swc with frames := [(0, frame0)], nextId := 1, queues := [(384, [copy0 48 0])] } }, 384, 5,
    0, 0x800003000, 64, copy0 48 0, [], by decide +kernel, by decide +kernel, by decide +kernel, by decide +kernel,
    by decide +kernel, by decide +kernel, by decide +kernel, by decide +kernel, by decide +kernel,
    by decide +kernel, by decide +kernel, by decide +kernel, by decide +kernel, by decide +kernel,
    by decide +kernel, by decide +kernel, by decide +kernel, by decide +kernel, by decide +kernel,
    by decide +kernel, by decide +kernel⟩⟩

/-- States and operands that meet the hypotheses of Completions, clause by clause. -/
theorem met_Completions :
    (∃ (s : State) (c : Nat) (size : Nat) (i : Nat) (len : Nat) (a : Nat) (e : CqEntry) (rest : List CqEntry),
      c < 128 ∧ alive s 3 = true ∧ size = s.regFld (R.CQ_CFG c) 16 0 ∧ i = s.regFld (R.CQ_PROD c) 16 0 ∧ (s.cq
      c).wait = e :: rest ∧ 0 < size ∧ s.cqFill c < size ∧ len = (if s.regBit (R.CQ_CFG c) 17 then 64 else 32) ∧
      e.bytes.length = 64 ∧ byteAt e.bytes 12 < 255 ∧ hostOwner (s.regFld (R.CQ_CFG c) 31 24) = false ∧ (s.cq
      c).armed = false ∧ a = (s.reg (R.CQ_BASE_LO c)).toNat + s.regFld (R.CQ_BASE_HI c) 15 0 * 2 ^ 32 + i % size *
      len ∧ e.idx = none) ∧
    (∃ (s : State) (c : Nat) (e : CqEntry) (rest : List CqEntry),
      c < 128 ∧ alive s 3 = true ∧ (s.cq c).wait = e :: rest ∧ e.stalled = false ∧ 100000000 ≤ s.now - e.since ∧
      Mild s 9 9) ∧
    (∃ (s : State) (c : Nat) (q : CqSt),
      alive s 3 = true ∧ s.rng.cq = [(c, q)] ∧ q.armed = true ∧ s.regBit (R.CQ_IRQ c) 15 = true ∧ 0 < q.pend ∧ 0 <
      s.regFld (R.CQ_MOD c) 15 0 ∧ s.regFld (R.CQ_MOD c) 15 0 * 1000 ≤ s.now - q.first ∧ hostOwner (s.regFld
      (R.CQ_CFG c) 31 24) = true) ∧
    (∃ (s : State) (m : Master) (k : Nat) (n : Nat) (v : Nat) (l : Loc),
      (k = 0 ∨ k = 1 ∨ k = 3) ∧ ringNumOk k n = true ∧ fld (word v) 16 0 ≠ 0 ∧ Writable s m (ringAt k n + 8) v l ∧
      s.ringSize k n = 0) ∧
    (∃ (s : State) (m : Master) (n : Nat) (v : Nat) (l : Loc),
      n < 128 ∧ fld (word v) 16 0 ≠ 0 ∧ Writable s m (R.CQ_CFG n) v l ∧ s.regFld (R.CQ_CFG n) 16 0 = 0) ∧
    (∃ (s : State) (m : Master) (k : Nat) (n : Nat) (v : Nat) (l : Loc),
      (k = 0 ∨ k = 1 ∨ k = 3) ∧ ringNumOk k n = true ∧ Writable s m (ringAt k n + 8) (putFld (word v) 16 0 0).toNat
      l ∧ s.ringSize k n ≠ 0 ∧ (k = 0 → kvGet? s.rng.chain n = none)) ∧
    (∃ (s : State) (m : Master) (n : Nat) (v : Nat) (l : Loc),
      n < 128 ∧ Writable s m (R.CQ_CFG n) (putFld (word v) 16 0 0).toNat l ∧ s.regFld (R.CQ_CFG n) 16 0 ≠ 0 ∧ (s.cq
      n).wait = []) :=
  ⟨⟨withCq (st (cqR 2 0x20 ++ [(R.CQ_PROD 2, 7), (R.CQ_CONS 2, 4)])) 2 ⟨false, 3, 0, [cqe 0]⟩, 2, 4, 7, 32, _, cqe
  0, [], by decide +kernel, by decide +kernel, by decide +kernel, by decide +kernel, by decide +kernel,
  by decide +kernel, by decide +kernel, by decide +kernel, by decide +kernel, by decide +kernel, by decide +kernel,
  by decide +kernel, rfl, by decide +kernel⟩,
    ⟨at3 (withCq (st (cqR 2 0x20 ++ [(fltReg 9 12, 0)])) 2 ⟨false, 3, 0, [cqe 0]⟩) 100000000, 2, cqe 0, [],
    by decide +kernel, by decide +kernel, by decide +kernel, by decide +kernel, by decide +kernel,
    by decide +kernel⟩,
    ⟨at3 (hostS (withCq (st (cqR 2 0 ++ [(R.CQ_IRQ 2, 0x8007), (R.CQ_MOD 2, 1)])) 2 ⟨true, 3, 0, [cqe 0]⟩)) 1000, 2,
    ⟨true, 3, 0, [cqe 0]⟩, by decide +kernel, by decide +kernel, by decide +kernel, by decide +kernel,
    by decide +kernel, by decide +kernel, by decide +kernel, by decide +kernel⟩,
    ⟨st ([(R.QMG_OWN_AQ 12, 0x80000000), (R.QMG_OWN_FEAT_LO 12, 0x7F)] ++ ringR 0 255 0x20 ++ [(ringAt 0 255 + 8,
    0), (ringAt 0 255 + 0x10, 5)]), keeper, 0, 255, 0x20000040, locOf (ringAt 0 255 + 8), by decide +kernel,
    by decide +kernel, by decide +kernel, writable_iff (by decide +kernel), by decide +kernel⟩,
    ⟨st ([(R.QMG_OWN_AQ 12, 0x80000000), (R.QMG_OWN_FEAT_LO 12, 0x7F)] ++ cqR 127 0x20 ++ [(R.CQ_CFG 127, 0),
    (R.CQ_PROD 127, 5)]), keeper, 127, 0x20000040, locOf (R.CQ_CFG 127), by decide +kernel, by decide +kernel,
    writable_iff (by decide +kernel), by decide +kernel⟩,
    ⟨st (ringR 1 255 0x20), keeper, 1, 255, 0x20000004, locOf (ringAt 1 255 + 8), by decide +kernel,
    by decide +kernel, writable_iff (by decide +kernel), by decide +kernel, by decide +kernel⟩,
    ⟨withCq (st (cqR 127 0x20)) 127 ⟨true, 3, 0, []⟩, keeper, 127, 0x20000004, locOf (R.CQ_CFG 127),
    by decide +kernel, writable_iff (by decide +kernel), by decide +kernel, by decide +kernel⟩⟩

/-- States and operands that meet the hypotheses of BridgeInbound, clause by clause. -/
theorem met_BridgeInbound :
    (∃ (s : State) (x : Nat) (n : Nat) (a : Nat) (bs : Bytes),
      alive s 9 = true ∧ s.bar4Addr x n = some a) ∧
    (∃ (s : State) (x : Nat) (n : Nat) (a : Nat) (bs : Bytes),
      alive s 9 = true ∧ s.bar4Addr x n = some a) ∧
    (∃ (s : State) (x : Nat) (n : Nat) (bs : Bytes),
      alive s 9 = true ∧ s.bar4Addr x n = none) ∧
    (∃ (s : State) (f : Nat) (j : Nat) (v : Nat) (p : Nat),
      alive s 9 = true ∧ alive s 3 = true ∧ 1 ≤ f ∧ f ≤ 7 ∧ j < 32 ∧ s.regBit (R.HBR_VF_DBMAP f j) 31 = true ∧
      s.regFld (R.HBR_VF_DBMAP f j) 9 0 = p ∧ p < 256 ∧ s.ringSize 0 p ≠ 0 ∧ s.ringOwner 0 p = f ∧ v < 2 *
      s.ringSize 0 p ∧ ringDist (s.ringSize 0 p) (s.ringIdx 0 p 0x18) v ≤ s.ringSize 0 p) ∧
    (∃ (s : State) (f : Nat) (j : Nat) (v : Nat),
      alive s 9 = true ∧ 1 ≤ f ∧ f ≤ 7 ∧ j < 32 ∧ s.regBit (R.HBR_VF_DBMAP f j) 31 = false) ∧
    (∃ (s : State) (m : Master) (v : Nat) (l : Loc),
      Writable s m R.HBR_ERR_ACK (withBit v 0) l) ∧
    (∃ (s : State) (speed : Nat) (width : Nat) (fns : List Nat),
      alive s 9 = true) ∧
    (∃ (s : State),
      s.linkUp = true ∧ s.hbr.ready = [] ∧ s.hbr.reads = [] ∧ s.hbr.lines = [] ∧ s.ple.orders = [] ∧ NoRings s) :=
  ⟨⟨st [(R.HBR_BAR4_LIM, 0x80010000)], 8, 4, 0x800000008, [1, 2, 3, 4], by decide +kernel, by decide +kernel⟩,
    ⟨withMem (st [(R.HBR_BAR4_LIM, 0x80010000)]) 0x800000008 [1, 2, 3, 4], 8, 4, 0x800000008, [], by decide +kernel,
    by decide +kernel⟩,
    ⟨st [(R.HBR_BAR4_LIM, 0x00010000)], 8, 4, [1, 2, 3, 4], by decide +kernel, by decide +kernel⟩,
    ⟨st (ringR 0 255 7 ++ [(R.HBR_VF_DBMAP 7 31, 0x800000FF)]), 7, 31, 4, 255, by decide +kernel, by decide +kernel,
    by decide +kernel, by decide +kernel, by decide +kernel, by decide +kernel, by decide +kernel,
    by decide +kernel, by decide +kernel, by decide +kernel, by decide +kernel, by decide +kernel⟩,
    ⟨st [], 1, 0, 4, by decide +kernel, by decide +kernel, by decide +kernel, by decide +kernel, by decide +kernel⟩,
    ⟨st [(R.HBR_ERR_STATUS, 1)], keeper, 0, locOf R.HBR_ERR_ACK, writable_iff (by decide +kernel)⟩,
    ⟨st [], 5, 16, [0, 3, 9], by decide +kernel⟩,
    ⟨st [(R.HBR_LINK, 0x10055)], by decide +kernel, by decide +kernel, by decide +kernel, by decide +kernel,
    by decide +kernel, noRings_setReg noRings_reset R.HBR_LINK 0x10055 (by decide +kernel)⟩⟩

/-- States and operands that meet the hypotheses of BridgeOutbound, clause by clause. -/
theorem met_BridgeOutbound :
    (∃ (s : State) (m : Master) (a : Nat) (n : Nat),
      internalMaster s m = true ∧ 0 < n ∧ s.outboundOn = true ∧ s.hbr.lines = [] ∧ s.hbr.reads = []) ∧
    (∃ (s : State) (m : Master) (a : Nat) (bs : Bytes),
      internalMaster s m = true ∧ s.outboundOn = true ∧ s.hbr.lines = []) ∧
    (∃ (s : State) (m : Master) (a : Nat) (n : Nat),
      internalMaster s m = true ∧ 0 < n ∧ s.outboundOn = false ∧ s.regBit R.HBR_ERR_STATUS 0 = false) ∧
    (∃ (s : State) (r : HbrRead) (bs : Bytes),
      alive s 9 = true ∧ s.hbr.reads = [r] ∧ r.at_.isSome = true ∧ r.lines = [] ∧ r.have_ = [] ∧ bs.length = r.len ∧
      s.hbr.lines.length ≤ 32) ∧
    (∃ (s : State) (r : HbrRead) (t0 : Nat),
      alive s 9 = true ∧ s.hbr.reads = [r] ∧ r.at_ = some t0 ∧ t0 + 50000000 ≤ s.now) ∧
    (∃ (s : State) (x : HbrLine),
      alive s 9 = true ∧ s.hbr.lines = [x] ∧ x.at_ + s.regFld R.HBR_PF_CFG 7 0 * 1000 ≤ s.now ∧ s.queueFull 4 =
      false) :=
  ⟨⟨hostS (st [(R.HBR_CTRL, 1), (R.HBR_LINK, 0x10000)]), keeper, 0x1000, 4, by decide +kernel, by decide +kernel,
  by decide +kernel, by decide +kernel, by decide +kernel⟩,
    ⟨hostS (st [(R.HBR_CTRL, 1), (R.HBR_LINK, 0x10000)]), keeper, 0x1000, [1, 2, 0, 4], by decide +kernel,
    by decide +kernel, by decide +kernel⟩,
    ⟨st [], keeper, 0x1000, 4, by decide +kernel, by decide +kernel, by decide +kernel, by decide +kernel⟩,
    ⟨{ hostS (st [(R.HBR_CTRL, 1), (R.HBR_LINK, 0x10000)]) with hbr := { State.reset.hbr with ready := [0], reads := [⟨3, keeper, 0x1000, 2, 0, [], [], some 0⟩] } },
    ⟨3, keeper, 0x1000, 2, 0, [], [], some 0⟩, [4, 5], by decide +kernel, by decide +kernel, by decide +kernel,
    by decide +kernel, by decide +kernel, by decide +kernel, by decide +kernel⟩,
    ⟨at3
    { hostS (st [(R.HBR_CTRL, 1), (R.HBR_LINK, 0x10000)]) with hbr := { State.reset.hbr with ready := [0], reads := [⟨3, keeper, 0x1000, 2, 0, [], [], some 0⟩] } }
    50000000, ⟨3, keeper, 0x1000, 2, 0, [], [], some 0⟩, 0, by decide +kernel, by decide +kernel, by decide +kernel,
    by decide +kernel⟩,
    ⟨at3
    { st [(R.HBR_PF_CFG, 0x03FF0005)] with hbr := { State.reset.hbr with lines := [⟨0x1000, 1, 0, 0, [1, 2]⟩] } }
    5000, ⟨0x1000, 1, 0, 0, [1, 2]⟩, by decide +kernel, by decide +kernel, by decide +kernel, by decide +kernel⟩⟩

/-- States and operands that meet the hypotheses of AqeneNegotiation, clause by clause. -/
theorem met_AqeneNegotiation :
    (∃ (s : State) (party : Nat) (i : Nat) (msg : Bytes),
      s.aqRuns = true ∧ aqWhole msg = true ∧ aqType msg = 1 ∧ s.aqRepeat party msg = none ∧ 8 ≤ party ∧ i = aqIface
      msg ∧ 2 ≤ i ∧ i ≤ 4 ∧ s.aqPermitted party i = true ∧ 1 ≤ aqMajor msg) ∧
    (∃ (s : State) (f : Nat) (msg : Bytes),
      s.aqRuns = true ∧ aqWhole msg = true ∧ aqType msg = 1 ∧ s.aqRepeat f msg = none ∧ f < 8 ∧ aqIface msg = 1 ∧
      s.upd.mode = .firmware ∧ 1 ≤ aqMajor msg ∧ NoRings s ∧ s.ple.orders = [] ∧ s.regBit (R.HMB_STAT f) 1 = false)
      ∧
    (∃ (s : State) (party : Nat) (msg : Bytes),
      s.aqRuns = true ∧ aqWhole msg = true ∧ aqType msg = 1 ∧ s.aqRepeat party msg = none ∧ 8 ≤ party ∧ (aqIface msg
      = 0 ∨ 4 < aqIface msg)) ∧
    (∃ (s : State) (party : Nat) (msg : Bytes) (ans : Bytes),
      s.aqRuns = true ∧ aqWhole msg = true ∧ aqType msg = 1 ∧ s.aqRepeat party msg = some ans ∧ 8 ≤ party) ∧
    (∃ (s : State) (party : Nat) (msg : Bytes),
      s.aqRuns = true ∧ aqWhole msg = true ∧ aqType msg = 4 ∧ s.aqRepeat party msg = none ∧ 8 ≤ party) ∧
    (∃ (s : State) (f : Nat) (msg : Bytes),
      s.aqRuns = true ∧ aqWhole msg = true ∧ aqType msg = 4 ∧ s.aqRepeat f msg = none ∧ f < 8 ∧ aqIface msg = 1 ∧
      kvGet? s.aqn.answered (aqKey f 1) = some (aqMajor msg, aqFeatures msg) ∧ RoomFor s 3) ∧
    (∃ (s : State) (party : Nat) (msg : Bytes) (o : Offer),
      s.aqRuns = true ∧ aqWhole msg = true ∧ 8 ≤ party ∧ kvGet? s.aqn.offers party = some o ∧ aqTxn msg = o.txn ∧
      aqIface msg = o.iface) ∧
    (∃ (s : State) (party : Nat),
      s.aqRuns = true ∧ s.aqPermitted party 2 = true) ∧
    (∃ (s : State) (party : Nat) (o : Offer),
      s.aqRuns = true ∧ 8 ≤ party ∧ kvGet? s.aqn.offers party = some o ∧ o.at_ + (if 0x200 ≤ party then 250000000
      else 100000000) ≤ s.now) :=
  ⟨⟨State.reset, 8, 2, aqMessage 1 9 2 1 0xFF, by decide +kernel, by decide +kernel, by decide +kernel,
  by decide +kernel, by decide +kernel, by decide +kernel, by decide +kernel, by decide +kernel, by decide +kernel,
  by decide +kernel⟩,
    ⟨st [(R.HMB_STAT 7, 1)], 7, aqMessage 1 9 1 2 0xFF, by decide +kernel, by decide +kernel, by decide +kernel,
    by decide +kernel, by decide +kernel, by decide +kernel, by decide +kernel, by decide +kernel, noRings_setReg
    noRings_reset (R.HMB_STAT 7) 1 (by decide +kernel), by decide +kernel, by decide +kernel⟩,
    ⟨State.reset, 8, aqMessage 1 9 0 2 0xFF, by decide +kernel, by decide +kernel, by decide +kernel,
    by decide +kernel, by decide +kernel, by decide +kernel⟩,
    ⟨{ State.reset with aqn := { State.reset.aqn with last := [(8, (aqMessage 1 9 5 2 0xFF, [1, 2]))] } }, 8,
    aqMessage 1 9 5 2 0xFF, [1, 2], by decide +kernel, by decide +kernel, by decide +kernel, by decide +kernel,
    by decide +kernel⟩,
    ⟨{ State.reset with aqn := { State.reset.aqn with answered := [(aqKey 8 2, (1, 3))] } }, 8, aqMessage 4 9 2 1 3,
    by decide +kernel, by decide +kernel, by decide +kernel, by decide +kernel, by decide +kernel⟩,
    ⟨{ st [(R.HMB_STAT 7, 1)] with aqn := { State.reset.aqn with answered := [(aqKey 7 1, (2, 0x100000003))] } }, 7,
    aqMessage 4 9 1 2 0x100000003, by decide +kernel, by decide +kernel, by decide +kernel, by decide +kernel,
    by decide +kernel, by decide +kernel, by decide +kernel, by decide +kernel⟩,
    ⟨{ State.reset with aqn := { State.reset.aqn with offers := [(8, ⟨5, 2, 1, 0⟩)] } }, 8, aqMessage 2 5 2 1 3, ⟨5,
    2, 1, 0⟩, by decide +kernel, by decide +kernel, by decide +kernel, by decide +kernel, by decide +kernel,
    by decide +kernel⟩,
    ⟨{ State.reset with aqn := { State.reset.aqn with txn := 255, agree := [(aqKey 8 2, (1, 3))] } }, 8,
    by decide +kernel, by decide +kernel⟩,
    ⟨at3 { State.reset with aqn := { State.reset.aqn with offers := [(8, ⟨5, 2, 3, 0⟩)] } } 100000000, 8, ⟨5, 2, 3,
    0⟩, by decide +kernel, by decide +kernel, by decide +kernel, by decide +kernel⟩⟩

/-- States and operands that meet the hypotheses of Recovery, clause by clause. -/
theorem met_Recovery :
    (∃ (s : State) (party : Nat) (msg : Bytes),
      s.recTakes party msg 16 = true ∧ 8 ≤ party) ∧
    (∃ (s : State) (party : Nat) (k : Nat) (msg : Bytes),
      s.recTakes party msg 18 = true ∧ 8 ≤ party ∧ k < 98304 ∧ leAt msg 8 4 = k * 1024 ∧ 0 < leAt msg 12 2 ∧ leAt
      msg 12 2 ≤ 1024 ∧ (kvGet s.upd.held (k / 64) 0).testBit (k % 64) = false ∧ kvGet s.upd.held (k / 64) 0 + 2 ^
      (k % 64) ≠ allChunks) ∧
    (∃ (s : State) (party : Nat) (k : Nat) (msg : Bytes),
      s.recTakes party msg 18 = true ∧ 8 ≤ party ∧ k < 98304 ∧ leAt msg 8 4 = k * 1024 ∧ leAt msg 12 2 ≤ 1024 ∧
      (leAt msg 12 2 = 0 ∨ (kvGet s.upd.held (k / 64) 0).testBit (k % 64) = true)) ∧
    (∃ (s : State) (party : Nat) (total : Nat) (msg : Bytes) (bs : Bytes),
      s.recTakes party msg 20 = true ∧ 8 ≤ party ∧ RoomFor s 1 ∧ total = leAt msg 8 4 ∧ bs = ((if kvGet s.upd.held 0
      0 = allChunks then s.chunkBytes 0 else []) ++ s.read (targetBase s.recSlot + blockBytes) (min total (1536 *
      blockBytes) - blockBytes)).take total) ∧
    (∃ (s : State) (msg : Bytes) (bs : Bytes),
      s.recTakes 0 msg 22 = true ∧ alive s 8 = true ∧ bs = s.read 0x800000000 (min (leAt msg 8 4) (1536 *
      blockBytes))) ∧
    (∃ (s : State) (party : Nat) (msg : Bytes),
      s.recTakes party msg 24 = true ∧ 8 ≤ party ∧ s.pwr.chip = none) :=
  ⟨⟨inRec State.reset 0x11C, 0x11C, recMsg 16 0 0 [], by decide +kernel, by decide +kernel⟩,
    ⟨inRec State.reset 0x11C, 0x11C, 98303, recMsg 18 (98303 * 1024) 3 [1, 2, 3], by decide +kernel,
    by decide +kernel, by decide +kernel, by decide +kernel, by decide +kernel, by decide +kernel,
    by decide +kernel, by decide +kernel⟩,
    ⟨{ inRec State.reset 0x11C with upd := { (inRec State.reset 0x11C).upd with held := [(0, 1)] } }, 0x11C, 0,
    recMsg 18 0 3 [1, 2, 3], by decide +kernel, by decide +kernel, by decide +kernel, by decide +kernel,
    by decide +kernel, by decide +kernel⟩,
    ⟨inRec State.reset 0x11C, 0x11C, 100, recMsg 20 100 0 [], _, by decide +kernel, by decide +kernel,
    by decide +kernel, by decide +kernel, rfl⟩,
    ⟨inRec State.reset 0, recMsg 22 100 0 [], _, by decide +kernel, by decide +kernel, rfl⟩,
    ⟨inRec State.reset 0x11C, 0x11C, recMsg 24 0 0 [], by decide +kernel, by decide +kernel, by decide +kernel⟩⟩

/-- States and operands that meet the hypotheses of UpdateCommands, clause by clause. -/
theorem met_UpdateCommands :
    (∃ (s : State) (m : Master) (op : Nat) (v : Nat) (c : Word) (l : Loc) (x : Instr),
      IsUpd op m v x ∧ c = putFld (word (withBit v 31)) 7 0 op ∧ Writable s m R.UPD_CMD c.toNat l ∧ s.updRefusal m
      (c &&& inMask l) = none) ∧
    (∃ (s : State) (m : Master) (op : Nat) (v : Nat) (r : Nat) (c : Word) (l : Loc) (x : Instr),
      IsUpd op m v x ∧ c = putFld (word (withBit v 31)) 7 0 op ∧ Writable s m R.UPD_CMD c.toNat l ∧ s.updRefusal m
      (c &&& inMask l) = some r) ∧
    (∃ (s : State) (j : UpdJob) (tg : Nat) (b : Nat),
      s.upd.job = some j ∧ alive s 2 = true ∧ updOp j.cmd = 1 ∧ tg = fld j.cmd 11 8 ∧ b = fld j.cmd 26 16 ∧ (2 ≤ tg
      ∨ b ≠ 0)) ∧
    (∃ (s : State) (j : UpdJob) (tg : Nat),
      s.upd.job = some j ∧ alive s 2 = true ∧ updOp j.cmd = 2 ∧ tg = fld j.cmd 11 8 ∧ 2 ≤ tg ∧ tg < 6 ∧ LogRoom s) ∧
    (∃ (s : State) (j : UpdJob) (tg : Nat) (r : Bytes),
      s.upd.job = some j ∧ alive s 2 = true ∧ updOp j.cmd = 3 ∧ tg = fld j.cmd 11 8 ∧ tg < 2 ∧ LogRoom s ∧ r =
      selPut (selPut (selPut (selPut (selPut s.sel 4 tg) 5 s.runSlot) (6 + tg) 2) 8 3) (10 + tg) (1 - s.runBank)) ∧
    (∃ (s : State) (j : UpdJob),
      s.upd.job = some j ∧ alive s 2 = true ∧ updOp j.cmd = 9) ∧
    (∃ (s : State) (j : UpdJob) (n : Nat),
      s.upd.job = some j ∧ alive s 2 = true ∧ 1 ≤ updOp j.cmd ∧ updOp j.cmd ≤ 2 ∧ 3 ≤ n ∧ Mild s 26 1) :=
  ⟨⟨st [(R.UPD_SRC 0, 0), (R.UPD_SRC 1, 8)], keeper, 1, 0x00FF0300, _, locOf R.UPD_CMD, _, rfl, rfl, writable_iff
  (by decide +kernel), by decide +kernel⟩,
    ⟨st [], keeper, 3, 0, 4, _, locOf R.UPD_CMD, _, rfl, rfl, writable_iff (by decide +kernel), by decide +kernel⟩,
    ⟨updS (withMem (st [(R.UPD_CMD_STAT, 1)]) 0x800000000 [1, 2, 3]) 0x80FF0201 0x800000000, ⟨keeper, 0x80FF0201,
    0x800000000⟩, 2, 255, by decide +kernel, by decide +kernel, by decide +kernel, by decide +kernel,
    by decide +kernel, by decide +kernel⟩,
    ⟨updS (withMem (st [(R.UPD_CMD_STAT, 1)]) 0x5D800005 [1, 2, 3]) 0x80000302 0, ⟨keeper, 0x80000302, 0⟩, 3,
    by decide +kernel, by decide +kernel, by decide +kernel, by decide +kernel, by decide +kernel,
    by decide +kernel, by decide +kernel⟩,
    ⟨updS (st [(R.UPD_CMD_STAT, 1)]) 0x80000103 0, ⟨keeper, 0x80000103, 0⟩, 1, _, by decide +kernel,
    by decide +kernel, by decide +kernel, by decide +kernel, by decide +kernel, by decide +kernel, rfl⟩,
    ⟨updS (st [(R.UPD_CMD_STAT, 1)]) 0x80000009 0, ⟨keeper, 0x80000009, 0⟩, by decide +kernel, by decide +kernel,
    by decide +kernel⟩,
    ⟨updS (st [(R.UPD_CMD_STAT, 1), (fltReg 26 8, 0)]) 0x80000302 0, ⟨keeper, 0x80000302, 0⟩, 3, by decide +kernel,
    by decide +kernel, by decide +kernel, by decide +kernel, by decide +kernel, by decide +kernel⟩⟩

/-- States and operands that meet the hypotheses of BootLoaderConfiguration, clause by clause. -/
theorem met_BootLoaderConfiguration :
    (∃ (s : State) (pins : Bool),
      s.upd.booted = true) ∧
    (∃ (s : State),
      s.upd.booted = false ∧ s.runs = true ∧ alive s 1 = true ∧ alive s 2 = true ∧ s.key.staged = none ∧ s.regFld
      R.PWR_RST_CAUSE 7 4 = 6 ∧ s.selWinner = none ∧ RoomFor s 1) ∧
    (∃ (s : State) (p : Nat) (r : Bytes) (pins : Bool),
      s.upd.booted = false ∧ s.runs = true ∧ alive s 1 = true ∧ alive s 2 = true ∧ s.key.staged = none ∧ s.selWinner
      = some (p, r) ∧ selFlag r 0 = false ∧ selFlag r 2 = true ∧ selState r 0 = 0 ∧ selState r 1 = 0) ∧
    (∃ (s : State) (p : Nat) (a : Nat) (r : Bytes),
      s.upd.booted = false ∧ s.runs = true ∧ alive s 1 = true ∧ alive s 2 = true ∧ s.key.staged = none ∧ s.selWinner
      = some (p, r) ∧ selFlag r 0 = false ∧ selFlag r 1 = false ∧ selFlag r 2 = false ∧ a ≤ 1 ∧ byteAt r 4 = a ∧
      selState r a = 3 ∧ selState r (1 - a) = 0 ∧ s.fusedSvn ≤ fwSvn (s.headOf a) ∧ byteAt r 13 = 0xFF ∧ RoomFor s
      3) ∧
    (∃ (s : State) (slot : Nat) (next : Nat) (bs : Bytes),
      s.upd.mode = .loader ∧ selFlag s.sel 2 = true ∧ (s.regFld R.PWR_RST_CAUSE 7 4 = 3 ∨ s.regFld R.PWR_RST_CAUSE 7
      4 = 4) ∧ s.pwr.chip = none ∧ alive s 8 = true ∧ slot = byteAt s.sel 15 % 2 ∧ next = leAt s.sel 28 4 ∧ RoomFor
      s 1 ∧ bs = s.readImage (leAt s.sel 32 8) (1536 * blockBytes)) ∧
    (∃ (s : State) (m : Master) (mA : Nat) (mB : Nat),
      alive s 1 = true ∧ alive s 2 = true ∧ secureMaster s m = true ∧ (m.origin ≤ 2 ∨ s.holding = false) ∧ LogRoom
      s) ∧
    (∃ (s : State) (m : Master) (src : Nat) (len : Nat) (mA : Nat) (mB : Nat) (bs : Bytes),
      alive s 1 = true ∧ alive s 2 = true ∧ secureMaster s m = true ∧ (m.origin ≤ 2 ∨ s.holding = false) ∧ len ≤
      0x4000000 ∧ RoomFor s 2 ∧ bs = s.read src len) :=
  ⟨⟨{ State.reset with upd := { State.reset.upd with booted := true } }, false, by decide +kernel⟩,
    ⟨unbooted (st [(R.PWR_RST_CAUSE, 0x60)]), by decide +kernel, by decide +kernel, by decide +kernel,
    by decide +kernel, by decide +kernel, by decide +kernel, by decide +kernel, by decide +kernel⟩,
    ⟨unbooted (withSel (st []) [(14, 4)]), 0, selRec [(14, 4)], true, by decide +kernel, by decide +kernel,
    by decide +kernel, by decide +kernel, by decide +kernel, by decide +kernel, by decide +kernel,
    by decide +kernel, by decide +kernel, by decide +kernel⟩,
    ⟨unbooted (withSel (st []) [(4, 1), (7, 3)]), 0, 1, selRec [(4, 1), (7, 3)], by decide +kernel,
    by decide +kernel, by decide +kernel, by decide +kernel, by decide +kernel, by decide +kernel,
    by decide +kernel, by decide +kernel, by decide +kernel, by decide +kernel, by decide +kernel,
    by decide +kernel, by decide +kernel, by decide +kernel, by decide +kernel, by decide +kernel⟩,
    ⟨{ withSel (st [(R.PWR_RST_CAUSE, 0x30)]) [(14, 4), (15, 1), (28, 1), (37, 0)] with upd := { State.reset.upd with mode := .loader } },
    1, 1, _, by decide +kernel, by decide +kernel, by decide +kernel, by decide +kernel, by decide +kernel,
    by decide +kernel, by decide +kernel, by decide +kernel, rfl⟩,
    ⟨st [], keeper, 0, 0, by decide +kernel, by decide +kernel, by decide +kernel, by decide +kernel,
    by decide +kernel⟩,
    ⟨st [], keeper, 0x800000000, 100, 0, 0, _, by decide +kernel, by decide +kernel, by decide +kernel,
    by decide +kernel, by decide +kernel, by decide +kernel, rfl⟩⟩

/-- States and operands that meet the hypotheses of KeySlots, clause by clause. -/
theorem met_KeySlots :
    (∃ (s : State) (m : Master) (n : Nat) (l : Loc) (l' : Loc),
      n < 512 ∧ Calm s ∧ Writable s m R.CIP_SLOT_SEL n l ∧ Writable s m R.CIP_SLOT_CMD 0x80000001 l' ∧ RoomFor s 1) ∧
    (∃ (s : State) (m : Master) (n : Nat) (l : Loc) (l' : Loc),
      n < 512 ∧ Calm s ∧ Writable s m R.CIP_SLOT_SEL n l ∧ Writable s m R.CIP_SLOT_CMD 0x80000002 l' ∧ RoomFor s 1 ∧
      s.slotState n = 1) ∧
    (∃ (s : State) (n : Nat),
      s.slotState n = 2 ∧ s.slotBusy n = false ∧ alive s 5 = true) :=
  ⟨⟨st [(R.CIP_SLOT_ATTR, 0x310), (R.CIP_SLOT_KEY 0, 5)], keeper, 511, locOf R.CIP_SLOT_SEL, locOf R.CIP_SLOT_CMD,
  by decide +kernel, by decide +kernel, writable_iff (by decide +kernel), writable_iff (by decide +kernel),
  by decide +kernel⟩,
    ⟨slotS (slotS (slotS (st []) 3 0x40000080 key16) 511 0x40203010 key16) 5 0x40000010 key16, keeper, 3, locOf
    R.CIP_SLOT_SEL, locOf R.CIP_SLOT_CMD, by decide +kernel, by decide +kernel, writable_iff (by decide +kernel),
    writable_iff (by decide +kernel), by decide +kernel, by decide +kernel⟩,
    ⟨{ slotS (st []) 511 0x80000010 key16 with cip := { (slotS (st []) 511 0x80000010 key16).cip with sets := [[511]] } },
    511, by decide +kernel, by decide +kernel, by decide +kernel⟩⟩

/-- States and operands that meet the hypotheses of CipherJobs, clause by clause. -/
theorem met_CipherJobs :
    (∃ (s : State) (m : Master) (op : Nat) (slot : Nat) (dst : Nat) (len : Nat) (src : Nat) (out : Nat) (aux : Nat)
    (x : Instr) (j : CipJob) (l : Loc),
      IsJob op m slot dst len src out aux x ∧ slot < 512 ∧ dst < 512 ∧ len < 2 ^ 32 ∧ src < 2 ^ 48 ∧ out < 2 ^ 48 ∧
      aux < 2 ^ 48 ∧ Calm s ∧ (∀ i < 8, ∃ l', Writable s m (R.CIP_JOB i) ((jobWords op slot dst len src out
      aux).getD i 0) l') ∧ Writable s m R.CIP_JOB_GO 1 l ∧ j = ⟨m, (jobWords op slot dst len src out aux).flatMap
      (leBytes 4), s.stagedAttr, s.stagedAux⟩ ∧ s.jobRefusal j = none) ∧
    (∃ (s : State) (j : CipJob),
      s.cip.job = some j ∧ RoomFor s 1) ∧
    (∃ (s : State) (j : CipJob),
      s.cip.job = some j ∧ RoomFor s 1) ∧
    (∃ (s : State) (j : CipJob) (e : Bool) (c : Nat),
      s.cip.job = some j ∧ RoomFor s 1 ∧ Mild s 16 2) :=
  ⟨⟨slotS (st [(R.CIP_CTRL, 4)]) 511 0x40000020 key16, keeper, 3, 511, 0, 100, 0x800000000, 0x800001000,
  0xFFFFFFFFFFFF, .jobCmac keeper 511 0 100 0x800000000 0x800001000 0xFFFFFFFFFFFF, _, locOf R.CIP_JOB_GO, rfl,
  by decide +kernel, by decide +kernel, by decide +kernel, by decide +kernel, by decide +kernel, by decide +kernel,
  by decide +kernel, fun i h => ⟨locOf (R.CIP_JOB i), writable_iff ((by decide +kernel : ∀ i < 8, writable (slotS
  (st [(R.CIP_CTRL, 4)]) 511 0x40000020 key16) keeper (R.CIP_JOB i) ((jobWords 3 511 0 100 0x800000000 0x800001000
  0xFFFFFFFFFFFF).getD i 0) (locOf (R.CIP_JOB i)) = true) i h)⟩, writable_iff (by decide +kernel), rfl,
  by decide +kernel⟩,
    ⟨jobS (withMem (slotS (st [(R.CIP_JOB_STAT, 1)]) 511 0x40000020 key16) 0x800000000 [1, 2, 3]) 3 511 0 3
    0x800000000 0x800001000 0, jobJ State.reset 3 511 0 3 0x800000000 0x800001000 0, by decide +kernel,
    by decide +kernel⟩,
    ⟨jobS (st [(R.CIP_JOB_STAT, 1)]) 3 511 0 3 0x800000000 0x800001000 0, jobJ State.reset 3 511 0 3 0x800000000
    0x800001000 0, by decide +kernel, by decide +kernel⟩,
    ⟨jobS (st [(R.CIP_JOB_STAT, 1), (fltReg 16 8, 0), (fltReg 16 12, 0)]) 3 511 0 3 0x800000000 0x800001000 0, jobJ
    State.reset 3 511 0 3 0x800000000 0x800001000 0, false, 3, by decide +kernel, by decide +kernel,
    by decide +kernel⟩⟩

/-- States and operands that meet the hypotheses of CipherAlarms, clause by clause. -/
theorem met_CipherAlarms :
    (∃ (s : State) (c : Nat),
      2 ≤ c ∧ c ≤ 5 ∧ RoomFor s 2 ∧ Mild s 16 1) ∧
    (∃ (s : State) (c : Nat),
      2 ≤ c ∧ c ≤ 5) ∧
    (∃ (s : State) (mains : Bool) (mv : Nat),
      s.runs = true ∧ s.cip.causes = [] ∧ RoomFor s 2 ∧ Mild s 16 1 ∧ Mild s 17 3) ∧
    (∃ (s : State) (m : Master) (v : Nat) (l : Loc),
      Writable s m R.CIP_ALARM_ACK (withBit v 0) l) ∧
    (∃ (s : State) (n : Nat),
      n < 512 ∧ s.slotState n = 1 ∧ alive s 5 = true ∧ RoomFor s 1 ∧ Mild s 16 3) :=
  ⟨⟨jobS (slotS (st [(R.CIP_JOB_STAT, 1), (fltReg 16 8, 0), (fltReg 16 12, 0)]) 511 0x40000010 key16) 3 511 0 3 0 0
  0, 5, by decide +kernel, by decide +kernel, by decide +kernel, by decide +kernel⟩,
    ⟨{ State.reset with cip := { State.reset.cip with causes := [2, 5] } }, 5, by decide +kernel, by decide +kernel⟩,
    ⟨slotS (st [(R.KEY_ALARM_CNT, 0xFFFF), (fltReg 16 8, 0), (fltReg 16 12, 0), (fltReg 17 8, 0), (fltReg 17 12,
    0)]) 511 0x40000010 key16, true, 3000, by decide +kernel, by decide +kernel, by decide +kernel,
    by decide +kernel, by decide +kernel⟩,
    ⟨st [(R.CIP_STATUS, 0x51)], keeper, 0, locOf R.CIP_ALARM_ACK, writable_iff (by decide +kernel)⟩,
    ⟨slotS (st [(fltReg 16 8, 0), (fltReg 16 12, 0)]) 511 0x40000010 key16, 511, by decide +kernel,
    by decide +kernel, by decide +kernel, by decide +kernel, by decide +kernel⟩⟩

/-- States and operands that meet the hypotheses of Associations, clause by clause. -/
theorem met_Associations :
    (∃ (s : State) (m : Master) (n : Nat) (p : Nat) (l : Loc) (l' : Loc),
      n = p + 256 ∧ p < 29 ∧ Calm s ∧ Writable s m R.CIP_SA_SEL n l ∧ Writable s m R.CIP_SA_CMD 0x80000001 l' ∧
      RoomFor s 1 ∧ s.slotUse s.saStaged.slot 1 = true ∧ (kvGet? s.cip.scs (p * 8)).isSome = true ∧ fld (s.slotOf
      s.saStaged.slot).attr 9 8 = (if s.regFld (R.CIP_SECY_CFG p) 9 8 % 2 = 0 then 0 else 2) ∧ (kvGet s.cip.sas
      (saKey p true 0 0) SaRec.none).valid = false) ∧
    (∃ (s : State) (m : Master) (n : Nat) (l : Loc) (l' : Loc),
      29 ≤ n ∧ n < 128 ∧ Calm s ∧ Writable s m R.CIP_SA_SEL n l ∧ Writable s m R.CIP_SA_CMD 0x80000001 l' ∧ RoomFor
      s 1) ∧
    (∃ (s : State) (m : Master) (n : Nat) (p : Nat) (l : Loc) (l' : Loc),
      n = p + 256 ∧ p < 29 ∧ Calm s ∧ Writable s m R.CIP_SA_SEL n l ∧ Writable s m R.CIP_SA_CMD 0x80000002 l' ∧
      RoomFor s 1) ∧
    (∃ (s : State) (m : Master) (n : Nat) (p : Nat) (l : Loc) (l' : Loc),
      n = p + 256 ∧ p < 29 ∧ Calm s ∧ Writable s m R.CIP_SA_SEL n l ∧ Writable s m R.CIP_SA_CMD 0x80000003 l') ∧
    (∃ (s : State) (m : Master) (n : Nat) (l : Loc) (l' : Loc),
      n < 4096 ∧ Calm s ∧ Writable s m R.CIP_FV_SEL n l ∧ Writable s m R.CIP_FV_CMD 1 l' ∧ RoomFor s 1) ∧
    (∃ (s : State) (m : Master),
      Reaches s m ∧ alive s 1 = true ∧ windowGranted s m 17 = true) :=
  ⟨⟨{ slotS (st [(R.CIP_SA_W 0, 0x80000000 + 511), (R.CIP_SA_W 1, 1)]) 511 0x40000002 key16 with cip := { (slotS (st []) 511 0x40000002 key16).cip with scs := [(28 * 8, 5)] } },
  keeper, 284, 28, locOf R.CIP_SA_SEL, locOf R.CIP_SA_CMD, by decide +kernel, by decide +kernel, by decide +kernel,
  writable_iff (by decide +kernel), writable_iff (by decide +kernel), by decide +kernel, by decide +kernel,
  by decide +kernel, by decide +kernel, by decide +kernel⟩,
    ⟨st [], keeper, 127, locOf R.CIP_SA_SEL, locOf R.CIP_SA_CMD, by decide +kernel, by decide +kernel,
    by decide +kernel, writable_iff (by decide +kernel), writable_iff (by decide +kernel), by decide +kernel⟩,
    ⟨{ st [] with cip := { (st []).cip with sas := [(saKey 28 true 0 0, ⟨true, 5, 9, 0, [], false⟩)] } }, keeper,
    284, 28, locOf R.CIP_SA_SEL, locOf R.CIP_SA_CMD, by decide +kernel, by decide +kernel, by decide +kernel,
    writable_iff (by decide +kernel), writable_iff (by decide +kernel), by decide +kernel⟩,
    ⟨{ st [] with cip := { (st []).cip with sas := [(saKey 0 true 0 0, ⟨true, 5, 0x900000001, 3, [], false⟩)] } },
    keeper, 256, 0, locOf R.CIP_SA_SEL, locOf R.CIP_SA_CMD, by decide +kernel, by decide +kernel, by decide +kernel,
    writable_iff (by decide +kernel), writable_iff (by decide +kernel)⟩,
    ⟨st [(R.CIP_FV_SET_LO, 5), (R.CIP_FV_SET_HI, 6)], keeper, 4095, locOf R.CIP_FV_SEL, locOf R.CIP_FV_CMD,
    by decide +kernel, by decide +kernel, writable_iff (by decide +kernel), writable_iff (by decide +kernel),
    by decide +kernel⟩,
    ⟨st [], keeper, by decide +kernel, by decide +kernel, by decide +kernel⟩⟩

/-- States and operands that meet the hypotheses of LifeCycleVaultAttestation, clause by clause. -/
theorem met_LifeCycleVaultAttestation :
    (∃ (s : State) (m : Master) (v : Nat) (l : Loc) (obj : Bytes),
      Writable s m R.KEY_LC_REQ (withBit v 31) l ∧ obj = s.readAny ((s.reg (R.KEY_LC_AUTH 0)).toNat + s.regFld
      (R.KEY_LC_AUTH 1) 15 0 * 2 ^ 32) 256 ∧ RoomFor s 1) ∧
    (∃ (s : State) (m : Master) (slot : Nat) (id : Nat) (l : Loc),
      slot < 512 ∧ id < 2048 ∧ Writable s m R.KEY_VLT_CMD (2 ^ 31 + 2 ^ 24 + slot * 4096 + id) l ∧
      s.vaultKeys.vaultRefusal m 1 slot = none ∧ RoomFor s 1) ∧
    (∃ (s : State) (m : Master) (slot : Nat) (id : Nat) (p : Nat) (r : Bytes) (attr : Word) (l : Loc),
      slot < 512 ∧ id < 2048 ∧ Writable s m R.KEY_VLT_CMD (2 ^ 31 + 2 * 2 ^ 24 + slot * 4096 + id) l ∧
      s.vaultKeys.vaultRefusal m 2 slot = none ∧ s.vaultKeys.vaultWinner (s.vaultKeys.slotOf 511).key id = some (p,
      r) ∧ attr = wordAt r 1 ∧ bitOf attr 29 = false ∧ bitOf attr 2 = false ∧ s.vaultKeys.loadRefusal m slot (attr
      &&& 0x7FF#32) 0 = none ∧ RoomFor s 1) ∧
    (∃ (s : State) (m : Master) (id : Nat) (l : Loc),
      id < 2048 ∧ Writable s m R.KEY_VLT_CMD (2 ^ 31 + 3 * 2 ^ 24 + id) l ∧ s.vaultKeys.vaultRefusal m 3 0 = none ∧
      RoomFor s 1) ∧
    (∃ (s : State) (m : Master) (v : Nat) (l : Loc),
      Writable s m R.KEY_ATT_CTRL (withBit v 31) l ∧ s.attRefused (word v) = false ∧ RoomFor s 1) ∧
    (∃ (s : State) (j : AttJob),
      s.key.att = some j ∧ alive s 1 = true) :=
  ⟨⟨st [(R.KEY_LC_AUTH 0, 0x100)], keeper, 1, locOf R.KEY_LC_REQ, _, writable_iff (by decide +kernel), rfl,
  by decide +kernel⟩,
    ⟨vltS, keeper, 3, 2047, locOf R.KEY_VLT_CMD, by decide +kernel, by decide +kernel, writable_iff
    (by decide +kernel), by decide +kernel, by decide +kernel⟩,
    ⟨withMem vltS (vaultAt 7 0) vltR, keeper, 495, 7, 0, vltR, 0x410, locOf R.KEY_VLT_CMD, by decide +kernel,
    by decide +kernel, writable_iff (by decide +kernel), by decide +kernel, by decide +kernel, by decide +kernel,
    by decide +kernel, by decide +kernel, by decide +kernel, by decide +kernel⟩,
    ⟨vltS, keeper, 2047, locOf R.KEY_VLT_CMD, by decide +kernel, writable_iff (by decide +kernel),
    by decide +kernel, by decide +kernel⟩,
    ⟨st [(R.SYS_LC_STATE, 1), (R.KEY_ATT_DST 0, 0x100)], keeper, 64, locOf R.KEY_ATT_CTRL, writable_iff
    (by decide +kernel), by decide +kernel, by decide +kernel⟩,
    ⟨{ st [(R.KEY_ATT_STAT, 1), (R.SYS_LC_STATE, 1)] with key := { State.reset.key with att := some ⟨[1, 2, 3], 0x800000000⟩ } },
    ⟨[1, 2, 3], 0x800000000⟩, by decide +kernel, by decide +kernel⟩⟩

/-- States and operands that meet the hypotheses of Guards, clause by clause. -/
theorem met_Guards :
    (∃ (s : State) (m : Master) (v : Nat) (l : Loc),
      Writable s m R.GRD_LD_CTRL (withBit (sansBit v 8) 31) l ∧ s.reg R.GRD_LD_LEN ≠ 0) ∧
    (∃ (s : State) (m : Master) (v : Nat) (l : Loc),
      Writable s m R.GRD_LD_CTRL (withBit v 8) l) ∧
    (∃ (s : State) (j : LoadJob),
      alive s 1 = true ∧ s.grd.load = some j) ∧
    (∃ (s : State) (m : Master) (v : Nat) (l : Loc),
      Writable s m R.GRD_APPLY (withBit v 0) l ∧ bitOf (word v) 1 = false) ∧
    (∃ (s : State) (m : Master) (v : Nat) (l : Loc),
      Writable s m R.GRD_APPLY (withBit (sansBit v 0) 1) l ∧ s.regFld R.GRD_MAN_FAILS 7 0 ≠ 2 ∧ Mild s 6 3) ∧
    (∃ (s : State) (m : Master) (v : Nat) (l : Loc),
      Writable s m R.GRD_APPLY (withBit (sansBit v 0) 1) l ∧ s.regFld R.GRD_MAN_FAILS 7 0 = 2 ∧ Mild s 6 3 ∧ Mild s
      6 4 ∧ Mild s 16 1 ∧ RoomFor s 3) ∧
    (∃ (s : State) (src : Nat) (bs : Bytes),
      alive s 1 = true ∧ s.grd.load = none ∧ s.regBit (winBase 6 + 0x20) 0 = false ∧ bs = s.readImage src 0x100000 ∧
      s.regFld R.GRD_MAN_FAILS 7 0 ≠ 2 ∧ Mild s 6 3 ∧ RoomFor s 1) ∧
    (∃ (s : State),
      alive s 1 = true) ∧
    (∃ (s : State) (p : Nat) (r : SafeRun) (b : Bytes),
      s.toggling = false ∧ s.regBit R.GRD_STATUS 0 = true ∧ alive s 1 = true ∧ p ∈ guardedPorts ∧ s.grd.run = [(p,
      r)] ∧ r.waiting = false ∧ 0 < s.regFld (R.GRD_PCFG p) 15 8 ∧ r.first + s.regFld (R.GRD_PCFG p) 15 8 * 1000000
      ≤ s.now ∧ s.regFld (R.GRD_PCFG p) 2 0 = 1 ∧ s.portCanSend p = true ∧ s.lineBusy p = false ∧ s.safeSlot p 0 =
      some b ∧ s.slotFits p b = true) :=
  ⟨⟨st [(R.GRD_LD_LEN, 64), (R.GRD_LD_DST, 32), (R.GRD_LD_SRC 1, 8)], keeper, 2, locOf R.GRD_LD_CTRL, writable_iff
  (by decide +kernel), by decide +kernel⟩,
    ⟨{ st [] with grd := { State.reset.grd with rules := [(3, [1])] } }, keeper, 2, locOf R.GRD_LD_CTRL,
    writable_iff (by decide +kernel)⟩,
    ⟨{ withMem (st [(R.GRD_LD_STAT, 1)]) 0x800000000 [1, 2, 3, 4, 5, 6, 7, 8, 9, 10, 11, 12, 13, 14, 15, 16] with grd := { State.reset.grd with load := some ⟨false, 2, 0x800000000, 32, 16⟩ } },
    ⟨false, 2, 0x800000000, 32, 16⟩, by decide +kernel, by decide +kernel⟩,
    ⟨st [(R.GRD_MAN_FAILS, 2), alvC], keeper, 0, locOf R.GRD_APPLY, writable_iff (by decide +kernel),
    by decide +kernel⟩,
    ⟨st ([(R.GRD_MAN_FAILS, 255)] ++ mild [(6, 3)]), keeper, 0, locOf R.GRD_APPLY, writable_iff (by decide +kernel),
    by decide +kernel, by decide +kernel⟩,
    ⟨slotS (st ([(R.GRD_MAN_FAILS, 2)] ++ mild [(6, 3), (16, 1)])) 5 0x40000010 key16, keeper, 0, locOf R.GRD_APPLY,
    writable_iff (by decide +kernel), by decide +kernel, by decide +kernel, by decide +kernel, by decide +kernel,
    by decide +kernel⟩,
    ⟨st (mild [(6, 3)]), 0x800000000, _, by decide +kernel, by decide +kernel, by decide +kernel, rfl,
    by decide +kernel, by decide +kernel, by decide +kernel⟩,
    ⟨st [(R.GRD_PSTAT 3, 0x10005), (R.GRD_PSTAT 103, 5)], by decide +kernel⟩,
    ⟨{ swc0 (st [(R.GRD_STATUS, 1), (R.GRD_PCFG 2, 0x0101)]) 5 0 with swc := { (swc0 State.reset 5 0).swc with link := [(2, 1000)] }, grd := { State.reset.grd with run := [(2, ⟨0, false⟩)], safe := [(8, safeRec 64)] }, tim := (at3 State.reset 1000000).tim },
    2, ⟨0, false⟩, List.replicate 64 1, by decide +kernel, by decide +kernel, by decide +kernel, by decide +kernel,
    by decide +kernel, by decide +kernel, by decide +kernel, by decide +kernel, by decide +kernel,
    by decide +kernel, by decide +kernel, by decide +kernel, by decide +kernel⟩⟩

/-- States and operands that meet the hypotheses of FaultPages, clause by clause. -/
theorem met_FaultPages :
    (∃ (s : State) (m : Master) (w : Nat) (src : Nat) (l : Loc),
      winOk w = true ∧ Writable s m (fltReg w 4) (2 ^ src) l ∧ src < 32 ∧ sourceOk w src = true ∧ Mild s w src ∧
      s.regBit (fltReg w 0x20) 8 = false) ∧
    (∃ (s : State) (m : Master) (w : Nat) (src : Nat) (l : Loc),
      winOk w = true ∧ Writable s m (fltReg w 4) (2 ^ src) l ∧ src < 32 ∧ sourceOk w src = true ∧ Mild s w src ∧
      s.regBit (fltReg w 0x20) 8 = true) ∧
    (∃ (s : State) (m : Master) (w : Nat) (v : Nat) (l : Loc),
      winOk w = true ∧ Writable s m (fltReg w 0x40) (withBit v 0) l ∧ s.reg (fltReg w 0) = 0) ∧
    (∃ (s : State) (m : Master) (w : Nat) (v : Nat) (l : Loc),
      winOk w = true ∧ Writable s m (fltReg w 0) v l ∧ (∀ src < 32, bitOf (word v) src = true → s.levelHolds w src =
      none)) :=
  ⟨⟨st [(R.SYS_FLT_SEQ, 0xFFFFFFFF)], keeper, 92, 0, locOf (fltReg 92 4), by decide +kernel, writable_iff
  (by decide +kernel), by decide +kernel, by decide +kernel, by decide +kernel, by decide +kernel⟩,
    ⟨st (mild [(6, 3)] ++ [(fltReg 6 0x20, 0x104), (fltReg 6 0x3C, 7)]), keeper, 6, 3, locOf (fltReg 6 4),
    by decide +kernel, writable_iff (by decide +kernel), by decide +kernel, by decide +kernel, by decide +kernel,
    by decide +kernel⟩,
    ⟨st [(fltReg 6 0x20, 0x104), (fltReg 6 0x3C, 7)], keeper, 6, 0, locOf (fltReg 6 0x40), by decide +kernel,
    writable_iff (by decide +kernel), by decide +kernel⟩,
    ⟨st [(fltReg 6 0, 0x1F)], keeper, 6, 0xFFFFFFFF, locOf (fltReg 6 0), by decide +kernel, writable_iff
    (by decide +kernel), by decide +kernel⟩⟩

/-- States and operands that meet the hypotheses of AliveSignal, clause by clause. -/
theorem met_AliveSignal :
    (∃ (s : State) (m : Master) (v : Nat) (l : Loc),
      Writable s m R.ALV_KICK v l ∧ s.kickArmed = true ∧ s.alv.half = none ∧ v % 65536 = 0x5A5A) ∧
    (∃ (s : State) (m : Master) (v : Nat) (t0 : Nat) (l : Loc),
      Writable s m R.ALV_KICK v l ∧ s.toggling = true ∧ s.alv.half = some t0 ∧ s.now ≤ t0 + 1000000 ∧ v % 65536 =
      0xA5A5 ∧ Mild s 5 1 ∧ s.now - s.alv.lastKick ≤ s.kickWindow.2.1) ∧
    (∃ (s : State) (m : Master) (v : Nat) (t0 : Nat) (a : Nat) (l : Loc),
      Writable s m R.ALV_KICK v l ∧ s.toggling = false ∧ s.kickArmed = true ∧ s.alv.half = some t0 ∧ s.now ≤ t0 +
      1000000 ∧ v % 65536 = 0xA5A5 ∧ s.alv.applyAt = some a ∧ s.now ≤ a + s.kickWindow.2.2) ∧
    (∃ (s : State),
      s.alv.ending = true) ∧
    (∃ (s : State) (m : Master) (v : Nat) (l : Loc),
      Writable s m R.ALV_CMD (withBit v 0) l ∧ s.toggling = true) ∧
    (∃ (s : State) (m : Master) (v : Nat) (l : Loc),
      Writable s m R.ALV_RESTART v l) ∧
    (∃ (s : State),
      s.toggling = true ∧ s.alv.lastKick + s.kickWindow.2.1 ≤ s.now ∧ Mild s 5 1) ∧
    (∃ (s : State) (a : Nat),
      s.alv.applyAt = some a ∧ s.toggling = false ∧ s.kickArmed = true ∧ a + s.kickWindow.2.2 ≤ s.now ∧ Mild s 5 1) ∧
    (∃ (s : State) (t0 : Nat),
      s.alv.half = some t0 ∧ t0 + 1000000 ≤ s.now ∧ s.kickArmed = true ∧ Mild s 5 1) :=
  ⟨⟨alvS [(R.ALV_STATUS, 1)] id, keeper, 0x5A5A, locOf R.ALV_KICK, writable_iff (by decide +kernel),
  by decide +kernel, by decide +kernel, by decide +kernel⟩,
    ⟨at3 (alvS ([(R.ALV_STATUS, 1), alvC] ++ mild [(5, 1)]) fun a => { a with half := some 3500000 }) 4000000,
    keeper, 0xA5A5, 3500000, locOf R.ALV_KICK, writable_iff (by decide +kernel), by decide +kernel,
    by decide +kernel, by decide +kernel, by decide +kernel, by decide +kernel, by decide +kernel⟩,
    ⟨at3 (alvS ([(R.ALV_STATUS, 0), alvC] ++ mild [(5, 1)]) fun a =>
    { a with half := some 3500000, applyAt := some 0 }) 4000000, keeper, 0xA5A5, 3500000, 0, locOf R.ALV_KICK,
    writable_iff (by decide +kernel), by decide +kernel, by decide +kernel, by decide +kernel, by decide +kernel,
    by decide +kernel, by decide +kernel, by decide +kernel⟩,
    ⟨at3 (alvS [] fun a => { a with ending := true }) 77, by decide +kernel⟩,
    ⟨alvS [(R.ALV_STATUS, 1)] id, keeper, 0, locOf R.ALV_CMD, writable_iff (by decide +kernel), by decide +kernel⟩,
    ⟨alvS [(R.ALV_STATUS, 0x700), (R.GRD_STATUS, 1)] id, keeper, 0x0F0F, locOf R.ALV_RESTART, writable_iff
    (by decide +kernel)⟩,
    ⟨at3 (alvS ([(R.ALV_STATUS, 1), alvC] ++ mild [(5, 1)]) id) 100000000, by decide +kernel, by decide +kernel,
    by decide +kernel⟩,
    ⟨at3 (alvS ([(R.ALV_STATUS, 0), alvC] ++ mild [(5, 1)]) fun a => { a with applyAt := some 5 }) 16000000005, 5,
    by decide +kernel, by decide +kernel, by decide +kernel, by decide +kernel, by decide +kernel⟩,
    ⟨at3 (alvS ([(R.ALV_STATUS, 1), alvC] ++ mild [(5, 1)]) fun a => { a with half := some 5 }) 1000005, 5,
    by decide +kernel, by decide +kernel, by decide +kernel, by decide +kernel⟩⟩

/-- States and operands that meet the hypotheses of SafeSupplyAndErrorInputs, clause by clause. -/
theorem met_SafeSupplyAndErrorInputs :
    (∃ (s : State),
      s.toggling = true ∧ s.alv.detector = false ∧ s.alv.edgeAt + 7920000 ≤ s.now) ∧
    (∃ (s : State),
      s.regBit R.ALV_STATUS 1 = true ∧ s.alv.detector = true ∧ s.alv.limitAt = none ∧ Mild s 5 3) ∧
    (∃ (s : State) (t0 : Nat),
      s.alv.limitAt = some t0 ∧ t0 + 5000000 ≤ s.now ∧ Mild s 5 3) ∧
    (∃ (s : State) (t0 : Nat),
      s.alv.tripAt = some t0 ∧ t0 + giga ≤ s.now ∧ s.alv.thermal = false ∧ s.alv.tripLatched = false) ∧
    (∃ (s : State) (x : Bool),
      x ≠ (s.toggling && s.regBit R.ALV_CTRL 0) ∧ Mild s 5 2) ∧
    (∃ (s : State),
      Mild s 0 3) ∧
    (∃ (s : State),
      s.reaction 0 3 = 4 ∧ s.regBit (fltReg 0 0x20) 8 = false ∧ s.pwr.chip = none) ∧
    (∃ (s : State),
      Mild s 5 4) ∧
    (∃ (s : State) (d : Nat),
      d < 16 ∧ Mild s 1 1) ∧
    (∃ (s : State),
      s.runs = true ∧ 6370 < s.meas 58 ∧ Mild s 1 2) ∧
    (∃ (s : State) (m : Master) (a : Nat),
      alive s 8 = true ∧ 0x800000000 ≤ a ∧ a < 0xA00000000 ∧ Mild s 25 1) ∧
    (∃ (s : State) (m : Master) (a : Nat),
      alive s 8 = true ∧ 0x800000000 ≤ a ∧ a < 0xA00000000 ∧ Mild s 25 2) ∧
    (∃ (s : State) (off : Nat) (r : LedgerRec),
      alive s 2 = true ∧ s.ledgerRec off = some r ∧ r.freed = false ∧ Mild s 4 1) :=
  ⟨⟨at3 (alvS [(R.ALV_STATUS, 1), (R.ALV_CTRL, 1)] id) 7920000, by decide +kernel, by decide +kernel,
  by decide +kernel⟩,
    ⟨alvS ([(R.ALV_STATUS, 3)] ++ mild [(5, 3)]) fun a => { a with detector := true }, by decide +kernel,
    by decide +kernel, by decide +kernel, by decide +kernel⟩,
    ⟨at3 (alvS ([(R.ALV_STATUS, 3)] ++ mild [(5, 3)]) fun a =>
    { a with detector := true, limitAt := some 1, trips := 2 }) 5000001, 1, by decide +kernel, by decide +kernel,
    by decide +kernel⟩,
    ⟨at3 (alvS ([(R.ALV_STATUS, 1), (R.ALV_CTRL, 1)]) fun a => { a with detector := true, tripAt := some 1 })
    1000000001, 1, by decide +kernel, by decide +kernel, by decide +kernel, by decide +kernel⟩,
    ⟨alvS (mild [(5, 2)]) id, true, by decide +kernel, by decide +kernel⟩,
    ⟨alvS (mild [(0, 3)]) id, by decide +kernel⟩,
    ⟨alvS [(fltReg 0 8, 0x4000)] id, by decide +kernel, by decide +kernel, by decide +kernel⟩,
    ⟨alvS (mild [(5, 4)]) id, by decide +kernel⟩,
    ⟨alvS (mild [(1, 1)]) id, 15, by decide +kernel, by decide +kernel⟩,
    ⟨alvS (mild [(1, 2)] ++ [(R.FOX_MEAS 58, 6371)]) id, by decide +kernel, by decide +kernel, by decide +kernel⟩,
    ⟨st (mild [(25, 1)]), keeper, 0x9FFFFFFFF, by decide +kernel, by decide +kernel, by decide +kernel,
    by decide +kernel⟩,
    ⟨st (mild [(25, 2)]), keeper, 0x800000000, by decide +kernel, by decide +kernel, by decide +kernel,
    by decide +kernel⟩,
    ⟨ldgS (st (mild [(4, 1)])) [lrec 0 (fun r => { r with origin := some (1, 2, 3, 4) }), lrec 6] (some ⟨1, 4999, 0,
    true, [0]⟩), 0, lrec 0 (fun r => { r with origin := some (1, 2, 3, 4) }), by decide +kernel, by decide +kernel,
    by decide +kernel, by decide +kernel⟩⟩

/-- States and operands that meet the hypotheses of LedgerReplay, clause by clause. -/
theorem met_LedgerReplay :
    (∃ (s : State),
      alive s 2 = true) ∧
    (∃ (s : State) (m : Master) (v : Nat) (x : ReplaySet) (l : Loc),
      Writable s m R.LDG_CMD (withBit v 0) l ∧ bitOf (word v) 1 = false ∧ s.ldg.set = some x ∧ x.waiting = true ∧
      x.todo ≠ [] ∧ s.replayLate = false ∧ (∀ off ∈ x.todo, ∃ r, s.ledgerRec off = some r ∧ r.freed = false ∧
      s.replayBar x.kind x.ageUs r = none)) ∧
    (∃ (s : State) (m : Master) (v : Nat) (x : ReplaySet) (l : Loc),
      Writable s m R.LDG_CMD (withBit v 1) l ∧ bitOf (word v) 0 = false ∧ s.ldg.set = some x ∧ x.waiting = true) ∧
    (∃ (s : State) (x : ReplaySet),
      alive s 2 = true ∧ s.replayLate = true ∧ s.ldg.set = some x) ∧
    (∃ (s : State) (x : ReplaySet) (off : Nat) (rest : List Nat) (r : LedgerRec),
      alive s 2 = true ∧ s.queueFull 7 = false ∧ s.ldg.set = some x ∧ x.waiting = false ∧ x.todo = off :: rest ∧
      s.ledgerRec off = some r ∧ r.freed = false) ∧
    (∃ (s : State) (u : State) (w : State) (ws : List Word) (off : Nat),
      alive s 2 = true ∧ alive s 3 = true ∧ s.take? 7 = some (ws, u) ∧ w = u.evalQueue 7 ∧ off = feedOff ws) :=
  ⟨⟨at3 (ldgS (st [(R.LDG_WCLASS 1, 5)]) [lrec 0, lrec 6 (fun r => { r with wclass := 2 }), lrec 12 (fun r =>
  { r with origin := some (1, 2, 3, 4), wclass := 1 })] none) 5000000, by decide +kernel⟩,
    ⟨ldgS (st [(R.LDG_WCLASS 1, 5)]) [lrec 0, lrec 6] (some ⟨1, 4999, 0, true, [0, 6]⟩), keeper, 0, ⟨1, 4999, 0,
    true, [0, 6]⟩, locOf R.LDG_CMD, writable_iff (by decide +kernel), by decide +kernel, by decide +kernel,
    by decide +kernel, by decide +kernel, by decide +kernel, by decide +kernel⟩,
    ⟨ldgS (st [(R.LDG_WCLASS 1, 5)]) [lrec 0, lrec 6] (some ⟨1, 4999, 0, true, [0, 6]⟩), keeper, 0, ⟨1, 4999, 0,
    true, [0, 6]⟩, locOf R.LDG_CMD, writable_iff (by decide +kernel), by decide +kernel, by decide +kernel,
    by decide +kernel⟩,
    ⟨at3 (ldgS (st [(R.LDG_WCLASS 1, 5), (R.LDG_CTRL, 0x50000)]) [lrec 0, lrec 6] (some ⟨1, 4999, 0, true, [0, 6]⟩))
    5000000, ⟨1, 4999, 0, true, [0, 6]⟩, by decide +kernel, by decide +kernel, by decide +kernel⟩,
    ⟨ldgS (st [(R.LDG_WCLASS 1, 5)]) [lrec 0, lrec 6] (some ⟨1, 4999, 0, false, [0, 6]⟩), ⟨1, 4999, 0, false, [0,
    6]⟩, 0, [6], lrec 0, by decide +kernel, by decide +kernel, by decide +kernel, by decide +kernel,
    by decide +kernel, by decide +kernel, by decide +kernel⟩,
    ⟨withQ (ldgS (st []) [lrec 0] none) 7 [item 0x44 (feedItem 0 [2])], (((withQ (ldgS (st []) [lrec 0] none) 7
    [item 0x44 (feedItem 0 [2])]).take? 7).getD ([], (withQ (ldgS (st []) [lrec 0] none) 7 [item 0x44 (feedItem 0
    [2])]))).2, _, feedItem 0 [2], 0, by decide +kernel, by decide +kernel, by decide +kernel, rfl,
    by decide +kernel⟩⟩

/-- States and operands that meet the hypotheses of PowerDomains, clause by clause. -/
theorem met_PowerDomains :
    (∃ (s : State) (m : Master) (d : Nat) (l : Loc),
      Writable s m R.PWR_PD_REQ (s.reg R.PWR_PD_REQ ||| word (2 ^ d)).toNat l ∧ gateable d = true ∧ d ≠ 9 ∧ bitOf
      (s.reg R.PWR_PD_REQ) d = false ∧ powered s d = true ∧ (∀ p ∈ ethPortsOf d, kvGet? s.swc.rx p = none)) ∧
    (∃ (s : State) (m : Master) (d : Nat) (l : Loc),
      Writable s m R.PWR_PD_REQ (s.reg R.PWR_PD_REQ &&& ~~~ word (2 ^ d)).toNat l ∧ d < 16 ∧ 1 ≤ d ∧ bitOf (s.reg
      R.PWR_PD_REQ) d = true ∧ powered s d = false) ∧
    (∃ (s : State) (d : Nat),
      gateable d = true ∧ d ≠ 9 ∧ powered s d = true ∧ s.runs = true ∧ s.pwr.seqFails < 2 ∧ (∀ p ∈ ethPortsOf d,
      kvGet? s.swc.rx p = none) ∧ Mild s 1 3) ∧
    (∃ (s : State) (d : Nat),
      1 ≤ d ∧ d ≤ 15 ∧ powered s d = true ∧ s.runs = true ∧ s.pwr.seqFails = 2) ∧
    (∃ (s : State) (m : Master) (l : Loc),
      Writable s m R.PWR_BLK_RST (2 ^ 5) l ∧ powered s 5 = true) ∧
    (∃ (s : State) (d : Nat),
      5 ≤ d ∧ d ≤ 8 ∧ powered s d = true ∧ inReset s d = true ∧ s.pwr.resetPin = false) ∧
    (∃ (s : State) (m : Master) (v : Nat) (l : Loc),
      Writable s m R.PWR_CORE_RST v l) :=
  ⟨⟨swc0 (st []) 2 3, keeper, 10, locOf R.PWR_PD_REQ, writable_iff (by decide +kernel), by decide +kernel,
  by decide +kernel, by decide +kernel, by decide +kernel, by decide +kernel⟩,
    ⟨st [(R.PWR_PD_REQ, 0x4400), (R.PWR_PD_STATUS, 0xBBFF)], keeper, 14, locOf R.PWR_PD_REQ, writable_iff
    (by decide +kernel), by decide +kernel, by decide +kernel, by decide +kernel, by decide +kernel⟩,
    ⟨st (mild [(1, 3)]), 7, by decide +kernel, by decide +kernel, by decide +kernel, by decide +kernel,
    by decide +kernel, by decide +kernel, by decide +kernel⟩,
    ⟨{ st (mild [(1, 3)]) with pwr := { State.reset.pwr with seqFails := 2 } }, 1, by decide +kernel,
    by decide +kernel, by decide +kernel, by decide +kernel, by decide +kernel⟩,
    ⟨slotS (st [(R.CIP_SLOT_ATTR, 5)]) 5 0x40000010 key16, keeper, locOf R.PWR_BLK_RST, writable_iff
    (by decide +kernel), by decide +kernel⟩,
    ⟨{ st [] with pwr := { State.reset.pwr with inReset := [5, 6] } }, 5, by decide +kernel, by decide +kernel,
    by decide +kernel, by decide +kernel, by decide +kernel⟩,
    ⟨st [], keeper, 5, locOf R.PWR_CORE_RST, writable_iff (by decide +kernel)⟩⟩

/-- States and operands that meet the hypotheses of StandbySleepAndWakes, clause by clause. -/
theorem met_StandbySleepAndWakes :
    (∃ (s : State) (m : Master) (l : Loc),
      Writable s m R.PWR_STATE_REQ 0x80000003 l ∧ s.runs = true ∧ s.pwr.chip = none ∧ (∀ i < 20, s.regBit
      R.PWR_TC10_EN i = false)) ∧
    (∃ (s : State) (m : Master) (l : Loc),
      Writable s m R.PWR_STATE_REQ 0x80000004 l ∧ s.runs = true ∧ s.pwr.chip = none ∧ (∀ i < 20, s.regBit
      R.PWR_TC10_EN i = false)) ∧
    (∃ (s : State) (m : Master) (l : Loc) (i : Nat),
      Writable s m R.PWR_STATE_REQ 0x80000003 l ∧ s.runs = true ∧ s.pwr.chip = none ∧ i < 20 ∧ s.regBit
      R.PWR_TC10_EN i = true ∧ s.toggling = true) ∧
    (∃ (s : State) (t0 : Nat),
      s.pwr.keyLowAt = some t0 ∧ s.runs = true ∧ s.regFld R.PWR_CFG 15 8 ≠ 0 ∧ t0 + s.regFld R.PWR_CFG 15 8 * 60 *
      giga ≤ s.now ∧ s.pwr.chip = none ∧ s.regBit R.PWR_STATUS 5 = false ∧ (∀ i < 20, s.regBit R.PWR_TC10_EN i =
      false)) ∧
    (∃ (s : State),
      s.pwr.mode = .standby ∧ s.regFld R.PWR_CFG 31 16 ≠ 0 ∧ s.pwr.entryAt + s.regFld R.PWR_CFG 31 16 * 60 * giga ≤
      s.now ∧ s.pwr.chip = none ∧ s.regBit R.PWR_STATUS 5 = false) ∧
    (∃ (s : State) (n : Nat) (k : Nat),
      s.pwr.mode = .entering ∧ 4 ≤ n ∧ n - 4 ∈ s.pwr.tc10 ∧ k ≠ n - 4 ∧ k ∈ s.pwr.tc10) ∧
    (∃ (s : State) (n : Nat),
      s.pwr.mode = .entering ∧ 4 ≤ n ∧ s.pwr.tc10 = [n - 4] ∧ s.pwr.chip = none ∧ s.pwr.entryWake = false) ∧
    (∃ (s : State),
      s.pwr.mode = .entering ∧ s.pwr.tc10 ≠ [] ∧ s.pwr.chip = none ∧ s.pwr.entryWake = false ∧ s.pwr.entryAt +
      s.regFld R.PWR_CFG 7 0 * 1000000 ≤ s.now) ∧
    (∃ (s : State) (k : Nat) (mv : Nat),
      k < 16 ∧ s.wakeEnabled k = true ∧ (s.pwr.mode = .standby ∨ s.pwr.mode = .sleep) ∧ s.regBit R.PWR_STATUS 5 =
      false ∧ s.pwr.chip = none ∧ s.cip.causes = [] ∧ RoomFor s 1) ∧
    (∃ (s : State) (k : Nat) (mv : Nat),
      k < 16 ∧ k ≠ 4 ∧ s.wakeEnabled k = true ∧ (s.pwr.mode = .standby ∨ s.pwr.mode = .sleep) ∧ s.regBit
      R.PWR_STATUS 5 = false ∧ s.pwr.chip = none ∧ mv < s.regFld R.PWR_BATT_THR 31 16) ∧
    (∃ (s : State) (k : Nat) (mv : Nat),
      k < 16 ∧ s.wakeEnabled k = true ∧ s.pwr.mode = .entering) ∧
    (∃ (s : State) (high : Bool),
      s.pwr.mode ≠ .off ∧ s.regBit R.PWR_STATUS 6 ≠ high) ∧
    (∃ (s : State) (n : Nat) (line : Bytes),
      n < 24 ∧ s.regBit R.GRD_STATUS 0 = true ∧ s.toggling = true ∧ s.pwr.fwd = [n] ∧ s.canOn n = true ∧ s.lineBusy
      (64 + n) = false ∧ line = mkBus (idWord (s.regFld R.PWR_WAKE_ID 28 0) (s.regBit R.PWR_WAKE_ID 29) false) 0 0 0
      0 0 0xFF 0 0 [] ∧ s.guardCause (64 + n) ⟨59, 0, line, 0⟩ = none) :=
  ⟨⟨withMem (withMem (swc0 (st [(R.ALV_STATUS, 1)]) 2 3) 0x800000000 [1, 2]) 0x08000000 [3], keeper, locOf
  R.PWR_STATE_REQ, writable_iff (by decide +kernel), by decide +kernel, by decide +kernel, by decide +kernel⟩,
    ⟨withMem (withMem (ldgS (swc0 (st [(R.ALV_STATUS, 1)]) 2 3) [lrec 0] none) 0x800000000 [1, 2]) 0x08000000 [3],
    keeper, locOf R.PWR_STATE_REQ, writable_iff (by decide +kernel), by decide +kernel, by decide +kernel,
    by decide +kernel⟩,
    ⟨linked (st [(R.ALV_STATUS, 1), (R.PWR_TC10_EN, 0x80000)]), keeper, locOf R.PWR_STATE_REQ, 19, writable_iff
    (by decide +kernel), by decide +kernel, by decide +kernel, by decide +kernel, by decide +kernel,
    by decide +kernel⟩,
    ⟨at3 { st [(R.PWR_CFG, 0x100)] with pwr := { State.reset.pwr with keyLowAt := some 5 } } 60000000005, 5,
    by decide +kernel, by decide +kernel, by decide +kernel, by decide +kernel, by decide +kernel,
    by decide +kernel, by decide +kernel⟩,
    ⟨at3 (withMem
    { st [(R.PWR_CFG, 0x10000), (R.PWR_PD_STATUS, 1)] with pwr := { State.reset.pwr with mode := .standby } }
    0x800000000 [1]) 60000000000, by decide +kernel, by decide +kernel, by decide +kernel, by decide +kernel,
    by decide +kernel⟩,
    ⟨{ st [] with pwr := { State.reset.pwr with mode := .entering, tc10 := [19, 3] } }, 23, 3, by decide +kernel,
    by decide +kernel, by decide +kernel, by decide +kernel, by decide +kernel⟩,
    ⟨{ st [] with pwr := { State.reset.pwr with mode := .entering, target := .sleep, tc10 := [19] } }, 23,
    by decide +kernel, by decide +kernel, by decide +kernel, by decide +kernel, by decide +kernel⟩,
    ⟨at3
    { st [(R.PWR_CFG, 0x10)] with pwr := { State.reset.pwr with mode := .entering, target := .standby, tc10 := [19] } }
    16000000, by decide +kernel, by decide +kernel, by decide +kernel, by decide +kernel, by decide +kernel⟩,
    ⟨{ st [(R.PWR_WAKE_EN, 0x2000), (R.PWR_PD_STATUS, 1)] with pwr := { State.reset.pwr with mode := .standby } },
    13, 12000, by decide +kernel, by decide +kernel, by decide +kernel, by decide +kernel, by decide +kernel,
    by decide +kernel, by decide +kernel⟩,
    ⟨{ st [(R.PWR_WAKE_EN, 1), (R.PWR_BATT_THR, 0x20000000), (R.PWR_PD_STATUS, 1)] with pwr := { State.reset.pwr with mode := .standby } },
    0, 0x1FFF, by decide +kernel, by decide +kernel, by decide +kernel, by decide +kernel, by decide +kernel,
    by decide +kernel, by decide +kernel⟩,
    ⟨{ st [(R.PWR_WAKE_EN, 1)] with pwr := { State.reset.pwr with mode := .entering } }, 0, 0, by decide +kernel,
    by decide +kernel, by decide +kernel⟩,
    ⟨st [(R.PWR_STATUS, 0x48)], false, by decide +kernel, by decide +kernel⟩,
    ⟨guardBus
    { st ([(R.PWR_WAKE_ID, 0x123), (R.CAN_CFG 23, 0x012005), (R.ALV_STATUS, 1)] ++ guardRegs 87 ++ canRegs 23) with pwr := { State.reset.pwr with fwd := [23] } }
    87, 23, _, by decide +kernel, by decide +kernel, by decide +kernel, by decide +kernel, by decide +kernel,
    by decide +kernel, rfl, by decide +kernel⟩⟩

/-- States and operands that meet the hypotheses of ResetsAndPowerFail, clause by clause. -/
theorem met_ResetsAndPowerFail :
    (∃ (s : State) (m : Master) (v : Nat) (l : Loc),
      Writable s m R.PWR_CHIP_RST v l ∧ s.pwr.chip = none) ∧
    (∃ (s : State) (mains : Bool) (mv : Nat),
      s.runs = true ∧ s.pwr.resetPin = false ∧ s.pwr.chip = none) ∧
    (∃ (s : State) (mains : Bool) (mv : Nat),
      s.pwr.mode ≠ .off ∧ s.pwr.resetPin = true ∧ s.pwr.chip = none) ∧
    (∃ (s : State) (c : ChipReset),
      s.pwr.chip = some c ∧ s.regBit R.PWR_STATUS 5 = false ∧ s.pwr.mode ≠ .off ∧ s.regBit R.PWR_STATUS 3 = true ∧
      s.cip.causes = [] ∧ RoomFor s 1) ∧
    (∃ (s : State) (v : Nat),
      s.pwr.mode = .off ∧ v < 2 ∧ s.cip.causes = []) ∧
    (∃ (s : State) (b : Bool),
      s.runs = true ∧ s.regBit R.PWR_STATUS 5 = false) ∧
    (∃ (s : State),
      s.pwr.mode ≠ .off ∧ s.regBit R.PWR_STATUS 5 = true) ∧
    (∃ (s : State),
      s.regBit R.PWR_STATUS 5 = true) :=
  ⟨⟨st [(R.ALV_STATUS, 1)], keeper, 0x5259, locOf R.PWR_CHIP_RST, writable_iff (by decide +kernel),
  by decide +kernel⟩,
    ⟨st [(R.ALV_STATUS, 1)], true, 0, by decide +kernel, by decide +kernel, by decide +kernel⟩,
    ⟨{ st [] with pwr := { State.reset.pwr with resetPin := true, inReset := [3] } }, false, 0, by decide +kernel,
    by decide +kernel, by decide +kernel⟩,
    ⟨withMem (withMem
    { slotS (swc0 (st [(R.ALV_STATUS, 1), (R.PWR_STATUS, 8)]) 2 3) 5 0x40000010 key16 with pwr := { State.reset.pwr with chip := some ⟨5, 16, 1⟩ } }
    0x800000000 [1]) 0x08000000 [1], ⟨5, 16, 1⟩, by decide +kernel, by decide +kernel, by decide +kernel,
    by decide +kernel, by decide +kernel, by decide +kernel⟩,
    ⟨{ st [] with pwr := { State.reset.pwr with mode := .off } }, 0, by decide +kernel, by decide +kernel,
    by decide +kernel⟩,
    ⟨swc0 (st [(R.ALV_STATUS, 1)]) 2 3, true, by decide +kernel, by decide +kernel⟩,
    ⟨st [(R.PWR_STATUS, 0x20), (R.ALV_STATUS, 1)], by decide +kernel, by decide +kernel⟩,
    ⟨withMem (withMem (slotS (ldgS (st [(R.PWR_STATUS, 0x20), (R.ALV_STATUS, 1), (R.PWR_PD_STATUS, 5)]) [lrec 0]
    none) 5 0x40000010 key16) 0x800000000 [1]) 0x08000000 [1], by decide +kernel⟩⟩

/-- States and operands that meet the hypotheses of SupplySettingRule, clause by clause. -/
theorem met_SupplySettingRule :
    ∃ (s : State) (m : Master) (n : Nat) (v : Nat) (l : Loc),
      1 ≤ n ∧ n ≤ 15 ∧ v < 1024 ∧ Addressed s m (R.FOX_VSET_PD n) l ∧ Mild s 2 0 :=
  ⟨st [(fltReg 2 8, 0)], keeper, 15, 900, locOf (R.FOX_VSET_PD 15), by decide +kernel, by decide +kernel,
  by decide +kernel, ⟨by decide +kernel, by decide +kernel, by decide +kernel, by decide +kernel, by decide +kernel,
  by decide +kernel, by decide +kernel, by decide +kernel, by decide +kernel⟩, by decide +kernel⟩

/-- States and operands that meet the hypotheses of DeniedReadsGiveZero, clause by clause. -/
theorem met_DeniedReadsGiveZero :
    ∃ (s : State) (m : Master) (a : Nat) (l : Loc),
      Reaches s m ∧ a % 4 = 0 ∧ regAt a = some l ∧ alive s (domainOf l.win) = true ∧ ((l.row.sec = true ∧
      secureMaster s m = false) ∨ windowGranted s m l.win = false) :=
  ⟨st [(R.SYS_LC_STATE, 3)], ⟨0x30, .machine⟩, R.CIP_SLOT_KEY 0, locOf (R.CIP_SLOT_KEY 0), by decide +kernel,
  by decide +kernel, by decide +kernel, by decide +kernel, by decide +kernel⟩

/-- States and operands that meet the hypotheses of StateRequestRule, clause by clause. -/
theorem met_StateRequestRule :
    ∃ (s : State) (m : Master) (v : Nat) (l : Loc),
      Addressed s m R.PWR_STATE_REQ l ∧ bitOf (word v) 31 = true ∧ Mild s 1 0 ∧ ((fld (word v) 2 0 ≠ 3 ∧ fld (word
      v) 2 0 ≠ 4) ∨ s.pwr.mode = .entering ∨ s.regBit R.PWR_STATUS 5 = true) :=
  ⟨st (mild [(1, 0)]), keeper, 0x80000005, locOf R.PWR_STATE_REQ, ⟨by decide +kernel, by decide +kernel,
  by decide +kernel, by decide +kernel, by decide +kernel, by decide +kernel, by decide +kernel, by decide +kernel,
  by decide +kernel⟩, by decide +kernel, by decide +kernel, by decide +kernel⟩

end Sys2Proof.Tests
end

section
/-! PROOFS. Steps that make no audit entry, and faults whose reaction is mild. -/

namespace Sys2Proof.Machine

/-! ### Words and registers -/

@[simp] theorem respond_reg (s : State) (x : BusResp) (a : Nat) : (s.respond x).reg a = s.reg a := rfl

/-- The low ten bits of a number below 1024. -/
theorem fld_word_low {v : Nat} (h : v < 1024) : fld (word v) 9 0 = v := by
  simp only [fld, word, BitVec.toNat_ofNat, Nat.shiftRight_zero]
  omega

/-- A bit set reads as set. -/
theorem bitOf_putBit_true (v : Word) {b : Nat} (h : b < 32) : bitOf (putBit v b true) b = true := by
  unfold bitOf putBit putFld fieldMask
  simp [h, BitVec.getLsbD_ofNat]

/-! ### Steps that make no audit entry -/

/-- A step that touches event parts, makes no audit entry, and beside the registers of events writes only those named. -/
def QuietStep (as : List Nat) (s t : State) : Prop :=
  SameBut eventParts s t ∧ ∀ a, a ∉ as → signalReg a = false ∨ a = R.AUD_SEQ → t.reg a = s.reg a

theorem QuietStep.trans {as : List Nat} {s t u : State} (h : QuietStep as s t) (k : QuietStep as t u) :
    QuietStep as s u := ⟨h.1.trans k.1, fun a ha hs => (k.2 a ha hs).trans (h.2 a ha hs)⟩

/-- An event step that leaves the log's sequence number is quiet. -/
theorem EventStep.quiet {as : List Nat} {s t : State} (h : EventStep s t) (hq : t.reg R.AUD_SEQ = s.reg R.AUD_SEQ) :
    QuietStep as s t :=
  ⟨h.1, fun a _ hs => hs.elim (h.2 a (by simp)) fun e => e ▸ hq⟩

theorem QuietStep.refl (as : List Nat) (s : State) : QuietStep as s s := (EventStep.refl s).quiet rfl

theorem QuietStep.setReg {as : List Nat} (s : State) {a : Nat} (v : Word) (h : a ∈ as) :
    QuietStep as s (s.setReg a v) :=
  ⟨(setReg_same s a v).mono (by simp [eventParts]), fun b hb _ => reg_setReg_ne s v fun e => hb (e ▸ h)⟩

theorem QuietStep.foldl {as : List Nat} {f : State → Nat → State} {l : List Nat}
    (h : ∀ t, ∀ i ∈ l, QuietStep as t (f t i)) (s : State) : QuietStep as s (l.foldl f s) := by
  induction l generalizing s with
  | nil => exact QuietStep.refl as s
  | cons i l ih =>
    exact (h s i List.mem_cons_self).trans (ih (fun t j hj => h t j (List.mem_cons_of_mem i hj)) _)

theorem setSys_quiet {as : List Nat} (s : State) (x : Sys) : QuietStep as s { s with sys := x } :=
  (setSys_event s x).quiet rfl

theorem noteDepth_quiet {as : List Nat} {q : Nat} (s : State) (hst : R.QP_STATUS q ∈ as) (hpk : R.QP_PEAK q ∈ as) :
    QuietStep as s (s.noteDepth q) := by
  unfold State.noteDepth
  dsimp only
  split <;> split
  · exact (QuietStep.setReg s _ hpk).trans (.setReg _ _ hst)
  · exact .setReg s _ hpk
  · exact .setReg s _ hst
  · exact .refl as s

/-- What a hardware producer's item writes: the queue's status, peak and lost counter (R106, R118, R124). -/
theorem pushFlag_quiet {as : List Nat} {q : Nat} (s : State) (ws : List Word)
    (h : [R.QP_STATUS q, R.QP_PEAK q, R.QP_OVR_CNT q] ⊆ as) : QuietStep as s (s.pushFlag q ws) := by
  simp only [List.cons_subset, List.nil_subset, and_true] at h
  obtain ⟨hst, hpk, hov⟩ := h
  unfold State.pushFlag
  split
  · exact (QuietStep.setReg s _ hst).trans (.setReg _ _ hov)
  · exact ((setQueue_event s _ _).quiet rfl).trans (noteDepth_quiet _ hst hpk)

theorem pushFlag_audSeq (s : State) (q : Nat) (ws : List Word) :
    (s.pushFlag q ws).reg R.AUD_SEQ = s.reg R.AUD_SEQ := by
  refine (pushFlag_quiet s ws (List.Subset.refl _)).2 _ ?_ (.inr rfl)
  simp only [List.mem_cons, List.not_mem_nil, or_false, R.AUD_SEQ, R.QP_STATUS, R.QP_PEAK, R.QP_OVR_CNT]
  omega

theorem hbrCapture_audSeq (s : State) (lo hi info : Word) :
    (s.hbrCapture lo hi info).reg R.AUD_SEQ = s.reg R.AUD_SEQ := by
  unfold State.hbrCapture
  split <;> simp [State.incReg, reg_setReg, R.AUD_SEQ, R.HBR_ERR_MERGED, R.HBR_ERR_STATUS, R.HBR_ERR_ADDR_LO,
    R.HBR_ERR_ADDR_HI, R.HBR_ERR_INFO]

theorem postLine_audSeq (s : State) (n : Nat) : (s.postLine n).1.reg R.AUD_SEQ = s.reg R.AUD_SEQ := by
  unfold State.postLine
  dsimp only
  split
  · split
    · rfl
    · split
      · rfl
      · exact hbrCapture_audSeq _ _ _ _
  · rfl

theorem moveLine_audSeq (s : State) (w k : Nat) : (s.moveLine w k).1.reg R.AUD_SEQ = s.reg R.AUD_SEQ := by
  unfold State.moveLine
  dsimp only
  split <;> split
  · rfl
  · exact postLine_audSeq _ _
  · rfl
  · rfl

theorem evtStatus_ne_audSeq (w : Nat) : evtStatus w ≠ some R.AUD_SEQ := by
  unfold evtStatus
  split
  case h_19 =>
    split
    · simp only [ne_eq, Option.some.injEq, R.CAN_EVT_STATUS, R.AUD_SEQ]; omega
    · split
      · simp only [ne_eq, Option.some.injEq, R.LIN_EVT_STATUS, R.AUD_SEQ]; omega
      · simp
  all_goals decide

theorem setEvent_audSeq (s : State) (w b : Nat) : (s.setEvent w b).1.reg R.AUD_SEQ = s.reg R.AUD_SEQ := by
  unfold State.setEvent
  split
  · rfl
  · next a h =>
    dsimp only
    have hs : ∀ v, (s.setReg a v).reg R.AUD_SEQ = s.reg R.AUD_SEQ := fun v =>
      reg_setReg_ne s v fun e => evtStatus_ne_audSeq w (e ▸ h)
    split
    · exact hs _
    · exact (pushFlag_audSeq _ _ _).trans (hs _)

theorem evalLine_audSeq (s : State) (w k : Nat) : (s.evalLine w k).reg R.AUD_SEQ = s.reg R.AUD_SEQ := by
  unfold State.evalLine
  dsimp only
  split
  · split <;> simp only [moveLine_audSeq, setEvent_audSeq]
  · exact moveLine_audSeq s w k

/-! ### A mild fault (R438-R442) -/

/-- A reaction that only records or interrupts does nothing beyond the capture (R441). -/
theorem react_mild (s : State) (w src info0 : Nat) (resets : Bool) {code : Nat} (h : code ≤ 1) :
    s.react w src code info0 resets = s := by
  have h8 : ¬ 8 ≤ code := by omega
  have h2 : code % 8 ≠ 2 := by omega
  have h3 : code % 8 ≠ 3 := by omega
  have h4 : code % 8 ≠ 4 := by omega
  simp [State.react, h8, h2, h3, h4]

/-- Offsets in the fault page of the registers that describe an open event (R437, R440). -/
def captureOffsets : List Nat := [0x20, 0x24, 0x28, 0x2C, 0x30, 0x34, 0x38, 0x3C]

/-- The registers that a fault writes beside the status bit of its source. -/
def captureRegs (w : Nat) : List Nat := (faultRegs w).tail

theorem faultRegs_eq (w : Nat) : faultRegs w = fltReg w 0 :: captureRegs w := rfl

theorem fltReg_mem_captureRegs (w : Nat) {o : Nat} (h : o ∈ captureOffsets) :
    fltReg w o ∈ captureRegs w :=
  List.mem_append_left _ (List.mem_map_of_mem h)

theorem evalLine_quiet {as : List Nat} (s : State) (w k : Nat) : QuietStep as s (s.evalLine w k) :=
  (evalLine_event s w k).quiet (evalLine_audSeq s w k)

/-- A mild capture fills the fault page, numbers the event and queues its item. -/
theorem capture_mild {s : State} {w src : Nat} (h : Mild s w src) (info : List Word) (forced again : Bool) :
    QuietStep (captureRegs w) s (s.capture w src info forced again) := by
  have page : ∀ (t : State) (o : Nat) (v : Word), o ∈ captureOffsets →
      QuietStep (captureRegs w) t (t.setReg (fltReg w o) v) := fun t o v ho =>
    .setReg t v (fltReg_mem_captureRegs w ho)
  have tail : [R.SYS_FLT_SEQ, R.QP_STATUS 6, R.QP_PEAK 6, R.QP_OVR_CNT 6] ⊆ captureRegs w :=
    List.subset_append_right _ _
  have weak : ¬ (2 ≤ s.reaction w src % 8 ∨ 8 ≤ s.reaction w src) := by unfold Mild at h; omega
  unfold State.capture
  dsimp only
  rw [react_mild _ _ _ _ _ h, if_neg weak]
  refine .trans ?_ (evalLine_quiet _ w 0)
  refine .trans ?_ (setSys_quiet _ _)
  refine .trans ?_ (evalLine_quiet _ _ 2)
  refine .trans ?_ (pushFlag_quiet _ _ fun a ha => tail (List.mem_cons_of_mem _ ha))
  refine .trans ?_ (.setReg _ _ (tail List.mem_cons_self))
  refine .trans ?_ (page _ 0x38 _ (by decide))
  refine .trans ?_ (page _ 0x34 _ (by decide))
  refine .trans (page s 0x20 _ (by decide)) (.foldl (fun t i hi => page t (0x24 + 4 * i) _ ?_) _)
  have hi4 := List.mem_range.1 hi
  simp only [captureOffsets, List.mem_cons, List.not_mem_nil, or_false]
  omega

/-- A mild occurrence that merges is counted, and changes the open event's word alone. -/
theorem merge_mild {s : State} {w src : Nat} (h : Mild s w src) (info : List Word) :
    QuietStep (captureRegs w) s (s.merge w src info) := by
  have weak : s.reaction w src % 8 ≤ 1 := by unfold Mild at h; omega
  have below : ¬ 8 ≤ s.reaction w src := by unfold Mild at h; omega
  unfold State.merge
  dsimp only
  rw [react_mild _ _ _ _ _ weak, ite_self, decide_eq_false below, Bool.false_and, if_neg Bool.false_ne_true]
  refine .trans ?_ (evalLine_quiet _ w 0)
  exact (QuietStep.setReg s _ (fltReg_mem_captureRegs w (by decide))).trans
    (.setReg _ _ (fltReg_mem_captureRegs w (by decide)))

/-- Setting a status bit of the fault page leaves the reactions. -/
theorem mild_setStatus {s : State} {w src : Nat} (v : Word) (h : Mild s w src) :
    Mild (s.setReg (fltReg w 0) v) w src := by
  have hne : fltReg w (8 + 4 * (src / 8)) ≠ fltReg w 0 := by unfold fltReg; omega
  simpa [Mild, State.reaction, State.regFld, reg_setReg_ne s v hne] using h

/-- A mild fault sets its status bit; beyond that it writes the registers of a capture. -/
theorem fault_mild {s : State} {w src : Nat} (h : Mild s w src) (info : List Word) (forced : Bool) :
    QuietStep (captureRegs w) (s.modReg (fltReg w 0) fun v => putBit v src true) (s.fault w src info forced) := by
  unfold State.fault
  dsimp only
  split
  · exact merge_mild (mild_setStatus _ h) info
  · exact capture_mild (mild_setStatus _ h) info forced false

/-- The low byte of a fault-page register's address is its offset in the page (R27). -/
theorem fltReg_low (w : Nat) {o : Nat} (h : o < 256) : fltReg w o % 256 = o := by
  unfold fltReg winBase faultOff
  repeat' split
  all_goals omega

theorem ne_fltReg_zero {a : Nat} (w : Nat) (h : a % 256 ≠ 0) : a ≠ fltReg w 0 :=
  fun e => h (e ▸ fltReg_low w (by decide))

/-- The low bytes of the addresses that a capture writes, whatever the window. -/
theorem low_of_mem_captureRegs {w a : Nat} (h : a ∈ captureRegs w) :
    a % 256 ∈ captureOffsets ++ [0xC0, 0x94, 0x90, 0x98] := by
  rcases List.mem_append.1 (show a ∈ captureOffsets.map (fltReg w) ++
    [R.SYS_FLT_SEQ, R.QP_STATUS 6, R.QP_PEAK 6, R.QP_OVR_CNT 6] from h) with hp | hq
  · obtain ⟨o, ho, rfl⟩ := List.mem_map.1 hp
    have small : o < 256 := by
      simp only [captureOffsets, List.mem_cons, List.not_mem_nil, or_false] at ho
      omega
    rw [fltReg_low w small]
    exact List.mem_append_left _ ho
  · simp only [List.mem_cons, List.not_mem_nil, or_false] at hq
    rcases hq with rfl | rfl | rfl | rfl <;> decide

theorem not_mem_captureRegs {a : Nat} (w : Nat)
    (h : a % 256 ∉ captureOffsets ++ [0xC0, 0x94, 0x90, 0x98]) : a ∉ captureRegs w :=
  fun hm => h (low_of_mem_captureRegs hm)

theorem status_not_mem_captureRegs (w : Nat) : fltReg w 0 ∉ captureRegs w :=
  not_mem_captureRegs w (by rw [fltReg_low w (by decide)]; decide)

/-- What a mild fault touches: event parts, the window's fault page, the fault-event queue and the fault counter. -/
theorem fault_mild_frame {s : State} {w src : Nat} (h : Mild s w src) (info : List Word) (forced : Bool) :
    SameBut eventParts s (s.fault w src info forced) ∧ RegsBut (faultRegs w) s (s.fault w src info forced) := by
  obtain ⟨hs, hr⟩ := fault_mild h info forced
  refine ⟨((setReg_same s _ _).mono (by simp [eventParts])).trans hs, fun a ha hsig => ?_⟩
  rw [faultRegs_eq, List.mem_cons, not_or] at ha
  exact (hr a ha.2 (.inl hsig)).trans (reg_setReg_ne s _ ha.1)

/-- A mild fault sets the status bit of its source (R439). -/
theorem fault_mild_status {s : State} {w src : Nat} (h : Mild s w src) (hsrc : src < 32)
    (hsig : signalReg (fltReg w 0) = false) (info : List Word) (forced : Bool) :
    (s.fault w src info forced).regBit (fltReg w 0) src = true := by
  unfold State.regBit
  rw [(fault_mild h info forced).2 _ (status_not_mem_captureRegs w) (.inl hsig)]
  simpa [State.modReg] using bitOf_putBit_true _ hsrc

/-- A mild fault leaves the audit log's room. -/
theorem fault_mild_room {s : State} {w src : Nat} (h : Mild s w src) (hr : LogRoom s) (info : List Word)
    (forced : Bool) : LogRoom (s.fault w src info forced) := by
  obtain ⟨hs, hreg⟩ := fault_mild h info forced
  have hseq : (s.fault w src info forced).reg R.AUD_SEQ = s.reg R.AUD_SEQ :=
    (hreg _ (not_mem_captureRegs w (by decide)) (.inr rfl)).trans
      (reg_setReg_ne s _ (ne_fltReg_zero w (by decide)))
  have hexp : (s.fault w src info forced).reg R.AUD_EXP_SEQ = s.reg R.AUD_EXP_SEQ :=
    (hreg _ (not_mem_captureRegs w (by decide)) (.inl (by decide))).trans
      (reg_setReg_ne s _ (ne_fltReg_zero w (by decide)))
  have haud : (s.fault w src info forced).aud = s.aud := hs .aud (by decide)
  refine ⟨?_, haud ▸ hr.2⟩
  obtain ⟨room, -⟩ := hr
  unfold State.reserveOut State.unexported at *
  rw [hseq, hexp, room]

end Sys2Proof.Machine
end

section
/-! PROOFS. Writes of a register that are refused. -/

namespace Sys2Proof.Machine

/-! ### Refused writes (R78, R80) -/

theorem addEntry_log {s : State} (h : LogRoom s) (o p a : Nat) (x y : Word) : LogStep s (s.addEntry o p a x y) := by
  rw [addEntry_room h.1 h.2]
  exact putEntry_log s o p a x y

/-- The log's room does not depend on its other contents. -/
theorem logRoom_setAud {s : State} (h : LogRoom s) (x : Aud) (hg : x.gap = s.aud.gap) :
    LogRoom { s with aud := x } := by
  have hr : State.reserveOut { s with aud := x } = s.reserveOut := rfl
  exact ⟨hr.trans h.1, hg.trans h.2⟩

/-- An entry made beside another change of the log's contents. -/
theorem addEntry_setAud_log {s : State} (h : LogRoom s) {x : Aud} (hg : x.gap = s.aud.gap) (o p a : Nat)
    (old new : Word) : LogStep s (State.addEntry { s with aud := x } o p a old new) :=
  (setAud_log s x).trans (addEntry_log (logRoom_setAud h x hg) o p a old new)

theorem LogStep.but {as : List Nat} {s t : State} (h : LogStep s t) : SameBut logParts s t ∧ RegsBut as s t :=
  ⟨h.1, h.2.mono (by simp)⟩

/-- A refusal's entry, with room in the log: the entry, or one more in the counter of those left out (R80). -/
theorem logReject_frame {s : State} (h : LogRoom s) (m : Master) (a : Nat) (old new : Word) :
    SameBut logParts s (s.logReject m a old new) ∧ RegsBut [R.AUD_REJ_SUPPR] s (s.logReject m a old new) := by
  unfold State.logReject
  dsimp only
  split
  · exact ⟨(setReg_same s _ _).mono (by simp [logParts, eventParts]), setReg_regs s _ _⟩
  · exact LogStep.but (addEntry_setAud_log h (by rfl) _ _ _ _ _)

section Refuse
/-! A refused write at an address of window w, whose REJECTED is mild, with room in the log. -/

variable {s : State} {a w off : Nat} (hw : winOf a = some (w, off)) (h : Mild s w 0) (hr : LogRoom s) (m : Master)
  (old new : Word)
include hw h hr

/-- The three steps of a refusal: the fault, the count, the entry. -/
theorem refuse_steps : ∃ info,
    s.refuse m a old new = ((s.fault w 0 info).incReg R.SYS_REJ_CNT).logReject m a old new ∧
    LogRoom ((s.fault w 0 info).incReg R.SYS_REJ_CNT) := by
  refine ⟨[word a, word (m.origin + 256 * privByte s m true true), new, 0], ?_, ?_⟩
  · unfold State.refuse
    simp only [hw]
  · obtain ⟨room, gap⟩ := fault_mild_room h hr [word a, word (m.origin + 256 * privByte s m true true), new, 0] false
    refine ⟨?_, gap⟩
    unfold State.reserveOut State.unexported State.incReg at *
    rwa [reg_setReg_ne _ _ (by decide), reg_setReg_ne _ _ (by decide)]

/-- What a refusal touches (R78). -/
theorem refuse_frame : SameBut logParts s (s.refuse m a old new) ∧
    RegsBut (R.SYS_REJ_CNT :: R.AUD_REJ_SUPPR :: faultRegs w) s (s.refuse m a old new) := by
  obtain ⟨info, e, room⟩ := refuse_steps hw h hr m old new
  obtain ⟨fs, fr⟩ := fault_mild_frame h info false
  obtain ⟨ls, lr⟩ := logReject_frame room m a old new
  rw [e]
  constructor
  · exact ((fs.trans ((setReg_same _ _ _).mono (by simp [eventParts]))).mono (by simp [logParts])).trans ls
  · exact ((fr.mono (by simp)).trans ((setReg_regs _ _ _).mono (by simp))).trans (lr.mono (by simp))

/-- A refusal is counted once (R78). -/
theorem refuse_counts : (s.refuse m a old new).reg R.SYS_REJ_CNT = satInc (s.reg R.SYS_REJ_CNT) := by
  obtain ⟨info, e, room⟩ := refuse_steps hw h hr m old new
  have hne : R.SYS_REJ_CNT ∉ faultRegs w := by
    rw [faultRegs_eq, List.mem_cons, not_or]
    exact ⟨ne_fltReg_zero w (by decide), not_mem_captureRegs w (by decide)⟩
  rw [e, (logReject_frame room m a old new).2 _ (by decide) (by decide), State.incReg, reg_setReg_self,
    (fault_mild_frame h info false).2 _ hne (by decide)]

/-- A refusal sets REJECTED, source 0 of the window's fault page (R78, R439). -/
theorem refuse_status (hsig : signalReg (fltReg w 0) = false) :
    (s.refuse m a old new).regBit (fltReg w 0) 0 = true := by
  obtain ⟨info, e, room⟩ := refuse_steps hw h hr m old new
  have hsup : fltReg w 0 ∉ [R.AUD_REJ_SUPPR] := fun hm =>
    ne_fltReg_zero w (by decide) (List.mem_singleton.1 hm).symm
  have hcnt : fltReg w 0 ≠ R.SYS_REJ_CNT := (ne_fltReg_zero w (by decide)).symm
  rw [e, State.regBit, (logReject_frame room m a old new).2 _ hsup hsig, State.incReg, reg_setReg_ne _ _ hcnt]
  exact fault_mild_status h (by decide) hsig info false

end Refuse

/-! ### An addressed write -/

/-- With a legal value and nothing against it at GRD_APPLY, an addressed write is taken. -/
theorem Addressed.writable {s : State} {m : Master} {a v : Nat} {l : Loc} (h : Addressed s m a l)
    (legal : s.valueOk m l (word v &&& inMask l) = true) (ne : a ≠ R.GRD_APPLY) : Writable s m a v l where
  reaches := h.reaches
  aligned := h.aligned
  found := h.found
  up := h.up
  granted := h.granted
  secure := h.secure
  writes := h.writes
  unlocked := h.unlocked
  legal := legal
  applies e := absurd e ne
  room hl := ⟨h.room.2.2.2 hl, h.room.1, h.room.2.1, h.room.2.2.1⟩

theorem Addressed.logRoom {s : State} {m : Master} {a : Nat} {l : Loc} (h : Addressed s m a l) : LogRoom s :=
  ⟨h.room.2.1, h.room.2.2.1⟩

/-- A value that its check refuses is judged refused (R77, R78). -/
theorem Addressed.judged_refused {s : State} {m : Master} {a : Nat} {l : Loc} {v : Word} (h : Addressed s m a l)
    (illegal : s.valueOk m l (v &&& inMask l) = false) :
    s.judge m l v = .refused (if l.row.acc == .wo then 0 else s.liveAt l) := by
  obtain ⟨hro, hrc, hfix⟩ := h.writes
  obtain ⟨hwl, hwlc⟩ := h.unlocked
  have secure : (l.row.sec && !secureMaster s m) = false := by
    cases hs : l.row.sec
    · rfl
    · simp [h.secure hs]
  have takes : (l.row.acc == .ro || l.row.acc == .rc || fixedPart l) = false := by simp [hro, hrc, hfix]
  have unlocked : ((l.row.acc == .wl && s.sys.wlDone.contains a) ||
      (l.row.acc == .wlc && s.regBit (winBase l.win + 0x20) 0)) = false := by
    rw [Bool.or_eq_false_iff, Bool.and_eq_false_imp, Bool.and_eq_false_imp]
    exact ⟨fun e => by simpa using hwl (eq_of_beq e), fun e => hwlc (eq_of_beq e)⟩
  unfold State.judge
  simp only [(regAt_place h.found).2.1, secure, takes, unlocked, illegal, Bool.not_false, Bool.true_or,
    Bool.false_eq_true, if_false, if_true]

/-- An addressed 4-byte write passes every check of the fabric, and comes to the judgement of its register. -/
theorem access_addressed {s : State} {m : Master} {a : Nat} {l : Loc} (h : Addressed s m a l) (v : Nat) (bad : Bool) :
    s.access m a 4 true v bad = (s.finish m l (word v) bad (s.judge m l (word v))).respond .done := by
  obtain ⟨hwin, -, hreg⟩ := regAt_place h.found
  obtain ⟨hpow, hres⟩ : powered s (domainOf l.win) = true ∧ inReset s (domainOf l.win) = false := by
    simpa [alive] using h.up
  have reach : (debugClosed s m || (inbound m && !s.fnReach m a)) = false := by
    rw [h.reaches.1]
    cases hi : inbound m
    · rfl
    · simp [State.fnReach, h.reaches.2 hi, hreg]
  have own : (true && inbound m && m.origin != 0x20 && s.ringView (m.origin - 0x20) a) = false := by
    cases hi : inbound m
    · rfl
    · simp [h.reaches.2 hi]
  have size : sizeOk a 4 true = true := by
    unfold sizeOk
    rw [hreg, h.aligned]
    rfl
  simp only [State.access, reach, own, hreg, Bool.false_eq_true, if_false, State.regAccess, hwin, hpow, hres, size,
    h.granted, Bool.not_true, if_true, State.regWrite, h.found, show (4 : Nat) = 8 ↔ False by decide, State.writeAt,
    h.room.1, Bool.and_false]

/-- An addressed write whose value is refused: the refusal, the bus's answer, and what waited. GRD_APPLY and SIG_RI_ARM
record more (R275, R431). -/
theorem put_refused {s : State} {m : Master} {a v : Nat} {l : Loc} (h : Addressed s m a l)
    (illegal : s.valueOk m l (word v &&& inMask l) = false) (hg : a ≠ R.GRD_APPLY) (hs : a ≠ R.SIG_RI_ARM) :
    s.put m a v =
      ((s.refuse m a (if l.row.acc == .wo then 0 else s.liveAt l) (word v)).respond .done).settle := by
  rw [State.put, access_addressed h, h.judged_refused illegal, State.finish, State.refuseWrite]
  simp only [(regAt_place h.found).2.1, hg, hs, false_and, if_false]

end Sys2Proof.Machine
end

section
/-! PROOFS. The supply settings of the power domains. -/

namespace Sys2Proof.Machine

/-! ### FOX_VSET_PDn (R57, R72) -/

/-- Where FOX_VSET_PDn is found: its row in window 2. -/
def vsetLoc (n : Nat) : Loc :=
  ⟨⟨"FOX_VSET_PD", 0x244, 15, 0x4, 1, 4, .rw, true, 0x384#32, .c, true, 0xFFFFFFFF#32, false, .all⟩, n - 1, 0, 2,
    0x240 + n * 4⟩

/-- What holds of each domain 1-15 holds of all. -/
theorem domain_cases {P : Nat → Prop} {n : Nat} (h1 : 1 ≤ n) (h15 : n ≤ 15) (p1 : P 1) (p2 : P 2) (p3 : P 3)
    (p4 : P 4) (p5 : P 5) (p6 : P 6) (p7 : P 7) (p8 : P 8) (p9 : P 9) (p10 : P 10) (p11 : P 11) (p12 : P 12)
    (p13 : P 13) (p14 : P 14) (p15 : P 15) : P n := by
  match n, h1, h15 with
  | 1, _, _ => exact p1
  | 2, _, _ => exact p2
  | 3, _, _ => exact p3
  | 4, _, _ => exact p4
  | 5, _, _ => exact p5
  | 6, _, _ => exact p6
  | 7, _, _ => exact p7
  | 8, _, _ => exact p8
  | 9, _, _ => exact p9
  | 10, _, _ => exact p10
  | 11, _, _ => exact p11
  | 12, _, _ => exact p12
  | 13, _, _ => exact p13
  | 14, _, _ => exact p14
  | 15, _, _ => exact p15
  | k + 16, _, h => omega

theorem regAt_vset {n : Nat} (h1 : 1 ≤ n) (h15 : n ≤ 15) : regAt (R.FOX_VSET_PD n) = some (vsetLoc n) := by
  apply domain_cases h1 h15 <;> rfl

section
variable {n : Nat} (h1 : 1 ≤ n) (h15 : n ≤ 15)
include h1 h15

/-- Every bit of FOX_VSET_PDn is taken as written (R9). -/
theorem vset_masks : regMask (vsetLoc n) = 0xFFFFFFFF#32 ∧ inMask (vsetLoc n) = 0xFFFFFFFF#32 := by
  apply domain_cases h1 h15 <;> decide

/-- The value check of FOX_VSET_PDn is that of R57. -/
theorem vset_valueOk (s : State) (m : Master) (v : Word) :
    s.valueOk m (vsetLoc n) (v &&& inMask (vsetLoc n)) = s.vsetOk n v := by
  have hv : v &&& inMask (vsetLoc n) = v := by
    rw [(vset_masks h1 h15).2]; exact BitVec.and_allOnes
  rw [hv]
  apply domain_cases h1 h15 <;> rfl

/-- A taken write of FOX_VSET_PDn starts nothing. -/
theorem vset_wrote (s : State) (m : Master) (old new v : Word) (bad : Bool) :
    s.wrote m (vsetLoc n) old new v bad = s := by
  apply domain_cases h1 h15 <;> rfl

/-- FOX_VSET_PDn holds the word written. -/
theorem vset_after (s : State) (old v : Word) : s.after (vsetLoc n) old v = v := by
  have hm := (vset_masks h1 h15).1
  have hv : v &&& 0xFFFFFFFF#32 = v := BitVec.and_allOnes
  unfold State.after
  rw [hm]
  simp [vsetLoc, hv]

/-- FOX_VSET_PDn is none of the registers that events, entries and refusals write. -/
theorem vset_apart : signalReg (R.FOX_VSET_PD n) = false ∧
    R.FOX_VSET_PD n ∉ R.SYS_REJ_CNT :: R.AUD_REJ_SUPPR :: faultRegs 2 := by
  apply domain_cases h1 h15 <;> decide

end

/-- The legal settings (R57). -/
theorem vsetOk_iff (s : State) (n : Nat) {v : Nat} (hv : v < 2 ^ 32) :
    s.vsetOk n (word v) = true ↔ s.regBit R.FOX_LOOP_EN n = false ∧ v % 10 = 0 ∧ 680 ≤ v ∧ v ≤ 900 := by
  have hw : (word v).toNat = v := Nat.mod_eq_of_lt hv
  simp [State.vsetOk, hw, and_assoc]

theorem vset_ne_action {n : Nat} (h15 : n ≤ 15) :
    R.FOX_VSET_PD n ≠ R.GRD_APPLY ∧ R.FOX_VSET_PD n ≠ R.SIG_RI_ARM := by
  unfold R.FOX_VSET_PD R.GRD_APPLY R.SIG_RI_ARM
  omega

section
variable {s : State} {m : Master} {n v : Nat} (h1 : 1 ≤ n) (h15 : n ≤ 15)
  (ha : Addressed s m (R.FOX_VSET_PD n) (vsetLoc n))
include h1 h15 ha

/-- A legal setting is stored, and nothing is counted as refused. -/
theorem put_vset_legal (hv : v < 1024) (legal : s.vsetOk n (word v) = true) :
    ∃ t : State, s.put m (R.FOX_VSET_PD n) v = t.settle ∧ t.regFld (R.FOX_VSET_PD n) 9 0 = v ∧
      t.reg R.SYS_REJ_CNT = s.reg R.SYS_REJ_CNT := by
  have hw : Writable s m (R.FOX_VSET_PD n) v (vsetLoc n) :=
    ha.writable ((vset_valueOk h1 h15 s m (word v)).trans legal) (vset_ne_action h15).1
  have hp := (regAt_place hw.found).2.1
  obtain ⟨hsig, happart⟩ := vset_apart h1 h15
  obtain ⟨-, lines⟩ := evalWindow_event (s.prepared m (vsetLoc n) (word v)) (vsetLoc n).win
  have holds : (s.prepared m (vsetLoc n) (word v)).reg (R.FOX_VSET_PD n) = word v := by
    rw [← hp, prepared_reg rfl, vset_after h1 h15, (vset_masks h1 h15).2]
    exact BitVec.and_allOnes
  have hcnt : R.SYS_REJ_CNT ∉ [R.FOX_VSET_PD n] := fun h =>
    happart (List.mem_singleton.1 h ▸ List.mem_cons_self)
  have hcntsig : signalReg R.SYS_REJ_CNT = false := by decide
  refine ⟨_, put_prepared hw, ?_, ?_⟩ <;> rw [vset_wrote h1 h15]
  · rw [State.regFld, respond_reg, lines _ (by simp) hsig, holds, fld_word_low hv]
  · rw [respond_reg, lines _ (by simp) hcntsig, (prepared_frame hw).2 _ hcnt hcntsig]

/-- Any other setting is refused: the register keeps its value, REJECTED is set, and the refusal is counted. -/
theorem put_vset_illegal (hm : Mild s 2 0) (illegal : s.vsetOk n (word v) = false) :
    ∃ t : State, s.put m (R.FOX_VSET_PD n) v = t.settle ∧ t.reg (R.FOX_VSET_PD n) = s.reg (R.FOX_VSET_PD n) ∧
      t.regBit (fltReg 2 0) 0 = true ∧ t.reg R.SYS_REJ_CNT = satInc (s.reg R.SYS_REJ_CNT) := by
  have hwin := (regAt_place ha.found).1
  obtain ⟨hsig, happart⟩ := vset_apart h1 h15
  obtain ⟨hg, hs⟩ := vset_ne_action h15
  refine ⟨_, put_refused ha ((vset_valueOk h1 h15 s m (word v)).trans illegal) hg hs, ?_, ?_, ?_⟩
  · rw [respond_reg]
    exact (refuse_frame hwin hm ha.logRoom m _ _).2 _ happart hsig
  · rw [State.regBit, respond_reg]
    exact refuse_status hwin hm ha.logRoom m _ _ (show signalReg (fltReg 2 0) = false by decide)
  · rw [respond_reg]
    exact refuse_counts hwin hm ha.logRoom m _ _

end

/-- FOX_VSET_WRITE of a domain 1-15 is a write of its register. -/
theorem exec_foxVsetWrite {n : Nat} (h1 : 1 ≤ n) (h15 : n ≤ 15) (s : State) (m : Master) (v : Nat) :
    exec (.foxVsetWrite m n v) s = .next (s.put m (R.FOX_VSET_PD n) v) := by
  have hn : within 1 15 n = true := by simp [within, h1, h15]
  change execFoxVsetWrite m n v s = _
  rw [execFoxVsetWrite, State.putIf, if_pos hn]

/-- Settles O58: the value check of FOX_VSET_PDn is R57's condition, and each of its two answers has its lemma. -/
theorem supplySettingRule : Obligations.SupplySettingRule := by
  unfold Obligations.SupplySettingRule
  intro s m n v l h1 h15 hv ha hm
  obtain rfl : vsetLoc n = l := Option.some.inj ((regAt_vset h1 h15).symm.trans ha.found)
  have hexec := exec_foxVsetWrite h1 h15 s m v
  have hok := vsetOk_iff s n (show v < 2 ^ 32 by omega)
  unfold Leaves
  split
  next legal =>
    obtain ⟨t, ht, hset⟩ := put_vset_legal h1 h15 ha hv (hok.2 legal)
    exact ⟨t, hexec.trans (congrArg _ ht), hset⟩
  next illegal =>
    obtain ⟨t, ht, hkept⟩ := put_vset_illegal h1 h15 ha hm (Bool.eq_false_iff.2 (illegal ∘ hok.1))
    exact ⟨t, hexec.trans (congrArg _ ht), hkept⟩

end Sys2Proof.Machine
end

section
/-! PROOFS. Reads that the register space denies. -/

namespace Sys2Proof.Machine

/-! ### Reads of the register space (R8, R79) -/

/-- Little-endian bytes give back the number they were cut from, as far as they hold it (R14). -/
theorem leVal_leBytes (k n : Nat) : leVal (leBytes k n) = n % 256 ^ k := by
  induction k generalizing n with
  | zero => simp [leBytes, leVal, Nat.mod_one]
  | succ k ih =>
    have low : (byte n).toNat = n % 256 := BitVec.toNat_ofNat n 8
    rw [leBytes, leVal, low, ih, Nat.pow_succ', Nat.mod_mul]

/-- The fabric takes an aligned 4-byte access to the register space (R85). -/
theorem sizeOk_word {a : Nat} (hreg : regionOf a = .regs) (aligned : a % 4 = 0) (write : Bool) :
    sizeOk a 4 write = true := by
  unfold sizeOk
  rw [hreg, aligned]
  rfl

/-- A master that reaches the register space is not turned away at the debug port or at the function's BARs (R32, R399). -/
theorem reaches_regs {s : State} {m : Master} {a : Nat} (reach : Reaches s m) (hreg : regionOf a = .regs) :
    (debugClosed s m || (inbound m && !s.fnReach m a)) = false := by
  obtain ⟨closed, physical⟩ := reach
  rw [closed]
  cases hi : inbound m
  · rfl
  · simp [State.fnReach, physical hi, hreg]

/-- A 4-byte read whose block acts: the register's own read where the partition grants the window, else zero (R35, R79). -/
theorem access_read {s : State} {m : Master} {a : Nat} {l : Loc} (reach : Reaches s m) (aligned : a % 4 = 0)
    (found : regAt a = some l) (up : alive s (domainOf l.win) = true) :
    s.access m a 4 false 0 = if windowGranted s m l.win then s.regRead m a 4 else s.respond (.data 0) := by
  obtain ⟨hwin, -, hreg⟩ := regAt_place found
  obtain ⟨hpow, hres⟩ : powered s (domainOf l.win) = true ∧ inReset s (domainOf l.win) = false := by
    simpa [alive] using up
  simp only [State.access, reaches_regs reach hreg, hreg, State.regAccess, hwin, hpow, hres, sizeOk_word hreg aligned,
    Bool.false_and, Bool.not_true, Bool.false_eq_true, if_false]
  cases windowGranted s m l.win <;> rfl

/-- A 4-byte read of a register gives its word, and then has the read's effect (R8). -/
theorem regRead_word {s : State} {m : Master} {a : Nat} {l : Loc} (found : regAt a = some l) :
    s.regRead m a 4 = (s.afterRead m l).respond (.data (s.readWord m l).toNat) := by
  have hv : leVal (leBytes 4 (s.readWord m l).toNat) = (s.readWord m l).toNat := by
    rw [leVal_leBytes]
    exact Nat.mod_eq_of_lt (s.readWord m l).isLt
  simp [State.regRead, found, hv]

/-- A SEC register reads as zero to a master that is not secure, and the read has no effect (R79). -/
theorem insecure_read {s : State} {m : Master} {l : Loc} (sec : l.row.sec = true) (insecure : secureMaster s m = false) :
    s.readWord m l = 0 ∧ s.afterRead m l = s := by
  simp [State.readWord, State.afterRead, sec, insecure]

/-- A denied read comes to the bus's answer of zero and nothing else (R79). -/
theorem access_read_denied {s : State} {m : Master} {a : Nat} {l : Loc} (reach : Reaches s m) (aligned : a % 4 = 0)
    (found : regAt a = some l) (up : alive s (domainOf l.win) = true)
    (denied : (l.row.sec = true ∧ secureMaster s m = false) ∨ windowGranted s m l.win = false) :
    s.access m a 4 false 0 = s.respond (.data 0) := by
  rw [access_read reach aligned found up]
  split
  next granted =>
    obtain ⟨sec, insecure⟩ := denied.resolve_right (Bool.not_eq_false _ ▸ granted)
    obtain ⟨zero, still⟩ := insecure_read sec insecure
    rw [regRead_word found, zero, still]
    rfl
  next => rfl

/-- The bus's answer touches the fabric's part alone. -/
theorem respond_same (s : State) (x : BusResp) : SameBut [.sys] s (s.respond x) := by
  intro p hp
  cases p
  case sys => exact absurd List.mem_cons_self hp
  all_goals rfl

/-- RC_READ is an access that reads. -/
theorem exec_rcRead (m : Master) (a size : Nat) (s : State) :
    exec (.rcRead m a size) s = .next (s.access m a size false 0).settle := rfl

/-- Settles O59: on either ground the denied read comes to the bus's answer of zero, which is no part of the fault pages or
of the audit log. -/
theorem deniedReadsGiveZero : Obligations.DeniedReadsGiveZero := by
  unfold Obligations.DeniedReadsGiveZero
  intro s m a l reach aligned found up denied
  refine ⟨s.respond (.data 0), ?_, rfl, respond_same s _⟩
  rw [exec_rcRead, access_read_denied reach aligned found up denied]

end Sys2Proof.Machine
end

section
/-! PROOFS. State requests that are refused. -/

namespace Sys2Proof.Machine

/-! ### PWR_STATE_REQ (R536) -/

/-- Where PWR_STATE_REQ is found: its row in window 1. -/
def stateReqLoc : Loc :=
  ⟨⟨"PWR_STATE_REQ", 0x8C, 1, 0x4, 1, 4, .wo, true, 0x0#32, .b, true, 0xFFFFFFFF#32, false, .all⟩, 0, 0, 1, 0x8C⟩

theorem regAt_stateReq : regAt R.PWR_STATE_REQ = some stateReqLoc := rfl

/-- The value check of PWR_STATE_REQ sees the whole word, and is that of R536. -/
theorem stateReq_valueOk (s : State) (m : Master) (v : Word) :
    s.valueOk m stateReqLoc (v &&& inMask stateReqLoc) = s.stateReqOk v := by
  have whole : inMask stateReqLoc = BitVec.allOnes 32 := by decide
  rw [whole, BitVec.and_allOnes]
  rfl

/-- R536's three grounds for refusing a state request: the target, an entry in progress, the power-fail warning. -/
def RequestBarred (s : State) (v : Word) : Prop :=
  (fld v 2 0 ≠ 3 ∧ fld v 2 0 ≠ 4) ∨ s.pwr.mode = .entering ∨ s.regBit R.PWR_STATUS 5 = true

/-- With GO set, the value check turns away what R536 bars. -/
theorem stateReqOk_barred {s : State} {v : Word} (go : bitOf v 31 = true) (barred : RequestBarred s v) :
    s.stateReqOk v = false := by
  have nonzero : (v.toNat == 0) = false := by
    rw [beq_eq_false_iff_ne]
    intro h
    obtain rfl : v = 0 := BitVec.eq_of_toNat_eq h
    exact absurd go (by decide)
  unfold State.stateReqOk
  rw [nonzero, go]
  rcases barred with ⟨standby, sleep⟩ | entering | warned
  · simp [standby, sleep]
  · simp [entering]
  · simp [warned]

/-- A 4-byte REGISTER_WRITE is a write of the register at its address. -/
theorem exec_registerWrite (m : Master) (a v : Nat) (s : State) :
    exec (.registerWrite m a 4 v) s = .next (s.put m a v) := rfl

/-- An addressed write whose value its check refuses, where the window's REJECTED is mild: what the refusal touches,
REJECTED, and the count (R78). GRD_APPLY and SIG_RI_ARM record more (R275, R431). -/
theorem put_refused_effect {s : State} {m : Master} {a v : Nat} {l : Loc} (addressed : Addressed s m a l)
    (illegal : s.valueOk m l (word v &&& inMask l) = false) (hg : a ≠ R.GRD_APPLY) (hs : a ≠ R.SIG_RI_ARM)
    (mild : Mild s l.win 0) (hsig : signalReg (fltReg l.win 0) = false) :
    ∃ t : State, s.put m a v = t.settle ∧ SameBut logParts s t ∧
      RegsBut (R.SYS_REJ_CNT :: R.AUD_REJ_SUPPR :: faultRegs l.win) s t ∧
      t.regBit (fltReg l.win 0) 0 = true ∧ t.reg R.SYS_REJ_CNT = satInc (s.reg R.SYS_REJ_CNT) := by
  have hwin := (regAt_place addressed.found).1
  have room := addressed.logRoom
  obtain ⟨parts, regs⟩ := refuse_frame hwin mild room m (if l.row.acc == .wo then 0 else s.liveAt l) (word v)
  refine ⟨_, put_refused addressed illegal hg hs, parts.trans ?_, regs, ?_, ?_⟩
  · exact (respond_same _ .done).mono (by simp [logParts, eventParts])
  · exact refuse_status hwin mild room m _ _ hsig
  · exact refuse_counts hwin mild room m _ _

/-- Settles O60: each ground fails the value check, and a refusal touches no part of the power manager. -/
theorem stateRequestRule : Obligations.StateRequestRule := by
  unfold Obligations.StateRequestRule
  intro s m v l addressed go mild barred
  obtain rfl : stateReqLoc = l := Option.some.inj (regAt_stateReq.symm.trans addressed.found)
  have illegal : s.valueOk m stateReqLoc (word v &&& inMask stateReqLoc) = false :=
    (stateReq_valueOk s m (word v)).trans (stateReqOk_barred go barred)
  obtain ⟨t, put, parts, regs, status, counted⟩ :=
    put_refused_effect addressed illegal (by decide) (by decide) mild (by decide)
  exact ⟨t, (exec_registerWrite m _ v s).trans (congrArg _ put), parts .pwr (by decide), status, counted, parts, regs⟩

end Sys2Proof.Machine
end
